-- ==== Sys2Proof/Word.lean ====
section
/-! DEFINITION. The words of the JL4810: bytes of the link and the store, 24-bit samples (R1), and the
index types of the sixteen layers and voices, four lanes and ports, two slots and four pedals.
All arithmetic that rounds, clamps or takes bits apart is in Machine/Operands.lean. -/

namespace Sys2Proof

/-- One byte of a link message or of the setup store. -/
abbrev Byte := BitVec 8

/-- A sample: a 24-bit two's complement value (R1). -/
abbrev Sample := BitVec 24

/-- Layers 0 to 15; voice Vn plays layer n (R126). -/
abbrev LayerIx := Fin 16

/-- Lanes L0 to L3 (R156). -/
abbrev LaneIx := Fin 4

/-- Input ports P0 to P3 (R147). -/
abbrev PortIx := Fin 4

/-- Capture slots S0 and S1 (R81). -/
abbrev SlotIx := Fin 2

/-- Pedal channels EXP0 to EXP3 (R159). -/
abbrev PedalIx := Fin 4

/-- Pedal map entries 0 to 7 (R161). -/
abbrev MapIx := Fin 8

end Sys2Proof
end

