-- ==== Sys2Proof/Syntax.lean ====
section
/-! DEFINITION. The commands of the block: one constructor per row of spec/opcode_table.json.
Rows of link commands carry no operand: they take the message at the head of the inbound queue
(R179; entry 4). Rows that an outside unit causes carry what that unit brings. -/

namespace Sys2Proof

/-- The steps of the JL4810, one per row of the opcode table. -/
inductive Instr where
  | powerOn
  | relockEnd
  | bootSetupApply
  /-- A complete host message: kind, tag and the declared payload (R175). A payload above 1,020
  bytes is the oversize message of R175. -/
  | hostMessage (kind tag : Byte) (payload : List Byte)
  /-- A transaction that ends early, with the bytes the host sent (R175). -/
  | shortTransaction (sent : List Byte)
  /-- A READ transaction of which `clocked` bytes follow the header (R177). -/
  | read (clocked : Nat)
  | unknownKind
  | portSet
  | laneSet
  | clockSet
  | gridSet
  | followSet
  | layerMix
  | liveMix
  | masterSet
  | fadeSet
  | pedalMap
  | pedalUnmap
  | eventMask
  | cue
  | cueCancel
  | tap
  | cycleSet
  | layerHold
  | layerRelease
  | audioRead
  | audioWrite
  | layerQuery
  | cycleQuery
  | laneQuery
  | memoryQuery
  | ident
  | storeRead
  | storeWrite
  | storeWordComplete
  | storeApply
  | blockHold
  | blockRelease
  | engineReset
  | frame
  | spliceWaitLimit
  | spliceJump
  | crossfadeEnd
  | holdOffEnd
  | coast
  | record
  | close
  | autoClose
  | fixedCaptureComplete (slot : SlotIx)
  | overdub
  | overdubEnd
  | play
  | stop
  | mute
  | unmute
  | undo
  | redo
  | clear
  | stopAll
  | playAll
  | pause
  | resume
  | clearAll
  | grantComplete
  | primingComplete (voice : LayerIx)
  | recovery (voice : LayerIx)
  | voiceIdle (voice : LayerIx)
  | clearFadeEnd (voice : LayerIx)
  | clipWindowEnd
  /-- A frame marker arrives on a port; `bits` are the data bits since the marker before it, in the
  order received (R148). -/
  | portFrameArrival (port : PortIx) (bits : List Bool)
  | silentPeriod (port : PortIx)
  | lockAcquired (port : PortIx)
  | lockLost (port : PortIx)
  | elasticFillDone (port : PortIx)
  | underrunEnd (port : PortIx)
  | overrunEnd (port : PortIx)
  /-- The pedals are converted: what the converter reads on EXP0 to EXP3 (R159). -/
  | samplingEvent (v0 v1 v2 v3 : BitVec 10)
  | powerOff
  deriving DecidableEq, Repr

end Sys2Proof
end

