-- ==== Sys2Proof/Config.lean ====
section
/-! DEFINITION. What one JL4810 fixes and its manual states, the contents the manual leaves to the part,
and the one free value (assumption log entries 8 and 9). -/

namespace Sys2Proof.Config

/-- Pages of loop memory (R104). -/
def pageCount : Nat := 2048

/-- Frames in one page (R104). -/
def pageFrames : Nat := 16384

/-- Shortest cycle in frames (R11). -/
def minCycle : Nat := 4800

/-- Longest cycle in frames (R11). -/
def maxCycle : Nat := 2880000

/-- Data entries a capture staging buffer holds (R100). -/
def stagingCapacity : Nat := 1024

/-- Commands accepted and not yet answered, at most (R178). -/
def maxUnanswered : Nat := 8

/-- Reports the event queue holds (R181). -/
def maxReports : Nat := 24

/-- Cues the cue queue holds (R61). -/
def maxCues : Nat := 12

/-- Bytes of the setup store, and the first byte of the user area (R188). -/
def storeSize : Nat := 4096

/-- First byte of the user area of the store (R188). -/
def userBase : Nat := 512

/-- The part name in the factory entry PT. DESIGN CHOICE "JL4810" (entry 8), unsafe. -/
def partName : List Byte := [0x4A, 0x4C, 0x34, 0x38, 0x31, 0x30]

/-- The hardware revision in the factory entry HW. DESIGN CHOICE "A" (entry 8), unsafe. -/
def hardwareRevision : List Byte := [0x41]

/-- The serial number in the factory entry SR. DESIGN CHOICE "0" (entry 8), unsafe. -/
def serialNumber : List Byte := [0x30]

/-- Whether a store word whose write was interrupted holds its new value (true) or its old one
(false); R191 leaves it open. A free value (entry 9), safe: one answer for each interruption. -/
opaque interruptedWordTakesNew : Nat → Bool

end Sys2Proof.Config
end

