-- ==== Sys2Proof/Machine/State.lean ====
section
/-! DEFINITION. The state of the JL4810 as plain data: every piece of state the spec names, unit by unit,
the marks the model adds (each said in its docstring), and the state after reset. -/

namespace Sys2Proof.Machine

/-! ## Cycle clock (R2) -/

/-- The cycle states, in the order of R2. -/
inductive CycleState where
  | unset | baseCapture | running | paused
  deriving DecidableEq, Repr

/-- The splice record (R19): distance J, crossfade length X, participating voices and the count of
frames waited or crossfaded. -/
structure SpliceRec where
  j : Int
  x : Nat
  voices : List LayerIx
  count : Nat
  deriving DecidableEq, Repr

/-- The splice state with its record (R2). -/
inductive Splice where
  | idle
  | fetching (r : SpliceRec)
  | crossfading (r : SpliceRec)
  deriving DecidableEq, Repr

/-- What an onset is measured against (R28, R29): the frame's position, C and B. -/
structure OnsetGrid where
  p : Nat
  len : Nat
  beats : Nat
  deriving DecidableEq, Repr

/-- The cycle clock (R2). `owedBoundary` and `owedTaps` (model, entry 17) hold what R7 and R27 leave to
the first frame after a period without frames. `onset` (model, entry 31): the grid of the open frame as it
stood before the frame's cues, present when the cycle was RUNNING then (R28). -/
structure Cycle where
  state : CycleState
  len : Option Nat
  beats : Nat
  pendingBeats : Option Nat
  p : Nat
  frac : Nat
  k : Nat
  m : Nat
  beat : Nat
  base : Option LayerIx
  splice : Splice
  spliceDone : Bool
  captureThisPass : Bool
  owedBoundary : Bool
  owedTaps : Nat
  onset : Option OnsetGrid
  deriving DecidableEq, Repr

/-! ## Tempo follower (R24) -/

/-- The beat sources, in the order of R24. -/
inductive BeatSource where
  | none
  | lane (l : LaneIx)
  | tap
  deriving DecidableEq, Repr

/-- The follower states (R25). -/
inductive FollowState where
  | off | waiting | tracking
  deriving DecidableEq, Repr

/-- The kinds of onset (R24). -/
inductive OnsetKind where
  | detector | tap
  deriving DecidableEq, Repr

/-- The last onset record (R24, R29): its error, its kind and whether it was accepted. -/
structure OnsetRec where
  err : Int
  kind : OnsetKind
  accepted : Bool
  deriving DecidableEq, Repr

/-- The tempo follower (R24). `coastDue` (model, entry 3): a BEAT boundary brought the beat count to
coast beats (R32) and the follower has not yet returned to WAITING. `arming` (model, entry 3): the hold-off
has ended, and the next frame finds the detector armed (R26). -/
structure Follower where
  source : BeatSource
  threshold : Nat
  holdOff : Nat
  window : Nat
  shift : Nat
  span : Nat
  deltaMax : Nat
  spliceThreshold : Nat
  jMax : Nat
  coastBeats : Nat
  state : FollowState
  err : Int
  delta : Int
  holdCount : Nat
  armed : Bool
  beatCount : Nat
  decisionMade : Bool
  lastOnset : Option OnsetRec
  held : Bool
  coastDue : Bool
  arming : Bool
  deriving DecidableEq, Repr

/-! ## Layers (R41) -/

/-- The layer states, in the order of R41. -/
inductive LayerState where
  | empty | armed | capturing | playing | overdubbing | stopped
  deriving DecidableEq, Repr

/-- A layer's transfer reservation (R41). -/
inductive Hold where
  | none | pending | held
  deriving DecidableEq, Repr

/-- A layer record (R41). A chain is its page numbers in order; the length is n x C, not stored. -/
structure Layer where
  state : LayerState
  mult : Option Nat
  cur : Option (List Nat)
  undo : Option (List Nat)
  redo : Option (List Nat)
  written : Option (Nat × Nat)
  slot : Option SlotIx
  hold : Hold
  gain : Nat
  pan : Nat
  mute : Bool
  level : Nat
  feedback : Nat
  lastChange : Nat
  deriving DecidableEq, Repr

/-! ## Cue queue (R61) -/

/-- The cue actions with the arguments they carry, in the order of R61. -/
inductive Action where
  | record (n : Nat) (lane : LaneIx)
  | close
  | overdub (lane : LaneIx) (level feedback : Nat)
  | overdubEnd
  | play
  | stop
  | mute
  | unmute
  | undo
  | redo
  | clear
  | stopAll
  | playAll
  | pause
  | resume
  | clearAll
  deriving DecidableEq, Repr

/-- What a cue acts on (R61). -/
inductive Target where
  | layer (l : LayerIx)
  | all
  deriving DecidableEq, Repr

/-- The kinds of boundary a cue awaits, in the order of R61. -/
inductive Quantum where
  | immediate | onset | beat | cycle | layer
  deriving DecidableEq, Repr

/-- A cue record (R61). `wave` (model, entry 28): 0 for a cue made due by the frame's own boundaries,
one more than the executing cue's for a cue made due by an execution's boundaries (R70). -/
structure Cue where
  number : Nat
  action : Action
  target : Target
  quantum : Quantum
  remaining : Nat
  deferrals : Nat
  wave : Nat
  deriving DecidableEq, Repr

/-- The cue queue (R61), oldest cue first. -/
structure CueQueue where
  list : List Cue
  nextNumber : Nat
  deriving DecidableEq, Repr

/-! ## Capture slots (R81, R100) -/

/-- What a slot is doing: its state and, in CAPTURE, its kind (R81). -/
inductive SlotUse where
  | free | base | fixed | overdub
  deriving DecidableEq, Repr

/-- The content of a staging entry (R100): one position and sample, or a run of zeros. -/
inductive EntryBody where
  | data (pos : Nat) (x : Sample)
  | gap (first count : Nat) (isOpen : Bool)
  deriving DecidableEq, Repr

/-- A staging entry, addressed to the chain of `layer` whose first page is `key` (R100; entry 27). -/
structure Entry where
  layer : LayerIx
  key : Nat
  body : EntryBody
  deriving DecidableEq, Repr

/-- What an overdub combines the lane's sample with (R96): the stored sample, and the level and feedback in
force when the frame formed the write (R97). -/
structure Combining where
  old : Sample
  level : Nat
  feedback : Nat
  deriving DecidableEq, Repr

/-- One position a slot writes on the open frame: the lane's sample, what an overdub combines it with, and
`again` when it replaces the position written last (q = r in R90). -/
structure SlotWrite where
  pos : Nat
  x : Sample
  mixed : Option Combining
  again : Bool
  deriving DecidableEq, Repr

/-- A capture slot (R81). `pendingWrites` (model, entry 12): the writes of the open frame, made when
the frame ends unless the slot is released first. -/
structure Slot where
  use : SlotUse
  layer : Option LayerIx
  lane : Option LaneIx
  start : Option Nat
  last : Option Nat
  count : Nat
  first : Option Nat
  staging : List Entry
  pendingWrites : List SlotWrite
  deriving DecidableEq, Repr

/-! ## Loop memory (R104, R105, R110, R114, R118) -/

/-- Kinds of an undo age entry (R110). -/
inductive AgeKind where
  | undo | redo
  deriving DecidableEq, Repr

/-- Kinds of a page filler job (R114). -/
inductive FillKind where
  | finishCopy | zeroFill
  deriving DecidableEq, Repr

/-- A page filler job (R114): `key` is the first page of the chain it fills, which is its layer's current chain when
it is queued (R117; entries 27 and 54); `done` counts the positions a ZERO_FILL has zeroed (R116). -/
structure Job where
  layer : LayerIx
  key : Option Nat
  kind : FillKind
  done : Nat
  deriving DecidableEq, Repr

/-- Who asks for the memory port (R119). -/
inductive Requester where
  | slot (s : SlotIx)
  | voice (v : LayerIx)
  | splice (v : LayerIx)
  | transfer
  | filler
  deriving DecidableEq, Repr

/-- A grant (R118): the chain is named by its layer and first page (entry 27), `left` counts the frame
periods still to run, `cancelled` is the mark of R120, which a refill also takes when the staging it was
made for is discarded (R130). -/
structure Grant where
  who : Requester
  cls : Nat
  layer : LayerIx
  key : Nat
  write : Bool
  first : Nat
  count : Nat
  left : Nat
  cancelled : Bool
  deriving DecidableEq, Repr

/-- Loop memory: the frames that do not hold 0, by address page x 16,384 + offset in rising order (R104;
entry 7), the free-page list (R105), the undo age list (R110), the page filler (R114) and the grant in
progress (R118). -/
structure LoopMem where
  cells : List (Nat × Sample)
  free : List Nat
  age : List (LayerIx × AgeKind)
  jobs : List Job
  work : List Sample
  grant : Option Grant
  deriving DecidableEq, Repr

/-! ## Voices (R126) -/

/-- The read states of a voice, in the order of R126. -/
inductive ReadState where
  | idle | priming | reading | starved
  deriving DecidableEq, Repr

/-- Which way the short weight moves (R126). -/
inductive ShortDir where
  | steady | falling | rising
  deriving DecidableEq, Repr

/-- Consecutive frames of a layer from position `base` onward, modulo its length. -/
structure Run where
  base : Nat
  frames : List Sample
  deriving DecidableEq, Repr

/-- A voice (R126). `sample` (model): the sample it presents to the mixer on the frame (R137). -/
structure Voice where
  rs : ReadState
  pos : Option Nat
  main : Run
  flag : Bool
  primeStart : Option Nat
  spl : Run
  store : Run
  env : Nat
  target : Nat
  short : Nat
  dir : ShortDir
  clearing : Bool
  last : Sample
  stall : Option Nat
  starvedCount : Option Nat
  sample : Sample
  deriving DecidableEq, Repr

/-! ## Mixer (R136 to R142) -/

/-- A lane's live values (R136). -/
structure Live where
  gain : Nat
  pan : Nat
  mute : Bool
  env : Nat
  target : Nat
  deriving DecidableEq, Repr

/-- Sides of an OUTPUT_CLIP report, in the order of R139. -/
inductive ClipSides where
  | left | right | both
  deriving DecidableEq, Repr

/-- The exact sums of the last frame with the weights they were formed by: the master gain, and of each voice
and lane gain x pan weight x envelope on either side (model, entry 13). -/
structure FrameMix where
  left : Int
  right : Int
  master : Nat
  weights : Vector (Nat × Nat) 16
  live : Vector (Nat × Nat) 4
  deriving DecidableEq, Repr

/-- The mixer and the output port (R136, R138, R139, R141, R142): `computed` is the pair of the last
frame, `sending` the pair on the output port during this frame period, `sums` (model, entry 13) what the pair
was formed from, `clipping` (model, entry 13) the sides of the pair that saturate, until that is reported. -/
structure Mixer where
  live : Vector Live 4
  master : Nat
  fade : Nat
  cross : Nat
  clipReported : Bool
  window : Nat
  computed : Option (Sample × Sample)
  sending : Option (Sample × Sample)
  sums : FrameMix
  clipping : Option ClipSides
  deriving DecidableEq, Repr

/-! ## Clock controller and input ports (R143, R147, R156) -/

/-- Clock sources (R143). -/
inductive ClockSource where
  | internal | port0
  deriving DecidableEq, Repr

/-- The clock controller (R143). `startRelock`: the relock in progress is a start-up one and reports
nothing (R144). `starting`: READY has not been queued since the last reset (R193). `frameOpen` (model,
entry 3): an engine frame has occurred since the last relock. `p0Frames` (model, entry 18): frames of
P0, good with their words or bad, that have yet to make their engine frames (R153). -/
structure Clock where
  rate : Nat
  selected : ClockSource
  active : ClockSource
  pllLocked : Bool
  startRelock : Bool
  starting : Bool
  frameOpen : Bool
  p0Frames : List (Option (Sample × Sample))
  deriving DecidableEq, Repr

/-- Lock states of a port, in the order of R147. -/
inductive Lock where
  | disabled | searching | locked
  deriving DecidableEq, Repr

/-- Slip recoveries of a port, in the order of R147. -/
inductive Recovery where
  | none | under | over
  deriving DecidableEq, Repr

/-- An input port (R147). `markerSeen` and `frameLsb` (model, entry 19): a marker has opened a frame,
and the bit order in force at that marker (R148, R154). `slipEnds` (model, entry 3): the removal that
ends the recovery has been made (R151, R152). -/
structure Port where
  enabled : Bool
  lsbFirst : Bool
  held : Bool
  lock : Lock
  good : Nat
  bad : Nat
  buf : List (Sample × Sample)
  fill : Nat
  filling : Bool
  recovery : Recovery
  slip : Nat
  last : Sample × Sample
  markerSeen : Bool
  frameLsb : Bool
  slipEnds : Bool
  deriving DecidableEq, Repr

/-- Channels of a lane, in the order of R156. -/
inductive Channel where
  | left | right | sum
  deriving DecidableEq, Repr

/-- A lane (R156) and `x`, the sample it formed on the frame. `formed`, `peakBefore` and `taken` (model, entry 51),
for a port that leaves LOCKED on the open frame: the port `x` was formed from, the peak it found, and the positions a
capture that has completed on the frame staged `x` for, each with the layer and first page of its chain. -/
structure Lane where
  source : Option PortIx
  channel : Channel
  invert : Bool
  trim : Nat
  peak : Nat
  x : Sample
  formed : Option PortIx
  peakBefore : Nat
  taken : List (LayerIx × Nat × Nat)
  deriving DecidableEq, Repr

/-! ## Pedals (R159, R161) -/

/-- Target kinds of the pedal map with their arguments, in the order of R161. -/
inductive PedalTarget where
  | layerGain (l : LayerIx)
  | layerPan (l : LayerIx)
  | liveGain (l : LaneIx)
  | livePan (l : LaneIx)
  | masterGain
  | overdubLevel (l : LayerIx)
  | overdubFeedback (l : LayerIx)
  deriving DecidableEq, Repr

/-- A mapping of the pedal map (R161). -/
structure Mapping where
  channel : PedalIx
  target : PedalTarget
  low : Nat
  high : Nat
  deadband : Nat
  applied : Option Nat
  deriving DecidableEq, Repr

/-- A pedal channel (R159). -/
structure Pedal where
  raw : Nat
  smooth : Nat
  seed : Bool
  deriving DecidableEq, Repr

/-- The pedal sampler and the pedal map (R159, R161). `pins` (entry 11): what the converter would read
on each input. `due` (model, entry 3): this frame is a sampling event not yet carried out. -/
structure Pedals where
  count : Nat
  held : Bool
  due : Bool
  pins : Vector (BitVec 10) 4
  chan : Vector Pedal 4
  map : Vector (Option Mapping) 8
  deriving DecidableEq, Repr

/-! ## Transfer engine (R171) -/

/-- The transfer record (R171); a WRITE holds its samples in `data` from acceptance. -/
structure Transfer where
  write : Bool
  layer : LayerIx
  first : Nat
  count : Nat
  moved : Nat
  tag : Byte
  data : List Sample
  release : Bool
  deriving DecidableEq, Repr

/-! ## Reports (R181, R187) and replies (R180) -/

/-- Status codes of a reply (R180). -/
inductive Status where
  | ok | clamped | pending | badLength | unknownKind | outOfRange | wrongState | conflict | busy
  | layerHeld | notHeld | noSpace | queueFull | prot | notFound | badStore
  deriving DecidableEq, Repr

/-- Causes of a LAYER_STATE report, in the order of R42. -/
inductive LayerCause where
  | cue | cueRemoved | captureEnd | autoClose | discard | imported
  deriving DecidableEq, Repr

/-- Reasons of a CUE_FAILED report, in the order of R71. -/
inductive FailReason where
  | wrongState | layerHeld | noSlot | noSpace | laneNotLocked | tooShort
  deriving DecidableEq, Repr

/-- Reasons of a SPLICE_SKIPPED report, in the order of R21. -/
inductive SkipReason where
  | waitLimit | capture | paused | cycleEnd | cleared
  deriving DecidableEq, Repr

/-- Causes of a FOLLOW_STATE report, in the order of R25. -/
inductive FollowCause where
  | source | onset | coast | paused | cleared | hold | release
  deriving DecidableEq, Repr

/-- Causes of a CLOCK_SOURCE report, in the order of R146. -/
inductive ClockCause where
  | relock | set | lock | fallback
  deriving DecidableEq, Repr

/-- The event kinds with their fields (R187). -/
inductive Event where
  | ready (status : Status) (index : Int)
  | cycleSet (c b : Nat)
  | cycleCleared
  | beat (index : Nat)
  | wrap (l : LayerIx)
  | cueDone (number : Nat) (target : Target) (action : Action) (k : Nat)
  | cueFailed (number : Nat) (target : Target) (action : Action) (reason : FailReason)
  | cueSuperseded (number : Nat) (target : Target) (action : Action) (replacing : Nat)
  | layerState (l : LayerIx) (st : LayerState) (cause : LayerCause) (number : Nat)
  | starved (l : LayerIx) (stall : Nat)
  | recovered (l : LayerIx) (count : Nat)
  | captureGap (s : SlotIx) (frames : Nat)
  | undoLost (l : LayerIx)
  | laneLock (p : PortIx) (lock : Lock)
  | slip (p : PortIx) (direction : Recovery) (count : Nat)
  | clockSource (source : ClockSource) (cause : ClockCause)
  | pllLock (locked : Bool) (rate : Nat)
  | followState (st : FollowState) (cause : FollowCause)
  | splice (j : Int)
  | spliceSkipped (j : Int) (reason : SkipReason)
  | holdGranted (l : LayerIx)
  | fillDone (l : LayerIx) (kind : FillKind)
  | storeDone (offset count : Nat)
  | outputClip (sides : ClipSides)
  deriving DecidableEq, Repr

/-- A queued report (R181): the event, its LOST mark, and k and p of its frame. -/
structure Report where
  event : Event
  lost : Bool
  k : Nat
  p : Nat
  deriving DecidableEq, Repr

/-- The event queue, oldest report first, with its mask and events-lost flag (R181, R182). -/
structure EventQueue where
  list : List Report
  mask : BitVec 24
  lost : Bool
  deriving DecidableEq, Repr

/-- A piece of reply data (R180): a 4-byte field, or bytes sent as they stand. -/
inductive ReplyItem where
  | field (v : Int)
  | raw (bytes : List Byte)
  deriving DecidableEq, Repr

/-- A queued reply (R180). -/
structure Reply where
  kind : Byte
  tag : Byte
  status : Status
  overrun : Bool
  data : List ReplyItem
  deriving DecidableEq, Repr

/-- A message of the inbound queue (R178). `oversize`: its declared payload exceeded 1,020 bytes and was
not stored (R175). -/
structure Message where
  kind : Byte
  tag : Byte
  payload : List Byte
  oversize : Bool
  deriving DecidableEq, Repr

/-! ## The units of the engine -/

/-- A detector onset of the open frame (model, entry 51): the lane it was made from; the follower and the cue list as
they would be without it; and the reports the follower has queued since, as it is and as it would be. -/
structure Heard where
  lane : LaneIx
  without : Follower
  cues : List Cue
  said : List Report
  unsaid : List Report
  deriving DecidableEq, Repr

/-- Every unit but the link's message queues and the setup store. `heard` (model, entry 51): the detector onset of the
open frame, if it carries one. -/
structure Engine where
  clk : Clock
  cyc : Cycle
  fol : Follower
  layers : Vector Layer 16
  cues : CueQueue
  slots : Vector Slot 2
  mem : LoopMem
  voices : Vector Voice 16
  mix : Mixer
  ports : Vector Port 4
  lanes : Vector Lane 4
  ped : Pedals
  xfer : Option Transfer
  evq : EventQueue
  heard : Option Heard
  deriving DecidableEq, Repr

/-- The link controller (R185) without the event queue. `miso` (model, entry 5): the bytes the part sent
during the last transaction (R176, R177). -/
structure Link where
  inbound : List Message
  replies : List Reply
  unanswered : Nat
  overrun : Bool
  miso : List Byte
  deriving DecidableEq, Repr

/-- A store write in flight (R190): `done` counts the words programmed. -/
structure StoreJob where
  offset : Nat
  data : List Byte
  done : Nat
  tag : Byte
  deriving DecidableEq, Repr

/-- The setup store (R188): the bytes that are not 0, by offset in rising order (entry 8), the write in
flight, and the word whose write was interrupted and is still being programmed (R191). -/
structure Store where
  cells : List Host.Cell
  job : Option StoreJob
  interrupted : Option (Nat × List Byte)
  deriving DecidableEq, Repr

/-- The JL4810. `pending` is the queue of commands waiting (entry 1). `freeCount` (model, entry 10)
counts the free values drawn so far. -/
structure State where
  pending : List Instr
  powered : Bool
  freeCount : Nat
  eng : Engine
  link : Link
  store : Store
  deriving DecidableEq, Repr

/-- Why the block stops: it never does. The spec describes no fault that stops the part (INVENTORY,
Faults), so the type has no constructor. -/
inductive Fault
  deriving DecidableEq, Repr

/-- Why a command has no meaning. -/
inductive Refusal where
  /-- Raised by exec's arm of a row that has no meaning yet; safe, since nothing can be proved of a
  step that has no next state. No arm of this model raises it. -/
  | notModelled (mnemonic : String)
  deriving DecidableEq, Repr

/-! ## Reset values -/

/-- The cycle clock after reset (R2). -/
def Cycle.reset : Cycle :=
  { state := .unset, len := none, beats := 4, pendingBeats := none, p := 0, frac := 0, k := 0, m := 0,
    beat := 0, base := none, splice := .idle, spliceDone := false, captureThisPass := false,
    owedBoundary := false, owedTaps := 0, onset := none }

/-- The tempo follower after reset (R24). -/
def Follower.reset : Follower :=
  { source := .none, threshold := 1048576, holdOff := 4800, window := 2400, shift := 3, span := 2,
    deltaMax := 328, spliceThreshold := 480, jMax := 960, coastBeats := 8, state := .off, err := 0,
    delta := 0, holdCount := 0, armed := true, beatCount := 0, decisionMade := false,
    lastOnset := none, held := false, coastDue := false, arming := false }

/-- A layer record after reset (R41). -/
def Layer.reset : Layer :=
  { state := .empty, mult := none, cur := none, undo := none, redo := none, written := none,
    slot := none, hold := .none, gain := 4096, pan := 64, mute := false, level := 32768,
    feedback := 29491, lastChange := 0 }

/-- A capture slot after reset (R81). -/
def Slot.reset : Slot :=
  { use := .free, layer := none, lane := none, start := none, last := none, count := 0, first := none,
    staging := [], pendingWrites := [] }

/-- Loop memory after reset, its frames apart (R105, R110, R114, R118). -/
def LoopMem.resetWith (cells : List (Nat × Sample)) : LoopMem :=
  { cells := cells, free := List.range Config.pageCount, age := [], jobs := [], work := [], grant := none }

/-- A run of no frames. -/
def Run.nil : Run := { base := 0, frames := [] }

/-- A voice after reset (R126). -/
def Voice.reset : Voice :=
  { rs := .idle, pos := none, main := Run.nil, flag := false, primeStart := none, spl := Run.nil,
    store := Run.nil, env := 0, target := 0, short := 4096, dir := .steady, clearing := false, last := 0,
    stall := none, starvedCount := none, sample := 0 }

/-- A lane's live values after reset (R136). -/
def Live.reset : Live := { gain := 0, pan := 64, mute := false, env := 4096, target := 4096 }

/-- Sums of silence. -/
def FrameMix.zero : FrameMix :=
  { left := 0, right := 0, master := 0, weights := Vector.replicate 16 (0, 0), live := Vector.replicate 4 (0, 0) }

/-- The mixer after reset (R136, R139, R141, R142). -/
def Mixer.reset : Mixer :=
  { live := Vector.replicate 4 Live.reset, master := 4096, fade := 480, cross := 128,
    clipReported := false, window := 0, computed := none, sending := none,
    sums := FrameMix.zero, clipping := none }

/-- The clock controller after reset: a start-up relock at 48,000 frames per second (R143, R193). -/
def Clock.reset : Clock :=
  { rate := 48000, selected := .internal, active := .internal, pllLocked := false, startRelock := true,
    starting := true, frameOpen := false, p0Frames := [] }

/-- An input port after reset (R147). -/
def Port.reset : Port :=
  { enabled := false, lsbFirst := false, held := false, lock := .disabled, good := 0, bad := 0, buf := [],
    fill := 6, filling := false, recovery := .none, slip := 0, last := (0, 0), markerSeen := false,
    frameLsb := false, slipEnds := false }

/-- Lane Ln after reset: source Pn (R156). -/
def Lane.reset (n : LaneIx) : Lane :=
  { source := some n, channel := .left, invert := false, trim := 4096, peak := 0, x := 0, formed := none,
    peakBefore := 0, taken := [] }

/-- The pedal sampler and map after reset; the pins are outside the part and keep their levels
(R159, R161). -/
def Pedals.resetWith (pins : Vector (BitVec 10) 4) : Pedals :=
  { count := 0, held := false, due := false, pins := pins,
    chan := Vector.replicate 4 { raw := 0, smooth := 0, seed := true },
    map := Vector.replicate 8 none }

/-- The event queue after reset: every kind enabled but BEAT and WRAP (R182). -/
def EventQueue.reset : EventQueue := { list := [], mask := 0xFFFFE7, lost := false }

/-- The engine after reset, given what no reset changes: the frames of loop memory (R104) and the levels
of the pedal pins. -/
def Engine.resetWith (cells : List (Nat × Sample)) (pins : Vector (BitVec 10) 4) : Engine :=
  { clk := Clock.reset, cyc := Cycle.reset, fol := Follower.reset,
    layers := Vector.replicate 16 Layer.reset, cues := { list := [], nextNumber := 1 },
    slots := Vector.replicate 2 Slot.reset, mem := LoopMem.resetWith cells,
    voices := Vector.replicate 16 Voice.reset, mix := Mixer.reset,
    ports := Vector.replicate 4 Port.reset,
    lanes := #v[Lane.reset 0, Lane.reset 1, Lane.reset 2, Lane.reset 3],
    ped := Pedals.resetWith pins, xfer := none, evq := EventQueue.reset, heard := none }

/-- The link after power-on (R185). -/
def Link.reset : Link := { inbound := [], replies := [], unanswered := 0, overrun := false, miso := [] }

/-- One factory entry (R188): key, length, value. -/
def factoryEntry (k0 k1 : Byte) (value : List Byte) : List Byte :=
  k0 :: k1 :: BitVec.ofNat 8 value.length :: value

/-- The factory list: PT, HW, SR (R188), with the values of entry 8; the end marker is a 0. -/
def factoryImage : List Byte :=
  factoryEntry 0x50 0x54 Config.partName ++ factoryEntry 0x48 0x57 Config.hardwareRevision
    ++ factoryEntry 0x53 0x52 Config.serialNumber

/-- The cells of a list of bytes from an offset on: those that are not 0. -/
def cellsFrom : Nat → List Byte → List Host.Cell
  | _, [] => []
  | a, b :: rest => if b = 0 then cellsFrom (a + 1) rest else (a, b) :: cellsFrom (a + 1) rest

/-- The store as manufactured (R188; entry 8). -/
def Store.manufactured : Store :=
  { cells := cellsFrom 0 factoryImage, job := none, interrupted := none }

/-- The machine right after power-on (R193). -/
def State.reset : State :=
  { pending := [], powered := true, freeCount := 0,
    eng := Engine.resetWith [] (Vector.replicate 4 0), link := Link.reset, store := Store.manufactured }

end Sys2Proof.Machine
end

