-- ==== Sys2Proof/Machine/Operands.lean ====
section
/-! DEFINITION. The arithmetic the spec names (R1), vectors of units, and the operand forms of the link:
little-endian fields, enumerations and their positions (R175, R180, R186). -/

namespace Sys2Proof.Machine

/-! ## Rounding and clamping (R1) -/

/-- clamp(x, lo, hi) (R1). -/
def clampInt (lo hi x : Int) : Int := if x < lo then lo else if hi < x then hi else x

/-- clamp on counts (R1). -/
def clampNat (lo hi x : Nat) : Nat := if x < lo then lo else if hi < x then hi else x

/-- A value lies outside the sample range (R138). -/
def outOfSampleRange (x : Int) : Bool := decide (x < -8388608 ∨ 8388607 < x)

/-- sat24 (R1). -/
def sat24 (x : Int) : Sample := BitVec.ofInt 24 (clampInt (-8388608) 8388607 x)

/-- round(n / d): to nearest, halves away from zero (R1). -/
def roundDiv (n : Int) (d : Nat) : Int :=
  if n < 0 then -((2 * (-n) + d) / (2 * d : Int)) else (2 * n + d) / (2 * d : Int)

/-- floor(n / d) for positive d (R1). -/
def floorDiv (n : Int) (d : Nat) : Int := n / (d : Int)

/-- n / d toward zero (R1). -/
def towardZeroDiv (n : Int) (d : Nat) : Int := Int.tdiv n d

/-- ceil(n / d) on counts (R1). -/
def ceilDiv (n d : Nat) : Nat := (n + d - 1) / d

/-- The magnitude of a sample; that of the least sample is 8,388,608 (R26, R156). -/
def magnitude (x : Sample) : Nat := x.toInt.natAbs

/-- A position modulo a length; a length of 0 (no length yet) leaves it as it is. -/
def wrapAt (len x : Nat) : Nat := if len = 0 then x else x % len

/-- How far `q` lies ahead of `r`, counting forward modulo `len` (R127). -/
def ahead (len r q : Nat) : Nat := if len = 0 then q - r else (q + len - r % len) % len

/-- A position moved back by a signed distance, modulo a length (R20, R132). -/
def backBy (len q : Nat) (j : Int) : Nat := if len = 0 then q else (((q : Int) - j) % (len : Int)).toNat

/-! ## Vectors of units -/

/-- Change one unit of a vector. -/
def upd {α : Type} {n : Nat} (v : Vector α n) (i : Fin n) (f : α → α) : Vector α n := v.set i (f v[i])

/-- Layers, and voices, in ascending order. -/
def layerIxs : List LayerIx := [0, 1, 2, 3, 4, 5, 6, 7, 8, 9, 10, 11, 12, 13, 14, 15]

/-- Lanes, ports, and pedal channels, in ascending order. -/
def quadIxs : List (Fin 4) := [0, 1, 2, 3]

/-- Slots in ascending order. -/
def slotIxs : List SlotIx := [0, 1]

/-- Map entries in ascending order. -/
def mapIxs : List MapIx := [0, 1, 2, 3, 4, 5, 6, 7]

/-- An index from a number, absent when out of range. -/
def ix? (n x : Nat) : Option (Fin n) := if h : x < n then some ⟨x, h⟩ else none

/-! ## Fields of a payload (R175: little-endian) -/

/-- The number whose bytes, least significant first, are given. -/
def leNat : List Byte → Nat
  | [] => 0
  | b :: rest => b.toNat + 256 * leNat rest

/-- The field of `size` bytes at an offset of a payload. -/
def fieldAt (payload : List Byte) (offset size : Nat) : Nat := leNat ((payload.drop offset).take size)

/-- The `n` bytes of a number, least significant first. -/
def leBytes : Nat → Nat → List Byte
  | 0, _ => []
  | n + 1, x => BitVec.ofNat 8 x :: leBytes n (x / 256)

/-- A signed quantity in 4 bytes, two's complement (R175, R180). -/
def fieldBytes (v : Int) : List Byte := leBytes 4 (BitVec.ofInt 32 v).toNat

/-- The samples of an AUDIO_WRITE payload, 3 bytes each (R171, R180). -/
def samplesOf : List Byte → List Sample
  | b0 :: b1 :: b2 :: rest => BitVec.ofNat 24 (leNat [b0, b1, b2]) :: samplesOf rest
  | _ => []

/-- Samples as bytes, 3 each (R180). -/
def sampleBytes (xs : List Sample) : List Byte := xs.flatMap fun x => leBytes 3 x.toNat

/-- A flag of a payload: 0 clear, 1 set, absent otherwise. -/
def flag? (x : Nat) : Option Bool := if x = 0 then some false else if x = 1 then some true else none

/-! ## Enumerations, by position in the list of their rule (R180, R186) -/

/-- A flag in a reply (R180). -/
def flagField (b : Bool) : ReplyItem := .field (if b then 1 else 0)

/-- A count in a reply. -/
def natField (n : Nat) : ReplyItem := .field n

/-- A count or absent, sent as -1 (R180). -/
def optField : Option Nat → ReplyItem
  | some n => .field n
  | none => .field (-1)

/-- An absent field (R180). -/
def absentField : ReplyItem := .field (-1)

def CycleState.code : CycleState → Nat
  | .unset => 0 | .baseCapture => 1 | .running => 2 | .paused => 3

def Splice.code : Splice → Nat
  | .idle => 0 | .fetching _ => 1 | .crossfading _ => 2

def BeatSource.code : BeatSource → Nat
  | .none => 0 | .lane l => 1 + l.val | .tap => 5

/-- The beat source at a position of R24's list. -/
def beatSource? (x : Nat) : Option BeatSource :=
  if x = 0 then some .none else if x = 5 then some .tap else (ix? 4 (x - 1)).map .lane

def FollowState.code : FollowState → Nat
  | .off => 0 | .waiting => 1 | .tracking => 2

def OnsetKind.code : OnsetKind → Nat
  | .detector => 0 | .tap => 1

def LayerState.code : LayerState → Nat
  | .empty => 0 | .armed => 1 | .capturing => 2 | .playing => 3 | .overdubbing => 4 | .stopped => 5

def Hold.code : Hold → Nat
  | .none => 0 | .pending => 1 | .held => 2

def Action.code : Action → Nat
  | .record _ _ => 0 | .close => 1 | .overdub _ _ _ => 2 | .overdubEnd => 3 | .play => 4 | .stop => 5
  | .mute => 6 | .unmute => 7 | .undo => 8 | .redo => 9 | .clear => 10 | .stopAll => 11
  | .playAll => 12 | .pause => 13 | .resume => 14 | .clearAll => 15

def Target.code : Target → Nat
  | .layer l => l.val | .all => 255

def Quantum.code : Quantum → Nat
  | .immediate => 0 | .onset => 1 | .beat => 2 | .cycle => 3 | .layer => 4

/-- The quantum at a position of R61's list. -/
def quantum? (x : Nat) : Option Quantum :=
  match x with
  | 0 => some .immediate | 1 => some .onset | 2 => some .beat | 3 => some .cycle | 4 => some .layer
  | _ => none

def AgeKind.code : AgeKind → Nat
  | .undo => 0 | .redo => 1

def FillKind.code : FillKind → Nat
  | .finishCopy => 0 | .zeroFill => 1

/-- The requester's number within its class (entry 21). -/
def Requester.code : Requester → Nat
  | .slot s => s.val | .voice v => v.val | .splice v => v.val | .transfer => 0 | .filler => 0

def ReadState.code : ReadState → Nat
  | .idle => 0 | .priming => 1 | .reading => 2 | .starved => 3

def ClockSource.code : ClockSource → Nat
  | .internal => 0 | .port0 => 1

/-- The clock source at a position of R143's list. -/
def clockSource? (x : Nat) : Option ClockSource :=
  match x with
  | 0 => some .internal | 1 => some .port0 | _ => none

def Lock.code : Lock → Nat
  | .disabled => 0 | .searching => 1 | .locked => 2

/-- Also the direction of a SLIP report (entry 20). -/
def Recovery.code : Recovery → Nat
  | .none => 0 | .under => 1 | .over => 2

def Channel.code : Channel → Nat
  | .left => 0 | .right => 1 | .sum => 2

/-- The channel at a position of R156's list. -/
def channel? (x : Nat) : Option Channel :=
  match x with
  | 0 => some .left | 1 => some .right | 2 => some .sum | _ => none

/-- A lane source at its position of R156's list: P0 to P3, NONE. -/
def laneSource? (x : Nat) : Option (Option PortIx) := if x = 4 then some none else (ix? 4 x).map some

/-- The position of a lane source in R156's list. -/
def laneSourceCode : Option PortIx → Nat
  | some p => p.val | none => 4

def PedalTarget.code : PedalTarget → Nat
  | .layerGain _ => 0 | .layerPan _ => 1 | .liveGain _ => 2 | .livePan _ => 3 | .masterGain => 4
  | .overdubLevel _ => 5 | .overdubFeedback _ => 6

/-- The argument of a target kind; MASTER_GAIN has none (R161; entry 25). -/
def PedalTarget.argument : PedalTarget → Option Nat
  | .layerGain l | .layerPan l | .overdubLevel l | .overdubFeedback l => some l.val
  | .liveGain l | .livePan l => some l.val
  | .masterGain => none

/-- The target of a kind and argument (R162 check 2): an unknown kind or an argument out of range gives
none; the argument byte of MASTER_GAIN is not examined (entry 25). -/
def pedalTarget? (kind arg : Nat) : Option PedalTarget :=
  match kind with
  | 0 => (ix? 16 arg).map .layerGain
  | 1 => (ix? 16 arg).map .layerPan
  | 2 => (ix? 4 arg).map .liveGain
  | 3 => (ix? 4 arg).map .livePan
  | 4 => some .masterGain
  | 5 => (ix? 16 arg).map .overdubLevel
  | 6 => (ix? 16 arg).map .overdubFeedback
  | _ => none

/-- The greatest value of a target's range; the least is 0 (R161). -/
def PedalTarget.top : PedalTarget → Nat
  | .layerGain _ | .liveGain _ | .masterGain => 8191
  | .layerPan _ | .livePan _ => 128
  | .overdubLevel _ | .overdubFeedback _ => 32768

/-- Status codes (R180). -/
def Status.code : Status → Nat
  | .ok => 0 | .clamped => 1 | .pending => 2 | .badLength => 3 | .unknownKind => 4 | .outOfRange => 5
  | .wrongState => 6 | .conflict => 7 | .busy => 8 | .layerHeld => 9 | .notHeld => 10 | .noSpace => 11
  | .queueFull => 13 | .prot => 14 | .notFound => 15 | .badStore => 16

/-- CLAMPED when clamping changed a value, OK otherwise (R12, R36, R140 and others). -/
def clampStatus (changed : Bool) : Status := if changed then .clamped else .ok

/-- The legal multiples (R43). -/
def legalMultiple (n : Nat) : Bool := decide (n = 1 ∨ n = 2 ∨ n = 3 ∨ n = 4 ∨ n = 6 ∨ n = 8)

/-- The name of the lane an action records, if it records one (R61). -/
def Action.lane? : Action → Option LaneIx
  | .record _ lane => some lane
  | .overdub lane _ _ => some lane
  | _ => none

/-- Writing cues: RECORD, OVERDUB, UNDO, REDO and CLEAR (R64, R168). -/
def Action.writing : Action → Bool
  | .record _ _ | .overdub _ _ _ | .undo | .redo | .clear => true
  | _ => false

/-- Actions whose target is ALL (R63 check 3). -/
def Action.onAll : Action → Bool
  | .stopAll | .playAll | .pause | .resume | .clearAll => true
  | _ => false

end Sys2Proof.Machine
end

