-- ==== Sys2Proof/Machine/Flags.lean ====
section
/-! DEFINITION. The flags of the link and the event queue: queueing a report with its LOST mark (R181),
the event mask (R182), queueing a reply with its overrun mark (R178, R180), the link status byte (R176),
ATTN (R183), and the bytes of the messages the part sends (R180, R181, R187). -/

namespace Sys2Proof.Machine

/-! ## Event codes and fields (R187) -/

def LayerCause.code : LayerCause → Nat
  | .cue => 0 | .cueRemoved => 1 | .captureEnd => 2 | .autoClose => 3 | .discard => 4 | .imported => 5

def FailReason.code : FailReason → Nat
  | .wrongState => 0 | .layerHeld => 1 | .noSlot => 2 | .noSpace => 3 | .laneNotLocked => 4 | .tooShort => 5

def SkipReason.code : SkipReason → Nat
  | .waitLimit => 0 | .capture => 1 | .paused => 2 | .cycleEnd => 3 | .cleared => 4

def FollowCause.code : FollowCause → Nat
  | .source => 0 | .onset => 1 | .coast => 2 | .paused => 3 | .cleared => 4 | .hold => 5 | .release => 6

def ClockCause.code : ClockCause → Nat
  | .relock => 0 | .set => 1 | .lock => 2 | .fallback => 3

def ClipSides.code : ClipSides → Nat
  | .left => 0 | .right => 1 | .both => 2

/-- The event codes 1 to 24 (R187). -/
def Event.code : Event → Nat
  | .ready _ _ => 1 | .cycleSet _ _ => 2 | .cycleCleared => 3 | .beat _ => 4 | .wrap _ => 5
  | .cueDone _ _ _ _ => 6 | .cueFailed _ _ _ _ => 7 | .cueSuperseded _ _ _ _ => 8
  | .layerState _ _ _ _ => 9 | .starved _ _ => 10 | .recovered _ _ => 11 | .captureGap _ _ => 12
  | .undoLost _ => 13 | .laneLock _ _ => 14 | .slip _ _ _ => 15 | .clockSource _ _ => 16
  | .pllLock _ _ => 17 | .followState _ _ => 18 | .splice _ => 19 | .spliceSkipped _ _ => 20
  | .holdGranted _ => 21 | .fillDone _ _ => 22 | .storeDone _ _ => 23 | .outputClip _ => 24

/-- The fields of an event in the order of R187; a status sent as a field is its code of R180 (entry 61). -/
def Event.fields : Event → List Int
  | .ready st i => [st.code, i]
  | .cycleSet c b => [c, b]
  | .cycleCleared => []
  | .beat i => [i]
  | .wrap l => [l.val]
  | .cueDone n t a k => [n, t.code, a.code, k]
  | .cueFailed n t a r => [n, t.code, a.code, r.code]
  | .cueSuperseded n t a r => [n, t.code, a.code, r]
  | .layerState l st c n => [l.val, st.code, c.code, n]
  | .starved l p => [l.val, p]
  | .recovered l c => [l.val, c]
  | .captureGap s n => [s.val, n]
  | .undoLost l => [l.val]
  | .laneLock p k => [p.val, k.code]
  | .slip p d n => [p.val, d.code, n]
  | .clockSource s c => [s.code, c.code]
  | .pllLock b r => [if b then 1 else 0, r]
  | .followState st c => [st.code, c.code]
  | .splice j => [j]
  | .spliceSkipped j r => [j, r.code]
  | .holdGranted l => [l.val]
  | .fillDone l k => [l.val, k.code]
  | .storeDone o n => [o, n]
  | .outputClip s => [s.code]

/-! ## Queueing a report (R181, R182) -/

/-- The mask enables the event: bit code - 1 (R182). -/
def EventQueue.enables (q : EventQueue) (ev : Event) : Bool := q.mask.getLsbD (ev.code - 1)

/-- Queue a report: nothing when its kind is disabled, the events-lost flag when the queue is full, and
otherwise a report that carries and clears the flag (R181). -/
def queueReport (ev : Event) (k p : Nat) (q : EventQueue) : EventQueue :=
  if q.enables ev then
    if q.list.length < Config.maxReports then
      { q with list := q.list ++ [{ event := ev, lost := q.lost, k := k, p := p }], lost := false }
    else { q with lost := true }
  else q

/-- A block reports an event on the present frame, with its k and p (R181). -/
def post (ev : Event) (e : Engine) : Engine := { e with evq := queueReport ev e.cyc.k e.cyc.p e.evq }

/-! ## Queueing a reply (R178, R180) -/

/-- The reply kind: the command's kind + 128, or 255 for an unknown kind (R179, R180). -/
def replyKind (kind : Byte) : Byte := if kind.toNat < 32 then kind + 128 else 255

/-- Queue the reply to a command; it carries and clears the overrun flag (R178). -/
def queueReply (kind tag : Byte) (st : Status) (data : List ReplyItem) (lk : Link) : Link :=
  { lk with
    replies := lk.replies ++
      [{ kind := replyKind kind, tag := tag, status := st, overrun := lk.overrun, data := data }],
    overrun := false }

/-! ## Status byte and ATTN (R176, R183) -/

/-- The link status byte (R176). -/
def linkStatusByte (lk : Link) (q : EventQueue) : Byte :=
  (if lk.replies = [] then 0 else 1) + (if q.list = [] then 0 else 2) + (if lk.overrun then 4 else 0)
    + (if q.lost then 8 else 0)

/-- ATTN is low while a reply or a report waits (R183). -/
def State.attnLow (s : State) : Bool := !s.link.replies.isEmpty || !s.eng.evq.list.isEmpty

/-! ## Bytes of outbound messages (R180, R181) -/

/-- The bytes of a piece of reply data (R180). -/
def ReplyItem.bytes : ReplyItem → List Byte
  | .field v => fieldBytes v
  | .raw b => b

/-- The payload of a reply: the status byte, bits 0 to 4 the code and bit 7 the overrun mark, then the
data (R180). -/
def Reply.payload (r : Reply) : List Byte :=
  (BitVec.ofNat 8 (r.status.code + if r.overrun then 128 else 0)) :: r.data.flatMap ReplyItem.bytes

/-- A message: its header and its payload (R175). -/
def messageBytes (kind tag : Byte) (payload : List Byte) : List Byte :=
  kind :: tag :: leBytes 2 payload.length ++ payload

/-- A reply as sent (R180). -/
def Reply.bytes (r : Reply) : List Byte := messageBytes r.kind r.tag r.payload

/-- An event report as sent: kind 127, tag 0 (R181). -/
def Report.bytes (r : Report) : List Byte :=
  messageBytes 127 0
    (BitVec.ofNat 8 r.event.code :: (if r.lost then 1 else 0) :: leBytes 4 r.k ++ leBytes 4 r.p
      ++ r.event.fields.flatMap fieldBytes)

/-- The empty message (R177). -/
def emptyMessage : List Byte := messageBytes 0 0 []

end Sys2Proof.Machine
end

