-- ==== Sys2Proof/Machine/Ops.lean ====
section
/-! DEFINITION. Shared operations: the two memories in canonical form, the changes of one unit of the
engine, lengths and positions of layers (R16, R43), reads and writes of a chain through the capture
staging (R103), freeing a chain (R105, R107), and the changes of state that report themselves (R42). -/

namespace Sys2Proof.Machine

/-! ## Cells: a memory as the addresses that do not hold 0, in rising order (entries 7 and 8) -/

/-- What an address reads as; an unlisted one reads as 0. -/
def cellRead {w : Nat} : List (Nat × BitVec w) → Nat → BitVec w
  | [], _ => 0
  | (b, x) :: rest, a => if b = a then x else cellRead rest a

/-- Write one address, keeping the canonical form. -/
def cellWrite {w : Nat} : List (Nat × BitVec w) → Nat → BitVec w → List (Nat × BitVec w)
  | [], a, x => if x = 0 then [] else [(a, x)]
  | (b, y) :: rest, a, x =>
    if a < b then (if x = 0 then (b, y) :: rest else (a, x) :: (b, y) :: rest)
    else if a = b then (if x = 0 then rest else (a, x) :: rest)
    else (b, y) :: cellWrite rest a x

/-- Write consecutive addresses. -/
def cellWrites {w : Nat} (cells : List (Nat × BitVec w)) : Nat → List (BitVec w) → List (Nat × BitVec w)
  | _, [] => cells
  | a, x :: rest => cellWrites (cellWrite cells a x) (a + 1) rest

/-- The canonical form: addresses strictly rising, no entry 0. -/
def cellsWf {w : Nat} : List (Nat × BitVec w) → Bool
  | [] => true
  | (a, x) :: rest =>
    x != 0 && (match rest with | [] => true | (b, _) :: _ => decide (a < b)) && cellsWf rest

/-! ## Answers of commands (R180) -/

/-- What a command answers: its status and the data of its reply. -/
structure Answer where
  status : Status
  data : List ReplyItem
  deriving DecidableEq, Repr

/-- A command that is refused changes nothing and carries no data (R180). -/
def refuse (st : Status) (e : Engine) : Engine × Answer := (e, { status := st, data := [] })

/-! ## Changing one unit -/

/-- Change a layer record. -/
def modLayer (l : LayerIx) (f : Layer → Layer) (e : Engine) : Engine :=
  { e with layers := upd e.layers l f }

/-- Change a voice. -/
def modVoice (v : LayerIx) (f : Voice → Voice) (e : Engine) : Engine :=
  { e with voices := upd e.voices v f }

/-- Change a capture slot. -/
def modSlot (s : SlotIx) (f : Slot → Slot) (e : Engine) : Engine := { e with slots := upd e.slots s f }

/-- Change a port. -/
def modPort (p : PortIx) (f : Port → Port) (e : Engine) : Engine := { e with ports := upd e.ports p f }

/-- Change a lane. -/
def modLane (l : LaneIx) (f : Lane → Lane) (e : Engine) : Engine := { e with lanes := upd e.lanes l f }

/-- Change a lane's live values. -/
def modLive (l : LaneIx) (f : Live → Live) (e : Engine) : Engine :=
  { e with mix := { e.mix with live := upd e.mix.live l f } }

/-- Run an operation on every layer in ascending order. -/
def eachLayer (f : LayerIx → Engine → Engine) (e : Engine) : Engine := layerIxs.foldl (fun e l => f l e) e

/-- Run an operation on every port, or lane, in ascending order. -/
def eachQuad (f : Fin 4 → Engine → Engine) (e : Engine) : Engine := quadIxs.foldl (fun e l => f l e) e

/-- Run an operation on both slots in ascending order. -/
def eachSlot (f : SlotIx → Engine → Engine) (e : Engine) : Engine := slotIxs.foldl (fun e l => f l e) e

/-! ## Cycle length, beats, layer lengths and positions -/

/-- C, or 0 while it is absent (R2). -/
def Cycle.c (c : Cycle) : Nat := c.len.getD 0

/-- The beat length floor(C/B), 0 while C is absent (R11). -/
def Cycle.beatLength (c : Cycle) : Nat := c.c / c.beats

/-- A layer's length n x C, 0 while it has no multiple (R16, R43). -/
def layerLen (e : Engine) (l : LayerIx) : Nat := e.layers[l].mult.getD 0 * e.cyc.c

/-- A layer's integer position (m mod n) x C + p, while it holds a multiple (R16). -/
def layerPos (e : Engine) (l : LayerIx) : Option Nat :=
  e.layers[l].mult.map fun n => (e.cyc.m % n) * e.cyc.c + e.cyc.p

/-- The pages of a chain of length L (R43, R104). -/
def pagesFor (len : Nat) : Nat := ceilDiv len Config.pageFrames

/-- No layer holds anything: every layer is EMPTY (R10). -/
def allEmpty (e : Engine) : Bool := layerIxs.all fun l => e.layers[l].state == .empty

/-- A slot is not FREE (R82). -/
def slotBusy (e : Engine) : Bool := e.slots[0].use != .free || e.slots[1].use != .free

/-! ## Chains (R104; entry 27: a chain is known by its layer and first page) -/

/-- The first page of a chain. -/
def chainKey : Option (List Nat) → Option Nat
  | some (k :: _) => some k
  | _ => none

/-- The pages of the layer's chain whose first page is `key`. -/
def chainPages (e : Engine) (l : LayerIx) (key : Nat) : List Nat :=
  let r := e.layers[l]
  if chainKey r.cur = some key then r.cur.getD []
  else if chainKey r.undo = some key then r.undo.getD []
  else if chainKey r.redo = some key then r.redo.getD []
  else []

/-- Where position f of a chain lies: page at index floor(f / 16,384), offset f mod 16,384 (R104). -/
def frameAddr (pages : List Nat) (f : Nat) : Option Nat :=
  (pages[f / Config.pageFrames]?).map fun pg => pg * Config.pageFrames + f % Config.pageFrames

/-- The value a staging entry holds for a position, if it covers it (R103). -/
def Entry.covers (len : Nat) (l : LayerIx) (key pos : Nat) (en : Entry) : Option Sample :=
  if en.layer = l ∧ en.key = key then
    match en.body with
    | .data q x => if q = pos then some x else none
    | .gap first count _ => if ahead len first pos < count then some 0 else none
  else none

/-- The staged value of a chain position, the latest entry's first (R103). -/
def stagedValue (e : Engine) (l : LayerIx) (key pos : Nat) : Option Sample :=
  (e.slots[0].staging ++ e.slots[1].staging).reverse.findSome? (Entry.covers (layerLen e l) l key pos)

/-- What any reader of a chain position receives: the staged value, else what its page holds (R103). -/
def chainRead (e : Engine) (l : LayerIx) (key pos : Nat) : Sample :=
  match stagedValue e l key pos with
  | some x => x
  | none =>
    match frameAddr (chainPages e l key) pos with
    | some a => cellRead e.mem.cells a
    | none => 0

/-- Write one frame into a page of a chain (R104). -/
def pageWrite (l : LayerIx) (key pos : Nat) (x : Sample) (e : Engine) : Engine :=
  match frameAddr (chainPages e l key) pos with
  | some a => { e with mem := { e.mem with cells := cellWrite e.mem.cells a x } }
  | none => e

/-- Replace the staged value of a position in one entry; a gap run is split around it (R103). -/
def Entry.replace (len : Nat) (l : LayerIx) (key pos : Nat) (x : Sample) (en : Entry) : List Entry :=
  if (en.covers len l key pos).isSome then
    match en.body with
    | .data q _ => [{ en with body := .data q x }]
    | .gap first count isOpen =>
      let d := ahead len first pos
      (if d = 0 then [] else [{ en with body := .gap first d false }])
        ++ [{ en with body := .data pos x }]
        ++ (if d + 1 < count then [{ en with body := .gap (wrapAt len (pos + 1)) (count - d - 1) isOpen }]
            else [])
  else [en]

/-- Another writer writes a chain position: it replaces a staged value, else the page's (R103). -/
def chainWrite (l : LayerIx) (key pos : Nat) (x : Sample) (e : Engine) : Engine :=
  if (stagedValue e l key pos).isSome then
    let len := layerLen e l
    eachSlot (fun s => modSlot s fun sl =>
      { sl with staging := sl.staging.flatMap (Entry.replace len l key pos x) }) e
  else pageWrite l key pos x e

/-- Write consecutive positions, modulo the layer's length (R120). -/
def chainWrites (l : LayerIx) (key : Nat) : Nat → List Sample → Engine → Engine
  | _, [], e => e
  | pos, x :: rest, e =>
    chainWrites l key (wrapAt (layerLen e l) (pos + 1)) rest (chainWrite l key pos x e)

/-- The consecutive positions from `pos` on, modulo `len`. -/
def positionsFrom (len : Nat) : Nat → Nat → List Nat
  | 0, _ => []
  | n + 1, pos => pos :: positionsFrom len n (wrapAt len (pos + 1))

/-- Read consecutive positions of a chain (R120). -/
def chainReads (e : Engine) (l : LayerIx) (key pos n : Nat) : List Sample :=
  (positionsFrom (layerLen e l) n pos).map (chainRead e l key)

/-! ## Freeing a chain (R102, R105, R107, R120) -/

/-- Remove the staged entries of a chain without writing them (R102). -/
def dropEntries (l : LayerIx) (key : Nat) (sl : Slot) : Slot :=
  { sl with staging := sl.staging.filter fun en => !(en.layer == l && en.key == key) }

/-- The grant in progress is cancelled when it is one of those (R120). -/
def cancelGrant (p : Grant → Bool) (e : Engine) : Engine :=
  { e with mem := { e.mem with grant := e.mem.grant.map fun g => if p g then { g with cancelled := true } else g } }

/-- The job at the head, the running one, is one of those (R114). -/
def runsJob (p : Job → Bool) (e : Engine) : Bool := (e.mem.jobs.head?.map p).getD false

/-- Jobs leave the list early: a running one is abandoned, its work buffer emptied and its grant cancelled (R117).
DESIGN CHOICE (entry 72): a ZERO_FILL that leaves so does not restart the priming of the voice it held back (R51, R130);
that voice then fetches from its present read position, with no lead. -/
def dropJobs (p : Job → Bool) (e : Engine) : Engine :=
  cancelGrant (fun g => runsJob p e && g.who == .filler)
    { e with mem := { e.mem with
        jobs := e.mem.jobs.filter fun j => !p j, work := if runsJob p e then [] else e.mem.work } }

/-- Free one chain of a layer: its pages go to the tail of the free list in chain order (R105), its staged entries
are removed (R102), a grant on it is cancelled (R120) and the job that fills it leaves the list (R117), which restarts
no priming (entry 72). -/
def freeChain (l : LayerIx) (chain : Option (List Nat)) (e : Engine) : Engine :=
  match chain with
  | some (key :: rest) =>
    let e1 := cancelGrant (fun g => g.layer == l && g.key == key)
      { e with mem := { e.mem with free := e.mem.free ++ (key :: rest) } }
    eachSlot (fun s => modSlot s (dropEntries l key)) (dropJobs (fun j => j.layer == l && j.key == some key) e1)
  | _ => e

/-- Remove a layer's undo age entry (R107). -/
def dropAge (l : LayerIx) (e : Engine) : Engine :=
  { e with mem := { e.mem with age := e.mem.age.filter fun a => a.1 != l } }

/-- Change the kind of a layer's age entry in place (R111). -/
def setAgeKind (l : LayerIx) (k : AgeKind) (e : Engine) : Engine :=
  { e with mem := { e.mem with age := e.mem.age.map fun a => if a.1 = l then (l, k) else a } }

/-! ## The pair of a frame (R138, R139) -/

/-- The master step before the clamp: round(A x m / 2^43) (R138). -/
def masterStep (a : Int) (master : Nat) : Int := roundDiv (a * master) (2 ^ 43)

/-- The sides that saturate (R138). -/
def clipSides (l r : Int) : Option ClipSides :=
  match outOfSampleRange l, outOfSampleRange r with
  | true, true => some .both
  | true, false => some .left
  | false, true => some .right
  | false, false => none

/-- The pair of a frame's sums is formed; the sides that saturate wait to be reported when the pair stands
(R138, R139; entry 13). -/
def Mixer.form (m : FrameMix) (mx : Mixer) : Mixer :=
  let l := masterStep m.left m.master
  let r := masterStep m.right m.master
  { mx with computed := some (sat24 l, sat24 r), sums := m, clipping := clipSides l r }

/-- A source of the frame's pair presents a sample that differs by `d` from the one summed, under its weights:
the pair is formed again (R137; entries 13 and 51). -/
def Mixer.shift (d : Int) (w : Nat × Nat) (mx : Mixer) : Mixer :=
  if mx.computed.isSome then
    mx.form { mx.sums with left := mx.sums.left + d * w.1, right := mx.sums.right + d * w.2 }
  else mx

/-- The saturation of the pair is reported while the clip-reported flag is clear, and sets it (R139). -/
def reportClip (e : Engine) : Engine :=
  match e.mix.clipping with
  | none => e
  | some sides =>
    let mx := { e.mix with clipping := none, clipReported := true }
    if e.mix.clipReported then { e with mix := mx } else post (.outputClip sides) { e with mix := mx }

/-! ## The follower with and without the detector onset of the open frame (R26, R156; entry 51) -/

/-- The reports that follow the first `n` of an event queue, LOST marks apart. -/
def EventQueue.since (n : Nat) (q : EventQueue) : List Report := (q.list.drop n).map fun r => { r with lost := false }

/-- An operation of the follower acts on the follower, and beside it on the follower as it would be without the detector
onset of the open frame, which a port that leaves LOCKED on that frame takes back (entry 51). -/
def onFollower (f : Engine → Engine) (e : Engine) : Engine :=
  match e.heard with
  | none => f e
  | some h =>
    let now := f e
    let alt := f { e with fol := h.without }
    let n := e.evq.list.length
    { now with heard := some { h with
        without := alt.fol, said := h.said ++ now.evq.since n, unsaid := h.unsaid ++ alt.evq.since n } }

/-! ## Changes of state that report themselves -/

/-- Change a layer's state: last change takes k, and LAYER_STATE is queued (R42). -/
def setLayerState (l : LayerIx) (st : LayerState) (cause : LayerCause) (number : Nat) (e : Engine) : Engine :=
  post (.layerState l st cause number)
    (modLayer l (fun r => { r with state := st, lastChange := e.cyc.k }) e)

/-- Change the cycle state; the clip window count returns to 0 on every change (R139). -/
def setCycleState (st : CycleState) (e : Engine) : Engine :=
  { e with
    cyc := { e.cyc with state := st },
    mix := { e.mix with window := if e.cyc.state = st then e.mix.window else 0 } }

/-- Take a follower out of TRACKING or WAITING: the state given, E, delta and the beat count 0, and
FOLLOW_STATE when the state changes (R25). -/
def setFollowState (st : FollowState) (cause : FollowCause) (e : Engine) : Engine :=
  let e1 := { e with fol := { e.fol with state := st, err := 0, delta := 0, beatCount := 0, coastDue := false } }
  if e.fol.state = st then e1 else post (.followState st cause) e1

end Sys2Proof.Machine
end

