-- ==== Sys2Proof/Machine/Voices.lean ====
section
/-! DEFINITION. The voices (R126 to R135): staging as runs of consecutive frames, reading and
interpolation, envelopes, priming, starvation and recovery, the clear fade, and what a voice does on one
frame. -/

namespace Sys2Proof.Machine

/-! ## Runs of consecutive frames -/

/-- The frame a run holds for a position. -/
def runGet (len : Nat) (r : Run) (q : Nat) : Option Sample := r.frames[ahead len r.base q]?

/-- The position that follows the last frame held (R121). -/
def runNext (len : Nat) (r : Run) : Nat := wrapAt len (r.base + r.frames.length)

/-- The read position moves from `old` to `new`: frames behind it are discarded (R127). -/
def runAdvance (len old new : Nat) (r : Run) : Run :=
  let d := ahead len old new
  let o := ahead len old r.base
  if d ≤ o then r
  else if r.frames.length ≤ d - o then { base := new, frames := [] }
  else { base := wrapAt len (r.base + (d - o)), frames := r.frames.drop (d - o) }

/-- Frames fetched from `first` on join a run where they continue it; the rest is discarded (R129,
entry 34). -/
def runDeliver (len first : Nat) (xs : List Sample) (r : Run) : Run :=
  let o := ahead len first (runNext len r)
  { r with frames := r.frames ++ xs.drop o }

/-! ## Levels and the request flag (R121, R132) -/

/-- The staging level: the frames held from the read position onward; during a crossfade those of the
new stream in the splice buffer and the main staging together (R121, R132). -/
def voiceLevel (len : Nat) (v : Voice) (crossing : Bool) : Nat :=
  if crossing && !v.spl.frames.isEmpty then
    max v.spl.frames.length
      (if v.main.frames.isEmpty then 0 else ahead len (v.pos.getD 0) v.main.base + v.main.frames.length)
  else v.main.frames.length

/-- The request flag: set when the level is below 128, cleared at 448 (R121). An idle or clearing voice
asks for nothing (R126, R135). -/
def updFlag (len : Nat) (crossing : Bool) (v : Voice) : Voice :=
  let lv := voiceLevel len v crossing
  { v with flag :=
      if v.rs = .idle ∨ v.clearing then false
      else if lv < 128 then true else if 448 ≤ lv then false else v.flag }

/-- A voice goes on with its new stream alone: what the splice buffer still holds of it joins the main staging, and
both splice buffers are emptied (R8, R132; entry 15). -/
def mergeStreams (len : Nat) (v : Voice) : Voice :=
  let n := v.spl.frames.length
  let o := ahead len v.spl.base v.main.base
  let joined : Run :=
    if v.spl.frames.isEmpty then v.main
    else { base := v.spl.base,
           frames := (v.spl.frames ++ (if o ≤ n then v.main.frames.drop (n - o) else [])).take 512 }
  { v with main := joined, spl := Run.nil, store := Run.nil }

/-- The crossfade ends: the splice buffer and the crossfade store are emptied (R132). -/
def Voice.unspliced (v : Voice) : Voice := { v with spl := Run.nil, store := Run.nil }

/-- A voice leaves a crossfade: with its new stream alone while the count is below X (R8, R23), from the frame on
which it has reached X with its main staging alone (R23, R132). -/
def Voice.leaves (len : Nat) (r : SpliceRec) (v : Voice) : Voice := if r.count < r.x then mergeStreams len v else v.unspliced

/-! ## Samples (R128, R132) -/

/-- s_i + floor((s_{i+1} - s_i) x f / 65,536) (R128). -/
def interpolate (a b : Sample) (f : Nat) : Int := a.toInt + floorDiv ((b.toInt - a.toInt) * f) 65536

/-- A value under a weight in 1/4,096, by floor (R128, R133). -/
def weighted (s : Int) (w : Nat) : Sample := sat24 (floorDiv (s * w) 4096)

/-- The part a voice takes in the splice on a frame. -/
inductive Stream where
  | alone
  | fetch (j : Int)
  | cross (j : Int) (x count : Nat)
  deriving DecidableEq, Repr

/-- The new stream's frame: from the splice buffer while it holds it, else the main staging (R132). -/
def newFrame (len : Nat) (v : Voice) (q : Nat) : Option Sample := (runGet len v.spl q).or (runGet len v.main q)

/-- The old stream's frame: beyond the store its last frame is used (R132). -/
def oldFrame (len : Nat) (v : Voice) (q : Nat) : Sample :=
  (runGet len v.store q).getD ((v.store.frames.getLast?).getD 0)

/-- The voice sample at position i and fraction f before the short weight, if the frames it needs are held
(R128, R132). A voice whose crossfade store has been emptied reads the new stream alone (R132; entry 48). -/
def streamSample (len i f : Nat) (st : Stream) (v : Voice) : Option Int :=
  match st with
  | .cross j x count =>
    match newFrame len v i, newFrame len v (wrapAt len (i + 1)) with
    | some a, some b =>
      if v.store.frames.isEmpty then some (interpolate a b f) else
      let wNew := 4096 * count / x
      let wOld := 4096 - wNew
      let o := backBy len i (-j)
      let old := interpolate (oldFrame len v o) (oldFrame len v (wrapAt len (o + 1))) f
      some (floorDiv (old * wOld + interpolate a b f * wNew) 4096)
    | _, _ => none
  | _ =>
    match runGet len v.main i, runGet len v.main (wrapAt len (i + 1)) with
    | some a, some b => some (interpolate a b f)
    | _, _ => none

/-! ## One voice on one frame -/

/-- Move an envelope one step toward its target (R131). -/
def envStep (step target env : Nat) : Nat := if env < target then min target (env + step) else max target (env - step)

/-- What R127 needs of the frame: the layer's length and position, the integer advance, whether the
cycle is RUNNING, and the fraction. -/
structure FramePos where
  len : Nat
  pos : Nat
  adv : Nat
  running : Bool
  frac : Nat
  deriving DecidableEq, Repr

/-- The voice takes up the frame's position (R127, R132, R133, R135). -/
def voiceTake (fp : FramePos) (st : Stream) (v : Voice) : Voice :=
  let old := v.pos.getD 0
  if !fp.running then v
  else if v.clearing then
    { v with pos := some (old + fp.adv), main := runAdvance 0 old (old + fp.adv) v.main }
  else if v.rs = .priming ∨ v.rs = .reading then
    let spl := match st with
      | .cross _ _ _ => runAdvance fp.len old fp.pos v.spl
      | _ => v.spl
    { v with pos := some fp.pos, main := runAdvance fp.len old fp.pos v.main, spl := spl }
  else v

/-- The short weight of the frame (R133, R134, R135): a starved voice's holds still while the cycle does
not run. -/
def voiceShort (running : Bool) (v : Voice) : Voice :=
  match v.dir with
  | .steady => v
  | .falling =>
    if v.rs = .starved ∧ !running then v else { v with short := v.short - 128 }
  | .rising =>
    if 4096 ≤ v.short + 128 then { v with short := 4096, dir := .steady }
    else { v with short := v.short + 128 }

/-- A READING voice lacks a frame it needs (R128, R133); one in its clear fade does not starve (R135). -/
def starves (fp : FramePos) (st : Stream) (v : Voice) : Bool :=
  v.rs == .reading && !v.clearing && (streamSample fp.len (v.pos.getD 0) fp.frac st v).isNone

/-- A READING voice lacks a frame: it starves, its short weight falling from the value it held (R133, R134). Of a
crossfade it keeps the new stream alone (R132); the stream of a splice that is being fetched stays (R20). Main staging
that begins after the read position is discarded, for the level is counted from the stall point (model, entry 65). -/
def voiceStarve (len : Nat) (running : Bool) (st : Stream) (v : Voice) : Voice :=
  let here := v.pos.getD 0
  let m := match st with
    | .fetch _ => v
    | .cross _ _ _ => mergeStreams len v
    | .alone => v.unspliced
  let main := if m.main.frames.isEmpty ∨ m.main.base ≠ here then { base := here, frames := [] } else m.main
  let short := if running then v.short - 128 else v.short
  { m with rs := .starved, main := main, dir := .falling, short := short, stall := some here,
           starvedCount := some 0, sample := weighted v.last.toInt short }

/-- The voice presents its sample (R128, R133, R135). -/
def voicePresent (fp : FramePos) (st : Stream) (v : Voice) : Voice :=
  match v.rs with
  | .idle | .priming => { v with sample := 0 }
  | .starved =>
    { v with
      sample := weighted v.last.toInt v.short,
      starvedCount := if fp.running then v.starvedCount.map (· + 1) else v.starvedCount }
  | .reading =>
    let here := v.pos.getD 0
    if v.clearing then
      match streamSample 0 here fp.frac .alone v with
      | some s => { v with sample := weighted s v.short, last := sat24 s }
      | none => { v with sample := weighted v.last.toInt v.short }
    else
      match streamSample fp.len here fp.frac st v with
      | some s => { v with sample := weighted s v.short, last := sat24 s }
      | none => v

/-- One voice on one frame: position, starvation or short weight and sample, envelope and request flag. -/
def voiceFrame (fp : FramePos) (st : Stream) (crossing : Bool) (step : Nat) (v : Voice) : Voice :=
  let v0 := voiceTake fp st v
  let v1 := if starves fp st v0 then voiceStarve fp.len fp.running st v0 else voicePresent fp st (voiceShort fp.running v0)
  updFlag fp.len crossing { v1 with env := envStep step v1.target v1.env }

/-! ## The splice as the voices see it (R19, R20, R23) -/

/-- The part voice `v` takes in the splice: on the frame on which the crossfade count reaches X it reads its main
staging alone (R23, R132). -/
def streamOf (sp : Splice) (v : LayerIx) : Stream :=
  match sp with
  | .idle => .alone
  | .fetching r => if v ∈ r.voices then .fetch r.j else .alone
  | .crossfading r => if v ∈ r.voices ∧ r.count < r.x then .cross r.j r.x r.count else .alone

/-- The splice is in its crossfade, the count below X (R23). -/
def Splice.crossing : Splice → Bool
  | .crossfading r => decide (r.count < r.x)
  | _ => false

/-- A voice leaves the splice: its stream is discarded while fetching (R20); of a crossfade it keeps what
`Voice.leaves` gives (R23, R132). -/
def leaveSplice (v : LayerIx) (e : Engine) : Engine :=
  match e.cyc.splice with
  | .idle => e
  | .fetching r =>
    if v ∈ r.voices then
      modVoice v (fun x => { x with spl := Run.nil })
        { e with cyc := { e.cyc with splice := .fetching { r with voices := r.voices.filter (· != v) } } }
    else e
  | .crossfading r =>
    if v ∈ r.voices then
      modVoice v (Voice.leaves (layerLen e v) r)
        { e with cyc := { e.cyc with splice := .crossfading { r with voices := r.voices.filter (· != v) } } }
    else e

/-! ## Priming, stopping and clearing -/

/-- A ZERO_FILL job for the layer is queued or running (R51, R130). -/
def zeroFilling (e : Engine) (l : LayerIx) : Bool := e.mem.jobs.any fun j => j.layer == l && j.kind == .zeroFill

/-- The voice begins priming, or restarts it, from the layer's position of the frame (R129, R130). -/
def beginPriming (l : LayerIx) (e : Engine) : Engine :=
  let i := (layerPos e l).getD 0
  let start := if e.cyc.state = .running then wrapAt (layerLen e l) (i + 256) else i
  modVoice l (fun v =>
    { v with rs := .priming, pos := some i, main := { base := start, frames := [] }, flag := true,
             primeStart := some start, spl := Run.nil, store := Run.nil, stall := none,
             starvedCount := none, sample := 0 }) e

/-- The voice of a layer that has become PLAYING: an idle one primes; one still fading keeps its staging;
one in a clear fade primes when the fade ends (R51, R135). -/
def playVoice (l : LayerIx) (e : Engine) : Engine := if e.voices[l].rs = .idle then beginPriming l e else e

/-- The staging of a voice is discarded: a refill in progress completes into what is gone (R130). -/
def discardRefill (l : LayerIx) (e : Engine) : Engine := cancelGrant (fun g => g.who == .voice l) e

/-- The voice goes idle, its staging discarded (R130, R131). -/
def idleVoice (l : LayerIx) (e : Engine) : Engine := modVoice l (fun _ => Voice.reset) (discardRefill l e)

/-- A priming voice, and one whose envelope is 0, go idle at once when their layer becomes STOPPED; one in its clear
fade ends that first (R48, R130, R131, R135). -/
def Voice.stopsAtOnce (v : Voice) : Bool := !v.clearing && (v.rs == .priming || v.env == 0)

/-- The voice of a layer that has become STOPPED leaves the splice, and goes idle if it does so at once (R20, R23,
R48). -/
def stopVoice (l : LayerIx) (e : Engine) : Engine :=
  let e1 := leaveSplice l e
  if e1.voices[l].stopsAtOnce then idleVoice l e1 else e1

/-- The voice of a layer that is emptied: a reading voice starts its clear fade, whose first fall comes on the next
frame, and any other goes idle (R56, R130, R134, R135; entry 53). -/
def clearVoice (l : LayerIx) (e : Engine) : Engine :=
  let e1 := leaveSplice l e
  modVoice l (fun v =>
    if v.rs = .reading then { v with clearing := true, dir := .falling, flag := false }
    else Voice.reset) e1

/-! ## Events of one voice -/

/-- The frames at the read position and the one after are both held (R129). -/
def framesHeld (len : Nat) (v : Voice) : Bool :=
  let i := v.pos.getD 0
  (runGet len v.main i).isSome && (runGet len v.main (wrapAt len (i + 1))).isSome

/-- PRIMING_COMPLETE is due: a priming voice holds its frames and no zero fill holds it back (R129, R130). -/
def primingDue (e : Engine) (l : LayerIx) : Bool :=
  e.voices[l].rs == .priming && framesHeld (layerLen e l) e.voices[l] && !zeroFilling e l

/-- The voice becomes READING (R129). -/
def primingDone (l : LayerIx) (e : Engine) : Engine :=
  let len := layerLen e l
  modVoice l (fun v =>
    { v with rs := .reading, primeStart := none,
             last := sat24 ((streamSample len (v.pos.getD 0) e.cyc.frac .alone v).getD 0) }) e

/-- RECOVERY is due: the level of a starved voice whose layer is played has reached 448 (R134). A voice that reached
448 while its layer was STOPPED attempts it on the frame of the PLAY (R51; model, entry 66). -/
def recoveryDue (e : Engine) (l : LayerIx) : Bool :=
  let r := e.layers[l]
  e.voices[l].rs == .starved && (r.state == .playing || r.state == .overdubbing)
    && decide (448 ≤ voiceLevel (layerLen e l) e.voices[l] false)

/-- A starved voice attempts recovery; one that recovers presents its sample on this very frame, its short weight,
which fell on the frame as STARVED, then rising (R134; entry 52). -/
def recoverVoice (l : LayerIx) (e : Engine) : Engine :=
  let len := layerLen e l
  let here := (layerPos e l).getD 0
  let v := e.voices[l]
  let v1 := { v with pos := some here, main := runAdvance len (v.stall.getD 0) here v.main }
  if framesHeld len v1 then
    let s := (streamSample len here e.cyc.frac .alone v1).getD 0
    let v2 := voiceShort true { v1 with rs := .reading, dir := .rising, stall := none, starvedCount := none }
    post (.recovered l (v.starvedCount.getD 0))
      (modVoice l (fun _ => updFlag len false { v2 with sample := weighted s v2.short, last := sat24 s }) e)
  else
    modVoice l (fun _ =>
      { v1 with main := { base := here, frames := [] }, stall := some here, flag := true }) e

/-- VOICE_IDLE is due: the layer is STOPPED and the voice's envelope is 0 (R48, R131). -/
def voiceIdleDue (e : Engine) (l : LayerIx) : Bool :=
  let v := e.voices[l]
  e.layers[l].state == .stopped && v.rs != .idle && !v.clearing && v.env == 0

/-- CLEAR_FADE_END is due: a clearing voice's short weight or envelope has reached 0 (R135). DESIGN CHOICE (entry 74): a
voice whose envelope is 0 already when the CLEAR executes has reached it too, so it goes IDLE on the frame of the CLEAR. -/
def clearFadeDue (e : Engine) (l : LayerIx) : Bool :=
  let v := e.voices[l]
  v.clearing && (v.short == 0 || v.env == 0)

/-- The clear fade ends: the voice goes idle, and primes if its layer has been made PLAYING meanwhile, also when
an overdub has begun on it since (R51, R129, R135). -/
def clearFadeDone (l : LayerIx) (e : Engine) : Engine :=
  let e1 := modVoice l (fun _ => Voice.reset) e
  if e.layers[l].state = .playing ∨ e.layers[l].state = .overdubbing then beginPriming l e1 else e1

/-! ## Targets (R53) -/

/-- The envelope target R53 gives. -/
def voiceTarget (e : Engine) (l : LayerIx) : Nat :=
  let r := e.layers[l]
  if (r.state = .playing ∨ r.state = .overdubbing) ∧ e.voices[l].rs ≠ .priming ∧ r.mute = false
      ∧ e.cyc.state = .running then 4096 else 0

/-- The targets of the frame that begins: as they stand after the events of the frame before (R131). -/
def latchTargets (e : Engine) : Engine :=
  let e1 := eachLayer (fun l e => modVoice l (fun v => { v with target := voiceTarget e l }) e) e
  { e1 with mix := { e1.mix with
      live := quadIxs.foldl (fun lv i => upd lv i fun x => { x with target := if x.mute then 0 else 4096 })
        e1.mix.live } }

/-- What one frame is to voice `l`. -/
def framePosOf (e : Engine) (adv : Nat) (l : LayerIx) : FramePos :=
  { len := layerLen e l, pos := (layerPos e l).getD 0, adv := adv,
    running := e.cyc.state == .running, frac := e.cyc.frac }

/-- Voice `l` on one frame; a voice that starves reports it (R133). -/
def runVoice (adv : Nat) (l : LayerIx) (e : Engine) : Engine :=
  let v := e.voices[l]
  let v1 := voiceFrame (framePosOf e adv l) (streamOf e.cyc.splice l) e.cyc.splice.crossing
    (ceilDiv 4096 e.mix.fade) v
  let e1 := modVoice l (fun _ => v1) e
  if v.rs = .reading ∧ v1.rs = .starved then post (.starved l (v1.stall.getD 0)) e1 else e1

end Sys2Proof.Machine
end

