-- ==== Sys2Proof/Machine/Splice.lean ====
section
/-! DEFINITION. The splice of the cycle clock: request, fetching, abandonment, jump conditions and the end
of the crossfade (R19 to R23, R132). The jump itself is in Machine/Cycle.lean, with the boundaries it
fires. -/

namespace Sys2Proof.Machine

/-- The voices whose layers are PLAYING (R19). -/
def playingVoices (e : Engine) : List LayerIx := layerIxs.filter fun l => e.layers[l].state == .playing

/-- The cycle clock takes or drops a splice request of J frames (R19). A voice in its clear fade takes part when its
layer is PLAYING (entry 64). -/
def requestSplice (j : Int) (e : Engine) : Engine :=
  if e.cyc.state = .running ∧ e.cyc.splice = .idle ∧ e.cyc.spliceDone = false
      ∧ e.cyc.captureThisPass = false ∧ slotBusy e = false then
    let vs := playingVoices e
    let r : SpliceRec := { j := j, x := e.mix.cross, voices := vs, count := 0 }
    let e1 := { e with cyc := { e.cyc with splice := .fetching r } }
    vs.foldl (fun e v => modVoice v (fun x =>
      { x with spl := { base := backBy (layerLen e v) ((layerPos e v).getD 0) j, frames := [] } }) e) e1
  else e

/-- Every splice stream is discarded. -/
def discardStreams (vs : List LayerIx) (e : Engine) : Engine :=
  vs.foldl (fun e v => modVoice v (fun x => { x with spl := Run.nil }) e) e

/-- A splice in FETCHING is abandoned: its streams are discarded and SPLICE_SKIPPED is queued (R21). -/
def abandonSplice (reason : SkipReason) (e : Engine) : Engine :=
  match e.cyc.splice with
  | .fetching r =>
    post (.spliceSkipped r.j reason)
      (discardStreams r.voices { e with cyc := { e.cyc with splice := .idle } })
  | _ => e

/-- What a slot taken on a frame does to the splice: a request taken on that same frame is dropped with
no event, an older one is abandoned with reason CAPTURE (R19, R21, R82; entry 29). -/
def captureStops (e : Engine) : Engine :=
  match e.cyc.splice with
  | .fetching r =>
    if r.count = 0 then discardStreams r.voices { e with cyc := { e.cyc with splice := .idle } }
    else abandonSplice .capture e
  | _ => e

/-- A splice in CROSSFADING ends: the state becomes NONE and each participating voice leaves it. When the count has
reached X that is its end, and the splice buffers and crossfade stores are emptied (R23, R132); before that it ends
at once, and each voice goes on with its new stream alone (R8, R10; entry 15). -/
def endCrossfade (e : Engine) : Engine :=
  match e.cyc.splice with
  | .crossfading r =>
    r.voices.foldl (fun e v => modVoice v (Voice.leaves (layerLen e v) r) e)
      { e with cyc := { e.cyc with splice := .idle } }
  | _ => e

/-- CROSSFADE_END is due: the crossfade count has reached X (R23). -/
def crossfadeEndDue (e : Engine) : Bool :=
  match e.cyc.splice with
  | .crossfading r => decide (r.x ≤ r.count)
  | _ => false

/-! ## Fetching (R20) -/

/-- The integer advance of the next frame, with the trim now held (R13). -/
def nextAdvance (e : Engine) : Nat := ((e.cyc.frac + (65536 + e.fol.delta)).toNat) / 65536

/-- Where the new stream of a voice begins if the jump is made on the next frame (R20, R22). -/
def streamStart (e : Engine) (l : LayerIx) (j : Int) : Nat :=
  backBy (layerLen e l) ((layerPos e l).getD 0 + nextAdvance e) j

/-- A splice stream from a start on: frames behind it are discarded (R20). A stream that begins after the start, which no
run comes to, would be fetched anew (entry 49). -/
def alignStream (len start : Nat) (r : Run) : Run :=
  if ahead len r.base start ≤ 2 then runAdvance len r.base start r else { base := start, frames := [] }

/-- The splice stream of a voice, read from where the new stream will begin if a jump of J is made on the next frame, by
the trim that stands now (R20; entry 49). -/
def streamFrom (e : Engine) (j : Int) (l : LayerIx) : Run :=
  alignStream (layerLen e l) (streamStart e l j) e.voices[l].spl

/-- The splice stream of a voice as the arbiter finds it: while FETCHING from its start on (R20, R122; entry 49). -/
def heldStream (e : Engine) (l : LayerIx) : Run :=
  match e.cyc.splice with
  | .fetching r => streamFrom e r.j l
  | _ => e.voices[l].spl

/-- As a frame ends, every splice stream drops the frames that lie behind that start (R20; entry 49). -/
def alignStreams (e : Engine) : Engine :=
  match e.cyc.splice with
  | .fetching r => r.voices.foldl (fun e v => modVoice v (fun x => { x with spl := streamFrom e r.j v }) e) e
  | _ => e

/-- The jump conditions: each participating voice's stream and main staging hold at least X frames
(R22). -/
def jumpConditions (e : Engine) (r : SpliceRec) : Bool :=
  r.voices.all fun v =>
    decide (r.x ≤ (streamFrom e r.j v).frames.length) && decide (r.x ≤ e.voices[v].main.frames.length)

/-- SPLICE_WAIT_LIMIT is due: the wait count has reached 2,400 and the jump conditions do not hold
(R21). -/
def waitLimitDue (e : Engine) : Bool :=
  match e.cyc.splice with
  | .fetching r => decide (2400 ≤ r.count) && !jumpConditions e r
  | _ => false

/-- As a frame ends, the jump conditions hold: the next frame makes the jump (R22). R21 leaves open which is taken
first when an event that abandons the splice arrives on the frame on which they come to hold; the model takes the
conditions last, as the frame ends, so that the event always wins (entry 63). -/
def readyToJump (e : Engine) : Bool :=
  match e.cyc.splice with
  | .fetching r => jumpConditions e r
  | _ => false

/-- When a frame begins: the wait or crossfade count rises (R20, R23). -/
def countSplice (sp : Splice) : Splice :=
  match sp with
  | .idle => .idle
  | .fetching r => .fetching { r with count := r.count + 1 }
  | .crossfading r => .crossfading { r with count := r.count + 1 }

/-! ## The jump -/

/-- What the jump does to voice `v`, once p has moved (R22, R130, R132, R134): a participating voice's old stream
is its main staging from where the frame's advance took its position before the jump. Any other READING voice
takes up the new position with the frame's reading (R127); one in its clear fade reads on (R135). A refill in progress
completes into staging that has been discarded (R130; entry 67). -/
def jumpVoice (r : SpliceRec) (v : LayerIx) (e : Engine) : Engine :=
  let len := layerLen e v
  let here := (layerPos e v).getD 0
  match e.voices[v].rs with
  | .priming => beginPriming v (discardRefill v e)
  | .starved =>
    modVoice v (fun x =>
      { x with pos := some here, stall := some here, main := { base := here, frames := [] },
               spl := Run.nil, flag := true }) (discardRefill v e)
  | .reading =>
    if v ∈ r.voices ∧ e.voices[v].clearing = false then
      let before := backBy len here (-r.j)
      modVoice v (fun x =>
        let old := runAdvance len (x.pos.getD 0) before x.main
        updFlag len true
          { x with pos := some here,
                   store := { base := old.base, frames := old.frames.take r.x },
                   main := { base := wrapAt len (here + r.x), frames := [] } }) (discardRefill v e)
    else e
  | .idle => e

end Sys2Proof.Machine
end

