-- ==== Sys2Proof/Machine/Memory.lean ====
section
/-! DEFINITION. Loop memory: allocation and reclaim (R106, R108), the page filler (R114 to R117), the holds
that wait for it (R168), the requests and classes of the arbiter (R119, R121 to R123), and the completion
of a grant (R118, R120). -/

namespace Sys2Proof.Machine

/-! ## Reclaim and allocation -/

/-- Reclaim one undo or redo chain: it is freed, its age entry and field go, UNDO_LOST is queued (R108,
R113). -/
def reclaimOne (l : LayerIx) (k : AgeKind) (e : Engine) : Engine :=
  let chain := match k with | .undo => e.layers[l].undo | .redo => e.layers[l].redo
  let e1 := dropAge l (freeChain l chain e)
  let e2 := modLayer l (fun r => match k with
    | .undo => { r with undo := none }
    | .redo => { r with redo := none }) e1
  post (.undoLost l) e2

/-- The walk of the undo age list (R108): it stops when the free pages, with the `extra` ones the asker
releases, reach `need`; it skips a protected undo chain and the asking layer's own entry. -/
def reclaimWalk (need extra : Nat) (own : Option LayerIx) : List (LayerIx × AgeKind) → Engine → Engine
  | [], e => e
  | (l, k) :: rest, e =>
    if need ≤ e.mem.free.length + extra then e
    else if (k = .undo ∧ (e.layers[l].written).isSome) ∨ own = some l then
      reclaimWalk need extra own rest e
    else reclaimWalk need extra own rest (reclaimOne l k e)

/-- Take the first `n` pages of the free list as a chain (R105). -/
def takePages (n : Nat) (e : Engine) : List Nat × Engine :=
  (e.mem.free.take n, { e with mem := { e.mem with free := e.mem.free.drop n } })

/-- Ask for a whole chain of `n` pages: the pages, or none for NO_SPACE; what was reclaimed stays freed
(R106, R108). -/
def allocChain (n : Nat) (e : Engine) : Option (List Nat) × Engine :=
  let e1 := reclaimWalk n 0 none e.mem.age e
  if n ≤ e1.mem.free.length then
    let t := takePages n e1
    (some t.1, t.2)
  else (none, e1)

/-! ## Page filler jobs (R114, R117) -/

/-- A layer has a job queued or running. -/
def hasJob (e : Engine) (l : LayerIx) : Bool := e.mem.jobs.any fun j => j.layer == l

/-- Queue a job for the layer's current chain; a layer that has a job is given no second (R114; entry 54). -/
def addJob (l : LayerIx) (k : FillKind) (e : Engine) : Engine :=
  let j : Job := { layer := l, key := chainKey e.layers[l].cur, kind := k, done := 0 }
  { e with mem := { e.mem with jobs := if hasJob e l then e.mem.jobs else e.mem.jobs ++ [j] } }

/-- A FINISH_COPY job of the layer is queued or running, or waits until the layer's ZERO_FILL is done (R55, R111,
R114; entry 54). -/
def finishing (e : Engine) (l : LayerIx) : Bool :=
  (e.mem.jobs.any fun j => j.layer == l && j.kind == .finishCopy) || (e.layers[l].written.isSome && hasJob e l)

/-- The layer's job leaves the list early (R117). -/
def dropJob (l : LayerIx) (e : Engine) : Engine := dropJobs (fun j => j.layer == l) e

/-! ## Holds (R168) -/

/-- A writing cue for the layer, or a CLEAR_ALL, is pending (R168). -/
def writingPending (e : Engine) (l : LayerIx) : Bool :=
  e.cues.list.any fun c => (c.target == .layer l && c.action.writing) || c.action == .clearAll

/-- The grant conditions of a hold (R168). -/
def holdConditions (e : Engine) (l : LayerIx) : Bool :=
  let r := e.layers[l]
  (r.state == .playing || r.state == .stopped) && !writingPending e l && r.written.isNone
    && !zeroFilling e l

/-- A PENDING hold whose conditions hold becomes HELD (R168). -/
def grantHold (l : LayerIx) (e : Engine) : Engine :=
  if e.layers[l].hold = .pending ∧ holdConditions e l then
    post (.holdGranted l) (modLayer l (fun r => { r with hold := .held }) e)
  else e

/-- Every PENDING hold that can be granted is granted, in ascending layer order where one event meets the last
condition of several (R168; entry 55). -/
def grantHolds (e : Engine) : Engine := eachLayer grantHold e

/-! ## Where a layer's positions are read (R95) -/

/-- The chain a position of the layer is read from, by its first page; none where the read gives zeros
(R95). -/
def readSource (e : Engine) (l : LayerIx) (pos : Nat) : Option Nat :=
  let r := e.layers[l]
  match r.written with
  | none => chainKey r.cur
  | some (a, w) => if ahead (layerLen e l) a pos < w then chainKey r.cur else chainKey r.undo

/-- How many of the next `n` positions share the source of the first (R120). -/
def spanLen (e : Engine) (l : LayerIx) (src : Option Nat) : Nat → Nat → Nat
  | 0, _ => 0
  | n + 1, pos =>
    if readSource e l pos = src then 1 + spanLen e l src n (wrapAt (layerLen e l) (pos + 1)) else 0

/-! ## Capture staging as the arbiter sees it (R100, R102) -/

/-- The number of positions an entry holds. -/
def Entry.size (en : Entry) : Nat :=
  match en.body with | .data _ _ => 1 | .gap _ n _ => n

/-- The entry is a data entry. -/
def Entry.isData (en : Entry) : Bool :=
  match en.body with | .data _ _ => true | .gap _ _ _ => false

/-- The staging level: data entries and the counts of gap runs (R100). -/
def stagingLevel (sl : Slot) : Nat := (sl.staging.map Entry.size).sum

/-- The number of data entries (R100). -/
def dataCount (sl : Slot) : Nat := (sl.staging.filter Entry.isData).length

/-- The positions of an entry with their values, at most 128. -/
def Entry.positions (len : Nat) (en : Entry) : List (Nat × Sample) :=
  match en.body with
  | .data q x => [(q, x)]
  | .gap first n _ => (positionsFrom len (min n 128) first).map fun q => (q, 0)

/-- The leading positions that run consecutively, modulo the length. -/
def consecutive (len : Nat) : Option Nat → List (Nat × Sample) → List (Nat × Sample)
  | _, [] => []
  | none, (q, x) :: rest => (q, x) :: consecutive len (some (wrapAt len (q + 1))) rest
  | some want, (q, x) :: rest =>
    if q = want then (q, x) :: consecutive len (some (wrapAt len (q + 1))) rest else []

/-- Up to 128 positions at the head that address one chain and run consecutively (R102, R123). -/
def headRun (e : Engine) (sl : Slot) : List (Nat × Sample) :=
  match sl.staging with
  | [] => []
  | en :: _ =>
    let len := layerLen e en.layer
    let same := (sl.staging.take 129).takeWhile fun x => x.layer == en.layer && x.key == en.key
    (consecutive len none (same.flatMap (Entry.positions len))).take 128

/-- Remove the first `n` positions of a staging list (R102). -/
def dropPositions (e : Engine) : Nat → List Entry → List Entry
  | _, [] => []
  | n, en :: rest =>
    if n = 0 then en :: rest
    else match en.body with
      | .data _ _ => dropPositions e (n - 1) rest
      | .gap first c o =>
        if c ≤ n then dropPositions e (n - c) rest
        else { en with body := .gap (wrapAt (layerLen e en.layer) (first + n)) (c - n) o } :: rest

/-- The head entries belong to a capture or overdub that has ended (R102). -/
def headEnded (e : Engine) (sl : Slot) : Bool :=
  match sl.staging with
  | [] => false
  | en :: _ =>
    !(sl.use != .free && sl.layer == some en.layer && chainKey e.layers[en.layer].cur == some en.key)

/-! ## Requests (R119, R121 to R123), each with its rank -/

/-- The rank of a request: its class, and within the class a staging level and the number of the layer or slot (R119). -/
structure Rank where
  cls : Nat
  level : Nat
  number : Nat
  deriving DecidableEq, Repr

/-- A request is served before another: by its class, then its level, then its number (R119). -/
def Rank.before (a b : Rank) : Bool :=
  decide (a.cls < b.cls ∨ (a.cls = b.cls ∧ (a.level < b.level ∨ (a.level = b.level ∧ a.number < b.number))))

/-- A grant as it is made (R118): it occupies ceil(b / 32) frame periods. -/
def newGrant (who : Requester) (cls : Nat) (l : LayerIx) (key : Nat) (write : Bool) (first count : Nat) : Grant :=
  { who := who, cls := cls, layer := l, key := key, write := write, first := first, count := count,
    left := ceilDiv count 32, cancelled := false }

/-- The class of a slot's drain: 1 from level 768, 4 from 256 or when its head has ended, 0 while none is asked for (R102). -/
def drainClass (e : Engine) (sl : Slot) : Nat :=
  if 768 ≤ stagingLevel sl then 1 else if 256 ≤ stagingLevel sl ∨ headEnded e sl then 4 else 0

/-- A slot's drain request (R102). -/
def slotRequest (e : Engine) (s : SlotIx) : List (Rank × Grant) :=
  let sl := e.slots[s]
  match sl.staging, headRun e sl with
  | en :: _, (q, _) :: more =>
    if drainClass e sl = 0 then []
    else
      [(⟨drainClass e sl, 0, s.val⟩,
        newGrant (.slot s) (drainClass e sl) en.layer en.key true q (more.length + 1))]
  | _, _ => []

/-- A voice may ask for frames of its layer (R121, R130, R135); one whose ZERO_FILL left the list early asks from its
present read position on (entry 72). -/
def voiceAsks (e : Engine) (l : LayerIx) : Bool :=
  let v := e.voices[l]
  v.flag && v.rs != .idle && !v.clearing && !(v.rs == .priming && zeroFilling e l)

/-- The count a voice wants: min(128, 512 - level) (R121). -/
def voiceWants (e : Engine) (l : LayerIx) : Nat :=
  min 128 (512 - voiceLevel (layerLen e l) e.voices[l] e.cyc.splice.crossing)

/-- The request for what follows a run of frames held, up to the first position of another source (R120 to R122). -/
def readRequest (e : Engine) (who : Requester) (cls level wanted : Nat) (l : LayerIx) (held : Run) : List (Rank × Grant) :=
  let pos := runNext (layerLen e l) held
  match readSource e l pos with
  | some key =>
    let n := spanLen e l (some key) wanted pos
    if n = 0 then [] else [(⟨cls, level, l.val⟩, newGrant who cls l key false pos n)]
  | none => []

/-- A voice's refill request: class 2 below level 64, class 5 otherwise (R121). -/
def voiceRequest (e : Engine) (l : LayerIx) : List (Rank × Grant) :=
  let lv := voiceLevel (layerLen e l) e.voices[l] e.cyc.splice.crossing
  if voiceAsks e l then readRequest e (.voice l) (if lv < 64 then 2 else 5) lv (voiceWants e l) l e.voices[l].main else []

/-- A participating voice may ask for frames of its splice stream (R122); one that primes during a zero fill of its
layer may not (R130), nor one in its clear fade, which holds the jump until it has ended (R135; entry 64). -/
def spliceAsks (e : Engine) (l : LayerIx) : Bool :=
  match e.cyc.splice with
  | .fetching r =>
    let v := e.voices[l]
    let n := (heldStream e l).frames.length
    decide (l ∈ r.voices) && !v.clearing && !(v.rs == .priming && zeroFilling e l)
      && (decide (n < r.x) || decide (n ≤ 224))
  | _ => false

/-- The count a splice stream wants: min(128, 256 - level) (R122). -/
def spliceWants (e : Engine) (l : LayerIx) : Nat := min 128 (256 - (heldStream e l).frames.length)

/-- A splice-buffer fill request, class 3 (R122). -/
def spliceRequest (e : Engine) (l : LayerIx) : List (Rank × Grant) :=
  let stream := heldStream e l
  if spliceAsks e l then readRequest e (.splice l) 3 stream.frames.length (spliceWants e l) l stream else []

/-- The transfer engine's request, class 6: min(128, frames not yet moved) of the current chain (R123,
R171). -/
def transferRequest (e : Engine) : List (Rank × Grant) :=
  match e.xfer with
  | some t =>
    match chainKey e.layers[t.layer].cur with
    | some key =>
      [(⟨6, 0, 0⟩, newGrant .transfer 6 t.layer key t.write (t.first + t.moved) (min 128 (t.count - t.moved)))]
    | none => []
  | none => []

/-- The page filler's request, class 7: the next read or write of the job at the head (R115, R116,
R123). -/
def fillerRequest (e : Engine) : List (Rank × Grant) :=
  match e.mem.jobs with
  | [] => []
  | j :: _ =>
    let r := e.layers[j.layer]
    let len := layerLen e j.layer
    match j.kind, r.written, j.key with
    | .finishCopy, some (a, w), some key =>
      let first := wrapAt len (a + w)
      let n := min (min 128 (len - w)) (len - first)
      match chainKey r.undo with
      | some old =>
        if e.mem.work.isEmpty then [(⟨7, 0, 0⟩, newGrant .filler 7 j.layer old false first n)]
        else [(⟨7, 0, 0⟩, newGrant .filler 7 j.layer key true first e.mem.work.length)]
      | none => [(⟨7, 0, 0⟩, newGrant .filler 7 j.layer key true first n)]
    | .zeroFill, _, some key =>
      [(⟨7, 0, 0⟩, newGrant .filler 7 j.layer key true j.done (min 128 (len - j.done)))]
    | _, _, _ => []

/-- The set of requests that stand (R118). -/
def requests (e : Engine) : List (Rank × Grant) :=
  slotIxs.flatMap (slotRequest e) ++ layerIxs.flatMap (voiceRequest e) ++ layerIxs.flatMap (spliceRequest e)
    ++ transferRequest e ++ fillerRequest e

/-- The request that is served before all others (R119). -/
def lowest : List (Rank × Grant) → Option (Rank × Grant)
  | [] => none
  | r :: rest =>
    match lowest rest with
    | some b => if b.1.before r.1 then some b else some r
    | none => some r

/-- A voice whose next position reads zeros takes them without a grant, and so does a splice stream
(R120; entry 16). The stream is stored as the arbiter finds it, cut at the start that the trim of this choice gives.
DESIGN CHOICE (entries 49 and 51): where a GRANT_COMPLETE on the open frame stores it so and a detector onset of that frame,
whose trim gave the start, is taken back afterwards, the cut stands, and a stream that then begins after its start is
fetched anew (R20, R122, R156). -/
def zeroFeed (l : LayerIx) (e : Engine) : Engine :=
  let len := layerLen e l
  let pos := runNext len e.voices[l].main
  let e1 :=
    if voiceAsks e l ∧ e.layers[l].written.isSome ∧ readSource e l pos = none then
      let n := spanLen e l none (voiceWants e l) pos
      modVoice l (fun v => updFlag len e.cyc.splice.crossing
        { v with main := { v.main with frames := v.main.frames ++ List.replicate n 0 } }) e
    else e
  let stream := heldStream e1 l
  let spos := runNext len stream
  if spliceAsks e1 l ∧ e1.layers[l].written.isSome ∧ readSource e1 l spos = none then
    let n := spanLen e1 l none (spliceWants e1 l) spos
    modVoice l (fun v => { v with spl := { stream with frames := stream.frames ++ List.replicate n 0 } }) e1
  else e1

/-- The grant of the request that is served before all others, when one stands (R118, R119). -/
def grantNext (e : Engine) : Engine := { e with mem := { e.mem with grant := (lowest (requests e)).map (·.2) } }

/-- The arbiter makes the next grant when the port is idle and a request stands (R118, R119). -/
def arbitrate (e : Engine) : Engine :=
  match e.mem.grant with
  | some _ => e
  | none => grantNext (eachLayer zeroFeed e)

/-! ## Completion of a grant (R118) -/

/-- A job completed later: the reply it owes (R179). -/
structure LateReply where
  kind : Byte
  tag : Byte
  data : List ReplyItem
  deriving DecidableEq, Repr

/-- Write a list of positions and values into the pages of a chain. -/
def drainWrites (l : LayerIx) (key : Nat) : List (Nat × Sample) → Engine → Engine
  | [], e => e
  | (q, x) :: rest, e => drainWrites l key rest (pageWrite l key q x e)

/-- A drain completes: its positions reach their pages and leave the staging buffer (R102, R118). -/
def drainDone (g : Grant) (s : SlotIx) (e : Engine) : Engine :=
  let taken := (headRun e e.slots[s]).take g.count
  let e1 := drainWrites g.layer g.key taken e
  modSlot s (fun sl => { sl with staging := dropPositions e taken.length sl.staging }) e1

/-- A refill completes: the frames join the voice's main staging (R118, R129). -/
def voiceDone (g : Grant) (l : LayerIx) (e : Engine) : Engine :=
  let v := e.voices[l]
  if v.rs = .idle ∨ v.clearing then e
  else
    let len := layerLen e l
    let xs := chainReads e g.layer g.key g.first g.count
    modVoice l (fun v =>
      updFlag len e.cyc.splice.crossing { v with main := runDeliver len g.first xs v.main }) e

/-- A voice's splice stream is still in use: while FETCHING that of a participating voice, after the jump that of
a voice which still reads from it (R118, R122, R132). -/
def streamInUse (e : Engine) (l : LayerIx) : Bool :=
  match e.cyc.splice with
  | .fetching r => decide (l ∈ r.voices)
  | .crossfading r =>
    decide (l ∈ r.voices) && e.voices[l].rs == .reading && !e.voices[l].spl.frames.isEmpty && e.cyc.splice.crossing
  | .idle => false

/-- A splice fill completes: the frames join the stream, or are discarded with it (R118, R122). -/
def spliceDone (g : Grant) (l : LayerIx) (e : Engine) : Engine :=
  if streamInUse e l then
    let len := layerLen e l
    let xs := chainReads e g.layer g.key g.first g.count
    let fill := fun v : Voice => { v with spl := runDeliver len g.first xs v.spl }
    modVoice l (fun v => if e.cyc.splice.crossing then updFlag len true (fill v) else fill v) e
  else e

/-- A transfer grant completes (R172, R173, R174): its frames are moved, and the last one completes the
transfer, with its reply and then a waiting release. -/
def transferDone (g : Grant) (e : Engine) : Engine × Option LateReply :=
  match e.xfer with
  | none => (e, none)
  | some t =>
    let e1 := if t.write then
        chainWrites g.layer g.key g.first ((t.data.drop t.moved).take g.count) e else e
    let data := if t.write then t.data else t.data ++ chainReads e g.layer g.key g.first g.count
    let t1 := { t with moved := t.moved + g.count, data := data }
    if t.count ≤ t1.moved then
      let e2 := { e1 with xfer := none }
      let e3 := if t.release then modLayer t.layer (fun r => { r with hold := .none }) e2 else e2
      (e3, some { kind := if t.write then 20 else 19, tag := t.tag,
                  data := if t.write then [] else [.raw (sampleBytes data)] })
    else ({ e1 with xfer := some t1 }, none)

/-- The job at the head is done: it leaves the list, FILL_DONE is queued, and a hold may be granted
(R115, R116). -/
def jobDone (l : LayerIx) (k : FillKind) (e : Engine) : Engine :=
  grantHolds (post (.fillDone l k) { e with mem := { e.mem with jobs := e.mem.jobs.drop 1, work := [] } })

/-- A ZERO_FILL is done: FILL_DONE, the hold, the finish copy that waited for it (entry 54), and the priming of the
layer's voice anew (R116, R130). -/
def zeroFillDone (l : LayerIx) (e : Engine) : Engine :=
  let e1 := jobDone l .zeroFill e
  let e2 := if e1.layers[l].written.isSome ∧ e1.layers[l].slot = none then addJob l .finishCopy e1 else e1
  if e2.voices[l].rs = .priming then beginPriming l e2 else e2

/-- A grant of the page filler completes (R115, R116). -/
def fillerDone (g : Grant) (e : Engine) : Engine :=
  match e.mem.jobs with
  | [] => e
  | j :: rest =>
    match j.kind with
    | .finishCopy =>
      if g.write then
        let xs := if (chainKey e.layers[j.layer].undo).isSome then e.mem.work.take g.count
          else List.replicate g.count 0
        let e1 := chainWrites g.layer g.key g.first xs e
        let e2 := { e1 with mem := { e1.mem with work := [] } }
        match e2.layers[j.layer].written with
        | some (a, w) =>
          if layerLen e2 j.layer ≤ w + g.count then
            jobDone j.layer .finishCopy (modLayer j.layer (fun r => { r with written := none }) e2)
          else modLayer j.layer (fun r => { r with written := some (a, w + g.count) }) e2
        | none => e2
      else
        { e with mem := { e.mem with work := chainReads e g.layer g.key g.first g.count } }
    | .zeroFill =>
      let e1 := chainWrites g.layer g.key g.first (List.replicate g.count 0) e
      let done := j.done + g.count
      if layerLen e1 j.layer ≤ done then zeroFillDone j.layer e1
      else { e1 with mem := { e1.mem with jobs := { j with done := done } :: rest } }

/-- GRANT_COMPLETE is due: the grant's periods have run (R118). -/
def grantDue (e : Engine) : Bool :=
  match e.mem.grant with
  | some g => g.left == 0
  | none => false

/-- The grant completes, and the arbiter makes the next one on the same frame (R118, R120). -/
def completeGrant (e : Engine) : Engine × Option LateReply :=
  match e.mem.grant with
  | none => (e, none)
  | some g =>
    let e0 := { e with mem := { e.mem with grant := none } }
    let out : Engine × Option LateReply :=
      if g.cancelled then (e0, none)
      else match g.who with
        | .slot s => (drainDone g s e0, none)
        | .voice l => (voiceDone g l e0, none)
        | .splice l => (spliceDone g l e0, none)
        | .transfer => transferDone g e0
        | .filler => (fillerDone g e0, none)
    (arbitrate out.1, out.2)

/-- One frame period of the grant passes (R118). -/
def tickGrant (e : Engine) : Engine :=
  { e with mem := { e.mem with grant := e.mem.grant.map fun g => { g with left := g.left - 1 } } }

end Sys2Proof.Machine
end

