-- ==== Sys2Proof/Machine/Capture.lean ====
section
/-! DEFINITION. Capture slots and overdub (R81 to R103): taking and releasing a slot, the writes of a frame,
their entry into the staging buffer and its gap runs, and how captures and overdubs end. -/

namespace Sys2Proof.Machine

/-! ## Taking and releasing (R82, R83) -/

/-- The lowest-numbered FREE slot (R82). -/
def freeSlot? (e : Engine) : Option SlotIx := slotIxs.find? fun s => e.slots[s].use == .free

/-- A slot is taken for a layer and a lane: the layer names it and the capture-this-pass flag is set
(R19, R82). What is staged stays in the buffer (R83). -/
def takeSlot (s : SlotIx) (use : SlotUse) (l : LayerIx) (lane : LaneIx) (start : Option Nat) (e : Engine) : Engine :=
  let e1 := modSlot s (fun sl =>
    { sl with use := use, layer := some l, lane := some lane, start := start, last := none, count := 0,
              first := none, pendingWrites := [] }) e
  let e2 := modLayer l (fun r => { r with slot := some s }) e1
  { e2 with cyc := { e2.cyc with captureThisPass := true } }

/-- A slot is released: everything but its staging takes its reset value, and the layer's slot field
becomes absent (R83). The writes of the open frame are not made (R87, R92, R98). -/
def releaseSlot (l : LayerIx) (e : Engine) : Engine :=
  match e.layers[l].slot with
  | some s =>
    modLayer l (fun r => { r with slot := none })
      (modSlot s (fun sl => { Slot.reset with staging := sl.staging }) e)
  | none => e

/-! ## Staging (R100, R101) -/

/-- The count of the open gap run, if any (R100, R125). -/
def openGap (sl : Slot) : Option Nat :=
  match sl.staging.getLast? with
  | some { body := .gap _ n true, .. } => some n
  | _ => none

/-- Close the gap run at the tail. -/
def closeTail (sl : Slot) : Slot :=
  match sl.staging.getLast? with
  | some { layer := l, key := k, body := .gap first n true } =>
    { sl with staging := sl.staging.dropLast ++ [{ layer := l, key := k, body := .gap first n false }] }
  | _ => sl

/-- An open gap run is closed and CAPTURE_GAP is queued with its count (R101). -/
def closeGap (s : SlotIx) (e : Engine) : Engine :=
  match openGap e.slots[s] with
  | some n => post (.captureGap s n) (modSlot s closeTail e)
  | none => e

/-- A new position enters the staging buffer: as data, or in the gap run when the buffer holds 1,024 data
entries (R101). -/
def stageNew (s : SlotIx) (l : LayerIx) (key pos : Nat) (x : Sample) (e : Engine) : Engine :=
  let sl := e.slots[s]
  if Config.stagingCapacity ≤ dataCount sl then
    modSlot s (fun sl =>
      match sl.staging.getLast? with
      | some { layer := l', key := k', body := .gap first n true } =>
        { sl with staging := sl.staging.dropLast ++ [{ layer := l', key := k', body := .gap first (n + 1) true }] }
      | _ => { sl with staging := sl.staging ++ [{ layer := l, key := key, body := .gap pos 1 true }] }) e
  else
    modSlot s (fun sl =>
      { sl with staging := sl.staging ++ [{ layer := l, key := key, body := .data pos x }] }) (closeGap s e)

/-- A position written again: the newest data entry takes the later sample; in an open gap run the sample
is lost; when neither stands at the tail the position enters anew (R101; entry 36). -/
def stageAgain (s : SlotIx) (l : LayerIx) (key pos : Nat) (x : Sample) (e : Engine) : Engine :=
  match e.slots[s].staging.getLast? with
  | some { body := .gap _ _ true, .. } => e
  | some { layer := l', key := k', body := .data q _ } =>
    if q = pos ∧ l' = l ∧ k' = key then
      modSlot s (fun sl =>
        { sl with staging := sl.staging.dropLast ++ [{ layer := l, key := key, body := .data pos x }] }) e
    else stageNew s l key pos x e
  | _ => stageNew s l key pos x e

/-- The value an overdub writes: sat24(round((old x feedback + x x level) / 32,768)) (R96). -/
def combine (old x : Sample) (level feedback : Nat) : Sample :=
  sat24 (roundDiv (old.toInt * feedback + x.toInt * level) 32768)

/-- The sample a write puts at its position: the lane's, or an overdub's combination (R85, R96). -/
def SlotWrite.value (w : SlotWrite) : Sample :=
  match w.mixed with
  | none => w.x
  | some c => combine c.old w.x c.level c.feedback

/-- One write enters the staging buffer (R101). -/
def stageWrite (s : SlotIx) (l : LayerIx) (w : SlotWrite) (e : Engine) : Engine :=
  match chainKey e.layers[l].cur with
  | some key => if w.again then stageAgain s l key w.pos w.value e else stageNew s l key w.pos w.value e
  | none => e

/-! ## Making a write (R85, R86, R90, R94) -/

/-- The base capture enters a new page: the head of the free list joins its chain (R86, R105). -/
def basePage (l : LayerIx) (pos : Nat) (e : Engine) : Engine :=
  let pages := e.layers[l].cur.getD []
  if pages.length * Config.pageFrames ≤ pos then
    let t := takePages 1 e
    modLayer l (fun r => { r with cur := some (pages ++ t.1) }) t.2
  else e

/-- The overdub has written a position: for the first time, w rises, and the written range becomes absent
at L (R59, R94). -/
def growWritten (l : LayerIx) (e : Engine) : Engine :=
  match e.layers[l].written with
  | some (a, w) =>
    modLayer l (fun r =>
      { r with written := if layerLen e l ≤ w + 1 then none else some (a, w + 1) }) e
  | none => e

/-- One write of a slot is made. -/
def commitWrite (s : SlotIx) (e : Engine) (w : SlotWrite) : Engine :=
  let sl := e.slots[s]
  match sl.layer with
  | none => e
  | some l =>
    match sl.use with
    | .free => e
    | .base =>
      modSlot s (fun sl => { sl with count := sl.count + 1, last := some w.pos })
        (stageWrite s l w (basePage l w.pos e))
    | .fixed =>
      modSlot s (fun sl =>
        { sl with last := some w.pos,
                  count := if w.again then sl.count else sl.count + 1,
                  first := sl.first.or (some w.pos) })
        (stageWrite s l w e)
    | .overdub =>
      let e1 := modSlot s (fun sl => { sl with last := some w.pos }) (stageWrite s l w e)
      if w.again then e1 else growWritten l e1

/-- The writes of the open frame are made (entry 12). -/
def commitSlot (s : SlotIx) (e : Engine) : Engine :=
  modSlot s (fun sl => { sl with pendingWrites := [] })
    (e.slots[s].pendingWrites.foldl (commitWrite s) e)

/-! ## The writes of a frame (R84, R85, R90, R94 to R97) -/

/-- The stored sample an overdub combines at a position: the frame of the layer's voice, 0 when it holds
none, is starved or starves on this frame (R95, R130, R133), or still plays out an earlier cleared take (R135;
entry 56). -/
def storedSample (e : Engine) (l : LayerIx) (pos : Nat) : Sample :=
  let v := e.voices[l]
  let len := layerLen e l
  let here := (layerPos e l).getD 0
  let crossing := e.cyc.splice.crossing
  let at' := fun q => if crossing then newFrame len v q else runGet len v.main q
  if v.clearing then 0 else
  match v.rs with
  | .reading => if (at' here).isSome ∧ (at' (wrapAt len (here + 1))).isSome then (at' pos).getD 0 else 0
  | .priming => (at' pos).getD 0
  | _ => 0

/-- The overdub's write at a position on this frame, with the level and feedback now in force (R97). -/
def overdubWrite (e : Engine) (l : LayerIx) (x : Sample) (pos : Nat) (again : Bool) : SlotWrite :=
  { pos := pos, x := x, again := again,
    mixed := some { old := storedSample e l pos, level := e.layers[l].level, feedback := e.layers[l].feedback } }

/-- The positions a capture or overdub writes at integer position q after r, with whether each is written
again (R90). `started`: something was written before. `lastOne`: one position is left to a capture. -/
def writePositions (len r q : Nat) (started lastOne : Bool) : List (Nat × Bool) :=
  match ahead len r q with
  | 0 => [(q, started)]
  | 1 => [(q, false)]
  | 2 => if lastOne then [(wrapAt len (r + 1), false)] else [(wrapAt len (r + 1), false), (q, false)]
  | _ => []

/-- The writes of a slot on a frame (R85, R90, R94). -/
def slotWrites (e : Engine) (s : SlotIx) : List SlotWrite :=
  let sl := e.slots[s]
  match sl.layer, sl.lane with
  | some l, some lane =>
    let x := e.lanes[lane].x
    let len := layerLen e l
    let q := (layerPos e l).getD 0
    match sl.use with
    | .free => []
    | .base => if sl.count < Config.maxCycle then [{ pos := sl.count, x := x, mixed := none, again := false }] else []
    | .fixed =>
      if e.cyc.state = .running then
        (writePositions len (sl.last.getD (sl.start.getD 0)) q sl.last.isSome (sl.count + 1 == len)).map
          fun w => { pos := w.1, x := x, mixed := none, again := w.2 }
      else []
    | .overdub =>
      if e.cyc.state = .running then
        (writePositions len (sl.last.getD 0) q true false).map fun w => overdubWrite e l x w.1 w.2
      else []
  | _, _ => []

/-- A slot forms the writes of the frame (entry 12). -/
def formWrites (s : SlotIx) (e : Engine) : Engine :=
  let ws := slotWrites e s
  modSlot s (fun sl => { sl with pendingWrites := ws }) e

/-! ## Endings -/

/-- The frame's writes bring a fixed capture to its last distinct position (R91). -/
def fixedCompleteDue (e : Engine) (s : SlotIx) : Bool :=
  let sl := e.slots[s]
  match sl.use, sl.layer with
  | .fixed, some l =>
    decide (layerLen e l ≤ sl.count + (sl.pendingWrites.filter fun w => !w.again).length)
  | _, _ => false

/-- The lane a slot records notes the positions for which the open frame's writes of the slot are staged (entry 51). -/
def noteTaken (s : SlotIx) (l : LayerIx) (e : Engine) : Engine :=
  let sl := e.slots[s]
  match sl.lane, chainKey e.layers[l].cur with
  | some lane, some key =>
    modLane lane (fun ln => { ln with taken := ln.taken ++ sl.pendingWrites.map fun w => (l, key, w.pos) }) e
  | _, _ => e

/-- A fixed capture completes (R47, R91): the slot released, the layer PLAYING, its gap run closed, and its voice
begins priming. LAYER_STATE is queued before CAPTURE_GAP, as the rule tells of them (entry 32). -/
def completeFixed (s : SlotIx) (e : Engine) : Engine :=
  match e.slots[s].layer with
  | some l =>
    let e1 := setLayerState l .playing .captureEnd 0 (releaseSlot l (commitSlot s (noteTaken s l e)))
    grantHolds (playVoice l (closeGap s e1))
  | none => e

/-- The slot of a layer closes its gap run and is released (R87, R92, R98). -/
def endSlot (l : LayerIx) (e : Engine) : Engine :=
  match e.layers[l].slot with
  | some s => releaseSlot l (closeGap s e)
  | none => e

/-- A fixed capture is closed early (R92): the written range covers what was written, and a FINISH_COPY
job writes zeros over the rest. -/
def closeEarly (l : LayerIx) (number : Nat) (e : Engine) : Engine :=
  match e.layers[l].slot with
  | some s =>
    let sl := e.slots[s]
    let a := sl.first.getD (wrapAt (layerLen e l) (sl.start.getD 0 + 1))
    let e1 := endSlot l e
    let e2 := modLayer l (fun r => { r with written := some (a, sl.count) }) e1
    let e3 := setLayerState l .playing .cue number (addJob l .finishCopy e2)
    playVoice l e3
  | none => e

/-- An overdub ends: the slot is released and, when the written range is present, a FINISH_COPY job is
queued (R50, R98). The layer's state is the caller's. -/
def endOverdub (l : LayerIx) (e : Engine) : Engine :=
  let e1 := endSlot l e
  if e1.layers[l].written.isSome then addJob l .finishCopy e1 else e1

/-- An overdub's write takes the stored sample now held; what else it combines stands (R95, R97). -/
def SlotWrite.reread (e : Engine) (l : LayerIx) (w : SlotWrite) : SlotWrite :=
  { w with mixed := w.mixed.map fun c => { c with old := storedSample e l w.pos } }

/-- A starved voice recovers; the frame's overdub writes on its layer take the frames now held (R95,
R134; entry 13). -/
def recoverDone (l : LayerIx) (e : Engine) : Engine :=
  let e1 := recoverVoice l e
  match e1.layers[l].slot with
  | some s => modSlot s (fun sl => { sl with pendingWrites := sl.pendingWrites.map (SlotWrite.reread e1 l) }) e1
  | none => e1

end Sys2Proof.Machine
end

