-- ==== Sys2Proof/Machine/Layers.lean ====
section
/-! DEFINITION. What a layer does when a cue or a hold acts on it (R44 to R58): playing, stopping, emptying,
disarming, undo and redo (R55, R111, R112), the start of captures and overdubs (R45, R46, R49, R109) and
the import (R170). -/

namespace Sys2Proof.Machine

/-! ## Playing and stopping (R48, R51, R52) -/

/-- A STOPPED layer becomes PLAYING (R51). -/
def playLayer (l : LayerIx) (number : Nat) (e : Engine) : Engine :=
  playVoice l (setLayerState l .playing .cue number e)

/-- The layer's overdub ends if it is OVERDUBBING (R48, R50). -/
def endIfOverdubbing (l : LayerIx) (e : Engine) : Engine :=
  if e.layers[l].state = .overdubbing then endOverdub l e else e

/-- A PLAYING or OVERDUBBING layer becomes STOPPED, with one LAYER_STATE (R48). -/
def stopLayer (l : LayerIx) (number : Nat) (e : Engine) : Engine :=
  stopVoice l (setLayerState l .stopped .cue number (endIfOverdubbing l e))

/-- An OVERDUBBING layer's overdub ends and the layer becomes PLAYING (R50). -/
def finishOverdub (l : LayerIx) (number : Nat) (e : Engine) : Engine :=
  setLayerState l .playing .cue number (endOverdub l e)

/-! ## Emptying (R47, R56, R107) -/

/-- The record of an emptied layer: reset values but for gain, pan and mute (R56). -/
def clearedRecord (r : Layer) : Layer :=
  { Layer.reset with state := r.state, lastChange := r.lastChange, gain := r.gain, pan := r.pan, mute := r.mute }

/-- The layer loses its slot, its job, its chains in the order of R107, its age entry and its voice, and
its record returns to reset values (R56, R88, R93, R99). -/
def releaseLayer (l : LayerIx) (e : Engine) : Engine :=
  let r := e.layers[l]
  let e1 := dropJob l (releaseSlot l e)
  let e2 := dropAge l (freeChain l r.redo (freeChain l r.undo (freeChain l r.cur e1)))
  modLayer l clearedRecord (clearVoice l e2)

/-- A layer that is not EMPTY is emptied (R56). -/
def emptyLayer (l : LayerIx) (cause : LayerCause) (number : Nat) (e : Engine) : Engine :=
  setLayerState l .empty cause number (releaseLayer l e)

/-- An ARMED layer returns to EMPTY because its RECORD cue left the queue; a PENDING hold is dropped
(R44, R169). -/
def disarm (l : LayerIx) (number : Nat) (e : Engine) : Engine :=
  if e.layers[l].state = .armed then
    setLayerState l .empty .cueRemoved number (modLayer l (fun r => { r with hold := .none }) e)
  else e

/-! ## Undo and redo (R55, R111, R112) -/

/-- The exchange of an UNDO: with a finish copy queued or running the incomplete version is freed, and its job goes
with it, while a ZERO_FILL of the chain that becomes current again runs on; else the current chain becomes the redo
chain (R55, R111, R112, R117; entry 54). -/
def undoLayer (l : LayerIx) (e : Engine) : Engine :=
  if finishing e l then
    let e0 := dropJobs (fun j => j.layer == l && j.kind == .finishCopy) e
    let e1 := dropAge l (freeChain l e.layers[l].cur e0)
    modLayer l (fun r => { r with cur := r.undo, undo := none, written := none }) e1
  else
    setAgeKind l .redo (modLayer l (fun r => { r with cur := r.undo, undo := none, redo := r.cur }) e)

/-- The exchange of a REDO (R111). -/
def redoLayer (l : LayerIx) (e : Engine) : Engine :=
  setAgeKind l .undo (modLayer l (fun r => { r with cur := r.redo, redo := none, undo := r.cur }) e)

/-! ## Starting a capture or an overdub -/

/-- The base capture starts (R3, R45). -/
def startBase (s : SlotIx) (l : LayerIx) (lane : LaneIx) (number : Nat) (e : Engine) : Engine :=
  let e1 := takeSlot s .base l lane none e
  let e2 := modLayer l (fun r => { r with cur := some [] }) e1
  let e3 := setLayerState l .capturing .cue number e2
  setCycleState .baseCapture { e3 with cyc := { e3.cyc with base := some l } }

/-- A fixed capture of n cycles starts with its chain (R46, R89). -/
def startFixed (s : SlotIx) (l : LayerIx) (n : Nat) (lane : LaneIx) (pages : List Nat) (number : Nat)
    (e : Engine) : Engine :=
  let e1 := modLayer l (fun r => { r with mult := some n, cur := some pages }) e
  let e2 := takeSlot s .fixed l lane (layerPos e1 l) e1
  captureStops (setLayerState l .capturing .cue number e2)

/-- The number of pages of a chain. -/
def chainPageCount (chain : Option (List Nat)) : Nat := (chain.getD []).length

/-- The exchange of an OVERDUB (R109): redo and undo chains freed, the current chain kept as undo chain
with a new age entry, `n` pages taken as the new current chain. -/
def overdubChains (l : LayerIx) (n : Nat) (e : Engine) : Engine :=
  let r := e.layers[l]
  let e1 := dropAge l (freeChain l r.undo (freeChain l r.redo e))
  let t := takePages n { e1 with mem := { e1.mem with age := e1.mem.age ++ [(l, .undo)] } }
  modLayer l (fun r => { r with cur := some t.1, undo := r.cur, redo := none }) t.2

/-- The overdub starts: chains, written range, weights and slot; the layer, no longer PLAYING, leaves a splice
(R20, R21, R23, R132), and the frame's first write is formed, which is not made if the overdub ends on this frame
(R49, R94, R98; entries 12, 43 and 60). -/
def startOverdub (s : SlotIx) (l : LayerIx) (lane : LaneIx) (level feedback : Nat) (number : Nat)
    (e : Engine) : Engine :=
  let a := (layerPos e l).getD 0
  let e1 := overdubChains l (pagesFor (layerLen e l)) e
  let e2 := modLayer l (fun r =>
    { r with written := some (a, 0), level := level, feedback := feedback }) e1
  let e3 := takeSlot s .overdub l lane none e2
  let e4 := leaveSplice l (captureStops (setLayerState l .overdubbing .cue number e3))
  modSlot s (fun sl => { sl with pendingWrites := [overdubWrite e4 l e4.lanes[lane].x a false] }) e4

/-! ## Import (R58, R170) -/

/-- A cue is pending for the layer, or a CLEAR_ALL is (R170). -/
def cuePendingFor (e : Engine) (l : LayerIx) : Bool :=
  e.cues.list.any fun c => c.target == .layer l || c.action == .clearAll

/-- A LAYER_HOLD on an EMPTY layer (R170): its checks in order, then the import. Its reclaim may free a chain with the
ZERO_FILL a PENDING hold waits for, so the holds that can be granted are granted (R108, R117, R168). -/
def importLayer (l : LayerIx) (n : Nat) (e : Engine) : Engine × Status :=
  if legalMultiple n = false then (e, .outOfRange)
  else if ¬(e.cyc.state = .running ∨ e.cyc.state = .paused) then (e, .wrongState)
  else if cuePendingFor e l then (e, .wrongState)
  else
    match allocChain (pagesFor (n * e.cyc.c)) e with
    | (none, e1) => (grantHolds e1, .noSpace)
    | (some pages, e1) =>
      let e2 := modLayer l (fun r => { r with mult := some n, cur := some pages, hold := .pending }) e1
      (grantHolds (setLayerState l .stopped .imported 0 (addJob l .zeroFill e2)), .pending)

end Sys2Proof.Machine
end

