-- ==== Sys2Proof/Machine/Follower.lean ====
section
/-! DEFINITION. The tempo follower (R24 to R40): the rate trim, beats and coasting, the measurement of an
onset, the detector's hold-off, the splice decision, FOLLOW_SET with its report, and the block hold. -/

namespace Sys2Proof.Machine

/-! ## The rate trim (R31) -/

/-- delta = clamp(-q, -max, max) with q = E / (S x beat length) toward zero (R31). DESIGN CHOICE (entry 73): without a beat
length, which a FOLLOW_SET finds when a TAP has made the follower TRACKING after the CLEAR of its frame (entry 68), q and
delta are 0. -/
def trimOf (f : Follower) (beatLength : Nat) : Int :=
  clampInt (-(f.deltaMax : Int)) f.deltaMax (-(towardZeroDiv f.err (f.span * beatLength)))

/-- The trim is computed in TRACKING, for a beat length (R31). -/
def trimWith (beatLength : Nat) (e : Engine) : Engine :=
  if e.fol.state = .tracking then { e with fol := { e.fol with delta := trimOf e.fol beatLength } } else e

/-- The trim is computed in TRACKING (R31). -/
def recomputeTrim (e : Engine) : Engine := trimWith e.cyc.beatLength e

/-! ## Beats and coasting (R32) -/

/-- A BEAT boundary reaches the follower: in TRACKING the beat count rises, and COAST is due when it is at
or above coast beats (R32). -/
def followBeat : Engine → Engine := onFollower fun e =>
  let f := e.fol
  if f.state = .tracking ∧ f.coastDue = false then
    { e with fol := { f with beatCount := min 64 (f.beatCount + 1), coastDue := decide (f.coastBeats ≤ f.beatCount + 1) } }
  else e

/-- COAST, when due: the follower returns to WAITING (R32). -/
def coast : Engine → Engine := onFollower fun e =>
  if e.fol.coastDue = true then setFollowState .waiting .coast e else e

/-! ## Measuring an onset (R28 to R30) -/

/-- The beat length of the grid an onset is measured against (R11, R29). -/
def OnsetGrid.beatLength (g : OnsetGrid) : Nat := g.len / g.beats

/-- The grid points: j x beat length for j below B, and C (R29). -/
def gridPoints (g : OnsetGrid) : List Nat := (List.range g.beats).map (· * g.beatLength) ++ [g.len]

/-- The grid of the open frame is what the cycle clock holds now: while RUNNING its position, C and B (R28,
R29; entry 31). -/
def noteGrid (e : Engine) : Engine :=
  { e with cyc := { e.cyc with
      onset := if e.cyc.state = .running then some { p := e.cyc.p, len := e.cyc.c, beats := e.cyc.beats }
               else none } }

/-- The nearest of a list of points to p, the earlier one of equals (R29). -/
def nearest (p : Nat) : List Nat → Nat → Nat
  | [], best => best
  | g :: rest, best =>
    nearest p rest (if ((p : Int) - g).natAbs < ((p : Int) - best).natAbs then g else best)

/-- The error of an onset at position p: p - g* (R29). -/
def onsetError (g : OnsetGrid) : Int := (g.p : Int) - nearest g.p (gridPoints g) 0

/-- The error filter E + floor((e x 65,536 - E) / 2^g) (R30). -/
def filterError (err e : Int) (shift : Nat) : Int := err + floorDiv (e * 65536 - err) (2 ^ shift)

/-- The grid an onset of the kind is measured against, if it is measured (R28): whether the cycle runs is taken
as it stood before the frame's cues executed (entry 31). -/
def measured (kind : OnsetKind) (e : Engine) : Option OnsetGrid :=
  if (e.fol.state = .waiting ∨ e.fol.state = .tracking) ∧ (kind = .detector ∨ e.fol.source ≠ .none) then
    e.cyc.onset
  else none

/-- An accepted onset: E is filtered, the follower enters TRACKING, the beat count becomes 0 and the trim
is computed with the frame's beat length (R30). A TAP taken after the frame's PAUSE or CLEAR has executed is measured
too (R28): its error is filtered from the E of 0 that the lapse of R33 left, and the follower tracks, with a trim, in a
cycle that does not run. The rules do not say whether the lapse still stands then; the model has the later onset
decide (entry 68). -/
def acceptOnset (err : Int) (beatLength : Nat) (e : Engine) : Engine :=
  let f := e.fol
  let e1 := { e with fol :=
    { f with err := filterError f.err err f.shift, state := .tracking, beatCount := 0, coastDue := false } }
  let e2 := if f.state = .waiting then post (.followState .tracking .onset) e1 else e1
  trimWith beatLength e2

/-- The follower measures an onset (R28, R29). -/
def measureOnset (kind : OnsetKind) : Engine → Engine := onFollower fun e =>
  match measured kind e with
  | none => e
  | some g =>
    let err := onsetError g
    let ok := decide (err.natAbs ≤ e.fol.window)
    let e1 := { e with fol := { e.fol with lastOnset := some { err := err, kind := kind, accepted := ok } } }
    if ok then acceptOnset err g.beatLength e1 else e1

/-! ## The detector (R26) -/

/-- The lane the detector examines (R26). -/
def detectorLane (f : Follower) : Option LaneIx :=
  match f.source with
  | .lane l => if f.held then none else some l
  | _ => none

/-- HOLD_OFF_END is due: the hold-off count has reached 0 and the detector is not armed (R26). -/
def holdOffEndDue (e : Engine) : Bool := e.fol.holdCount == 0 && !e.fol.armed && !e.fol.arming

/-- The hold-off has ended: the next frame finds the detector armed (R26). -/
def endHoldOff (e : Engine) : Engine := { e with fol := { e.fol with arming := true } }

/-- A frame begins: the detector whose hold-off had ended on the frame before is armed (R26). -/
def Follower.openFrame (f : Follower) : Follower := { f with armed := f.armed || f.arming, arming := false }

/-- The detector on a frame: hold-off counts down, or an armed detector compares the lane's sample. The
flag says whether the frame carries a detector onset (R26). -/
def detect (e : Engine) : Engine × Bool :=
  match detectorLane e.fol with
  | none => (e, false)
  | some l =>
    if e.fol.holdCount > 0 then ({ e with fol := { e.fol with holdCount := e.fol.holdCount - 1 } }, false)
    else if e.fol.armed ∧ e.fol.threshold < magnitude e.lanes[l].x then
      ({ e with fol := { e.fol with armed := false, holdCount := e.fol.holdOff } }, true)
    else (e, false)

/-! ## The splice decision (R34) and the jump (R35) -/

/-- The distance the follower asks for: 0 for no request, also when a BEAT boundary of the frame has ended
its tracking (R32, R34). -/
def spliceWanted (f : Follower) : Int :=
  if f.state = .tracking ∧ f.coastDue = false ∧ f.spliceThreshold * 65536 ≤ f.err.natAbs then
    clampInt (-(f.jMax : Int)) f.jMax (roundDiv f.err 65536)
  else 0

/-- The mid-cycle decision, once in a pass (R34). -/
def decideSplice (e : Engine) : Engine :=
  if e.fol.decisionMade then e
  else
    let j := spliceWanted e.fol
    let e1 := { e with fol := { e.fol with decisionMade := true } }
    if j = 0 then e1 else requestSplice j e1

/-- The follower is given the J of a jump (R35). -/
def followJump (j : Int) (e : Engine) : Engine :=
  if e.fol.state = .tracking then
    recomputeTrim { e with fol := { e.fol with err := e.fol.err - j * 65536 } }
  else e

/-- The cycle has paused, or returned to UNSET: a follower in TRACKING goes to WAITING (R33). -/
def followLapse (cause : FollowCause) : Engine → Engine := onFollower fun e =>
  if e.fol.state = .tracking then setFollowState .waiting cause e else e

/-- The decision-made flag is cleared (R33). -/
def clearDecision : Engine → Engine := onFollower fun e => { e with fol := { e.fol with decisionMade := false } }

/-! ## FOLLOW_SET (R36 to R38) and the block hold (R39, R40) -/

/-- The fields of the last onset record, -1 each when absent (R38, R180). -/
def onsetFields : Option OnsetRec → List ReplyItem
  | some r => [.field r.err, natField r.kind.code, natField (if r.accepted then 0 else 1)]
  | none => [absentField, absentField, absentField]

/-- The follower report (R38): the beat source is one of its ten parameters and is sent once (entry 50). -/
def followerReport (f : Follower) : List ReplyItem :=
  [natField f.state.code, flagField f.held, natField f.source.code, natField f.threshold, natField f.holdOff,
   natField f.window, natField f.shift, natField f.span, natField f.deltaMax, natField f.spliceThreshold,
   natField f.jMax, natField f.coastBeats, .field f.err, .field f.delta, natField f.beatCount,
   flagField f.armed, natField f.holdCount, flagField f.decisionMade] ++ onsetFields f.lastOnset

/-- The detector at rest: armed, hold-off count 0 (R26, R37, R39). -/
def Follower.restDetector (f : Follower) : Follower := { f with armed := true, arming := false, holdCount := 0 }

/-- The source in force changes (R37). -/
def changeSource (src : BeatSource) (e : Engine) : Engine :=
  if src = e.fol.source then e
  else
    let e1 := { e with fol := { e.fol.restDetector with source := src } }
    setFollowState (if e.fol.held ∨ src = .none then .off else .waiting) .source e1

/-- The parameters of a FOLLOW_SET payload, clamped (R36). -/
def followParams (p : List Byte) (f : Follower) : Follower :=
  { f with
    threshold := clampNat 0 8388607 (fieldAt p 1 4), holdOff := clampNat 480 24000 (fieldAt p 5 2),
    window := clampNat 0 4800 (fieldAt p 7 2), shift := clampNat 1 6 (fieldAt p 9 1),
    span := clampNat 1 8 (fieldAt p 10 1), deltaMax := clampNat 0 655 (fieldAt p 11 2),
    spliceThreshold := clampNat 0 4800 (fieldAt p 13 2), jMax := clampNat 0 960 (fieldAt p 15 2),
    coastBeats := clampNat 1 64 (fieldAt p 17 1) }

/-- Clamping changed one of the parameters given (R36). -/
def followClamped (p : List Byte) (f : Follower) : Bool :=
  !(f.threshold == fieldAt p 1 4 && f.holdOff == fieldAt p 5 2 && f.window == fieldAt p 7 2
    && f.shift == fieldAt p 9 1 && f.span == fieldAt p 10 1 && f.deltaMax == fieldAt p 11 2
    && f.spliceThreshold == fieldAt p 13 2 && f.jMax == fieldAt p 15 2 && f.coastBeats == fieldAt p 17 1)

/-- The hold-off count is lowered to a new H below it (R37). -/
def lowerHoldOff (e : Engine) : Engine :=
  { e with fol := { e.fol with holdCount := min e.fol.holdCount e.fol.holdOff } }

/-- The follower takes the parameters and the source of a FOLLOW_SET (R37). -/
def setFollower (p : List Byte) (src : BeatSource) : Engine → Engine := onFollower fun e =>
  recomputeTrim (lowerHoldOff (changeSource src { e with fol := followParams p e.fol }))

/-- FOLLOW_SET (R36, R37). -/
def followSet (p : List Byte) (e : Engine) : Engine × Answer :=
  if p.length = 0 then (e, { status := .ok, data := followerReport e.fol })
  else if p.length ≠ 18 then refuse .badLength e
  else
    match beatSource? (fieldAt p 0 1) with
    | none => refuse .outOfRange e
    | some src =>
      let e1 := setFollower p src e
      (e1, { status := clampStatus (followClamped p (followParams p e.fol)), data := followerReport e1.fol })

/-- The follower is held (R39). -/
def holdFollower : Engine → Engine := onFollower fun e =>
  if e.fol.held then e
  else setFollowState .off .hold { e with fol := { e.fol.restDetector with held := true } }

/-- The follower is released (R40). -/
def releaseFollower : Engine → Engine := onFollower fun e =>
  if e.fol.held then
    let e1 := { e with fol := { e.fol.restDetector with held := false } }
    if e.fol.source = .none then e1 else setFollowState .waiting .release e1
  else e

end Sys2Proof.Machine
end

