-- ==== Sys2Proof/Machine/Cycle.lean ====
section
/-! DEFINITION. The cycle clock (R2 to R23): boundaries and how cues count them (R14 to R17, R68), the
advance and the wrap (R13, R15), the splice jump (R22), closing and discarding the base capture (R5, R6),
pausing, resuming and the return to UNSET (R8 to R10), and the hand-over of an onset (R28). -/

namespace Sys2Proof.Machine

/-! ## Boundaries and counting (R17, R68) -/

/-- The kinds of boundary; `frame` is the passing of a frame, which IMMEDIATE cues wait for (R68). -/
inductive Boundary where
  | frame
  | onset
  | beat
  | cycle
  | layer (l : LayerIx)
  deriving DecidableEq, Repr

/-- A boundary is one the cue waits for (R68). -/
def Cue.awaits (c : Cue) : Boundary → Bool
  | .frame => c.quantum == .immediate
  | .onset => c.quantum == .onset
  | .beat => c.quantum == .beat
  | .cycle => c.quantum == .cycle
  | .layer l => c.quantum == .layer && c.target == .layer l

/-- One boundary lowers the count of a cue that awaits it and is above 0; a cue that counts it takes the wave
(R68, R70; entry 28). -/
def Cue.count (b : Boundary) (wave : Nat) (c : Cue) : Cue :=
  if c.awaits b ∧ 0 < c.remaining then { c with remaining := c.remaining - 1, wave := wave } else c

/-- One boundary reaches a list of cues, oldest first (R68). A cue that it makes due comes in no earlier wave than the
due cues older than it, so that it executes after them, in queue order (R70; entry 28). -/
def countList (b : Boundary) : Nat → List Cue → List Cue
  | _, [] => []
  | wave, c :: rest => c.count b wave :: countList b (if c.remaining = 0 then max wave c.wave else wave) rest

/-- A boundary reaches the cue queue (R68), and the cues as they would be without the detector onset of the open frame
(entry 51). -/
def countCues (b : Boundary) (wave : Nat) (e : Engine) : Engine :=
  { e with
    cues := { e.cues with list := countList b wave e.cues.list },
    heard := e.heard.map fun h => { h with cues := countList b wave h.cues } }

/-- One BEAT boundary: BEAT, the cue queue, the follower (R14, R17). -/
def beatBoundary (wave : Nat) (e : Engine) : Engine :=
  followBeat (countCues .beat wave (post (.beat e.cyc.beat) e))

/-- A LAYER boundary of a layer (R16). -/
def layerBoundary (wave : Nat) (l : LayerIx) (e : Engine) : Engine :=
  countCues (.layer l) wave (post (.wrap l) e)

/-- The layer wraps at the present bar phase (R16). -/
def wrapsNow (e : Engine) (l : LayerIx) : Bool :=
  match e.layers[l].mult with
  | some n => e.cyc.m % n == 0
  | none => false

/-- A CYCLE boundary that is a LAYER boundary for no layer, as the receivers see it: the clip-reported flag is cleared,
the CYCLE boundary is counted, then BEAT 0 (R7, R15, R17, R139). -/
def bareBoundary (wave : Nat) (e : Engine) : Engine :=
  beatBoundary wave (countCues .cycle wave { e with mix := { e.mix with clipReported := false } })

/-- A CYCLE boundary as the receivers see it, with the LAYER boundaries in ascending order (R15, R16, R17). -/
def cycleBoundary (wave : Nat) (e : Engine) : Engine :=
  eachLayer (fun l e => if wrapsNow e l then layerBoundary wave l e else e) (bareBoundary wave e)

/-- The beat index moves past the grid points a position `q` has reached, one BEAT boundary each (R14). -/
def fireBeats (q : Nat) : Nat → Engine → Engine
  | 0, e => e
  | fuel + 1, e =>
    if e.cyc.beat + 1 < e.cyc.beats ∧ (e.cyc.beat + 1) * e.cyc.beatLength ≤ q then
      fireBeats q fuel (beatBoundary 0 { e with cyc := { e.cyc with beat := e.cyc.beat + 1 } })
    else e

/-- The beat index is brought up to a position (R14). -/
def bringBeats (q : Nat) (e : Engine) : Engine := fireBeats q e.cyc.beats e

/-! ## The advance (R13, R15, R19) -/

/-- The position advances by I = 65,536 + delta (R13). -/
def Cycle.advance (c : Cycle) (delta : Int) : Cycle :=
  let sum := (c.frac + (65536 + delta)).toNat
  { c with p := c.p + sum / 65536, frac := sum % 65536 }

/-- The wrap of R15: p, k and m, a pending B, the beat index and the splice flags. -/
def Cycle.wrap (busy : Bool) (c : Cycle) : Cycle :=
  { c with
    p := c.p - c.c, k := (c.k + 1) % 4294967296, m := (c.m + 1) % 24,
    beats := c.pendingBeats.getD c.beats, pendingBeats := none, beat := 0,
    spliceDone := false, captureThisPass := busy }

/-- The CYCLE boundary of an advance (R15, R21, R31, R33). DESIGN CHOICE (entry 69): a slot released on this very frame,
by a completion or a cue that comes after the advance, still counts as busy, so the capture-this-pass flag is set. -/
def wrapCycle (e : Engine) : Engine :=
  let e1 := { e with cyc := e.cyc.wrap (slotBusy e) }
  let e2 := clearDecision (abandonSplice .cycleEnd e1)
  let e3 := if e.cyc.pendingBeats.isSome then recomputeTrim e2 else e2
  cycleBoundary 0 e3

/-- The advance brought p from below floor(C/2) to it or beyond (R19). -/
def crossedMiddle (c : Nat) (before after : Nat) : Bool := decide (before < c / 2 ∧ c / 2 ≤ after)

/-- The state of the cycle clock once it has jumped (R22). -/
def Cycle.jump (r : SpliceRec) (c : Cycle) : Cycle :=
  { c with p := ((c.p : Int) - r.j).toNat, spliceDone := true, splice := .crossfading { r with count := 0 } }

/-- The position jumps, or, where that would take it to C or beyond, the splice is abandoned (R22). -/
def takeJump (e : Engine) : Engine × Option SpliceRec :=
  match e.cyc.splice with
  | .fetching r =>
    if (e.cyc.c : Int) ≤ (e.cyc.p : Int) - r.j then (abandonSplice .cycleEnd e, none)
    else ({ e with cyc := e.cyc.jump r }, some r)
  | _ => (e, none)

/-- What follows a jump: the beats of the new position, the follower, SPLICE and the voices (R14, R22, R35). -/
def landJump (r : SpliceRec) (e : Engine) : Engine :=
  eachLayer (jumpVoice r) (post (.splice r.j) (followJump r.j (bringBeats e.cyc.p e)))

/-- The cycle clock on a frame while RUNNING: advance and wrap, or the jump when `jump` says it is made on this
frame, the beats the advance reached, the mid-cycle decision, which comes before any onset of the frame (R34;
entry 31), and what follows the jump (R13 to R22). Reports of the frame carry its position, which is that after the
jump (R13). -/
def advanceCycle (jump : Bool) (e : Engine) : Engine :=
  let e1 := { e with cyc := e.cyc.advance e.fol.delta }
  let q := e1.cyc.p
  if e1.cyc.c ≤ q then wrapCycle e1
  else
    let out := if jump then takeJump e1 else (e1, none)
    let e2 := bringBeats q out.1
    let e3 := if crossedMiddle e2.cyc.c e.cyc.p q then decideSplice e2 else e2
    match out.2 with
    | none => e3
    | some r => landJump r e3

/-! ## Starting a cycle (R5, R7) -/

/-- The cycle clock of a cycle of C frames at position 0 (R5). -/
def Cycle.start (len : Nat) (c : Cycle) : Cycle :=
  { c with len := some len, p := 0, frac := 0, k := 0, m := 0, beat := 0, base := none,
           captureThisPass := false, spliceDone := false }

/-- The effects of a close on the cycle clock and the follower, boundary apart (R5, R33). -/
def startCycle (len : Nat) (e : Engine) : Engine :=
  clearDecision (setCycleState .running { e with cyc := e.cyc.start len })

/-- The base capture's layer, slot and count (R4). -/
def baseCapture (e : Engine) : Option (LayerIx × Nat) :=
  match e.cyc.base with
  | some l =>
    match e.layers[l].slot with
    | some s => some (l, e.slots[s].count)
    | none => none
  | none => none

/-- The base capture closes with `count` frames (R5, R87): the gap run, the cycle, the layer, its voice,
the boundaries of wave `wave`, CYCLE_SET. -/
def closeBase (l : LayerIx) (count : Nat) (cause : LayerCause) (number wave : Nat) (e : Engine) : Engine :=
  let e1 := startCycle count (endSlot l e)
  let e2 := setLayerState l .playing cause number (modLayer l (fun r => { r with mult := some 1 }) e1)
  post (.cycleSet count e.cyc.beats) (cycleBoundary wave (playVoice l e2))

/-- The base capture is discarded and the cycle returns to UNSET, which the follower is told (R6, R33, R88). -/
def leaveBase (e : Engine) : Engine :=
  clearDecision (followLapse .cleared (setCycleState .unset { e with cyc := { e.cyc with base := none } }))

/-- AUTO_CLOSE is due: the base capture's count has reached 2,880,000 (R4, R87). -/
def autoCloseDue (e : Engine) : Bool :=
  match baseCapture e with
  | some (_, n) => e.cyc.state == .baseCapture && decide (Config.maxCycle ≤ n)
  | none => false

/-- The base capture closes by itself; an onset of the frame is measured against p = 0 (R4, R33, R87). -/
def autoClose (e : Engine) : Engine :=
  if autoCloseDue e then
    match baseCapture e with
    | some (l, n) => grantHolds (noteGrid (closeBase l n .autoClose 0 0 e))
    | none => e
  else e

/-! ## Pausing, resuming, returning to UNSET (R8 to R10) -/

/-- The cycle enters PAUSED (R8, R33). -/
def enterPaused (e : Engine) : Engine :=
  followLapse .paused (endCrossfade (abandonSplice .paused (setCycleState .paused e)))

/-- The cycle clock back in UNSET (R10). -/
def Cycle.cleared (c : Cycle) : Cycle :=
  { c with len := none, p := 0, frac := 0, k := 0, m := 0, beat := 0, base := none,
           beats := c.pendingBeats.getD c.beats, pendingBeats := none,
           spliceDone := false, captureThisPass := false, owedBoundary := false }

/-- The cycle returns to UNSET from RUNNING or PAUSED (R10, R33). -/
def returnToUnset (e : Engine) : Engine :=
  let e1 := setCycleState .unset { e with cyc := e.cyc.cleared }
  let e2 := endCrossfade (abandonSplice .cleared e1)
  post .cycleCleared (clearDecision (followLapse .cleared e2))

/-- The cycle returns to UNSET if it is RUNNING or PAUSED and every layer is EMPTY (R10, R56). -/
def unsetIfEmpty (e : Engine) : Engine :=
  if (e.cyc.state = .running ∨ e.cyc.state = .paused) ∧ allEmpty e then returnToUnset e else e

/-! ## An onset (R27, R28) -/

/-- The hand-over of an onset: an auto-close and a coast due on its frame come first, then the cue queue
counts it and the follower measures it (R28; entry 31). -/
def handOnset (kind : OnsetKind) (e : Engine) : Engine :=
  measureOnset kind (countCues .onset 0 (coast (autoClose e)))

/-- Several taps belong to one frame (R27). -/
def handTaps : Nat → Engine → Engine
  | 0, e => e
  | n + 1, e => handTaps n (handOnset .tap e)

end Sys2Proof.Machine
end

