-- ==== Sys2Proof/Machine/Pedals.lean ====
section
/-! DEFINITION. The pedal sampler and the pedal map (R159 to R166). -/

namespace Sys2Proof.Machine

/-! ## Targets (R161) -/

/-- The value in force in a target's field (R161, R166). -/
def targetValue (e : Engine) : PedalTarget → Nat
  | .layerGain l => e.layers[l].gain
  | .layerPan l => e.layers[l].pan
  | .liveGain l => e.mix.live[l].gain
  | .livePan l => e.mix.live[l].pan
  | .masterGain => e.mix.master
  | .overdubLevel l => e.layers[l].level
  | .overdubFeedback l => e.layers[l].feedback

/-- Write a target's field (R164). -/
def writeTarget (t : PedalTarget) (v : Nat) (e : Engine) : Engine :=
  match t with
  | .layerGain l => modLayer l (fun r => { r with gain := v }) e
  | .layerPan l => modLayer l (fun r => { r with pan := v }) e
  | .liveGain l => modLive l (fun x => { x with gain := v }) e
  | .livePan l => modLive l (fun x => { x with pan := v }) e
  | .masterGain => { e with mix := { e.mix with master := v } }
  | .overdubLevel l => modLayer l (fun r => { r with level := v }) e
  | .overdubFeedback l => modLayer l (fun r => { r with feedback := v }) e

/-! ## A sampling event (R159, R160, R164) -/

/-- Change one map entry. -/
def modMap (i : MapIx) (f : Option Mapping → Option Mapping) (e : Engine) : Engine :=
  { e with ped := { e.ped with map := upd e.ped.map i f } }

/-- A channel takes a conversion: the raw value, and the smoothed value by seed or by a quarter of the way
(R159, R160). -/
def Pedal.convert (v : Nat) (c : Pedal) : Pedal :=
  { raw := v, seed := false,
    smooth := if c.seed then v else ((c.smooth : Int) + floorDiv ((v : Int) - c.smooth) 4).toNat }

/-- Whether an entry applies at a smoothed position (R164). -/
def Mapping.applies (m : Mapping) (v : Nat) : Bool :=
  match m.applied with
  | none => true
  | some a => decide (m.deadband < ((v : Int) - a).natAbs)

/-- value = low + floor((high - low) x v / 1,023) (R164). -/
def Mapping.value (m : Mapping) (v : Nat) : Nat :=
  ((m.low : Int) + floorDiv (((m.high : Int) - m.low) * v) 1023).toNat

/-- One entry is examined (R164). -/
def applyEntry (i : MapIx) (e : Engine) : Engine :=
  match e.ped.map[i] with
  | none => e
  | some m =>
    let v := e.ped.chan[m.channel].smooth
    if m.applies v then
      modMap i (fun _ => some { m with applied := some v }) (writeTarget m.target (m.value v) e)
    else e

/-- Every channel is converted from what its pin reads (R159). -/
def convertAll (pins : Vector (BitVec 10) 4) (e : Engine) : Engine :=
  { e with ped := { e.ped with
      chan := quadIxs.foldl (fun ch i => upd ch i (Pedal.convert pins[i].toNat)) e.ped.chan } }

/-- A sampling event, when due: held, it converts nothing and applies no entry (R159, R164, R165). -/
def samplingEvent (pins : Vector (BitVec 10) 4) (e : Engine) : Engine :=
  if e.ped.due then
    let e1 := { e with ped := { e.ped with due := false, pins := pins } }
    if e1.ped.held then e1 else mapIxs.foldl (fun e i => applyEntry i e) (convertAll pins e1)
  else e

/-- The sampling count on an engine frame (R159). -/
def tickSampling (e : Engine) : Engine :=
  if e.ped.count + 1 = 32 then { e with ped := { e.ped with count := 0, due := true } }
  else { e with ped := { e.ped with count := e.ped.count + 1 } }

/-! ## Commands and holds (R162, R163, R165, R166) -/

/-- A mapping in a reply: channel, kind, argument, low, high, deadband, applied position (R166; entry
25). -/
def mappingFields (m : Mapping) : List ReplyItem :=
  [natField m.channel.val, natField m.target.code, optField m.target.argument, natField m.low,
   natField m.high, natField m.deadband, optField m.applied]

/-- One entry of the pedal report (R166; entry 25). -/
def entryReport (e : Engine) (i : MapIx) : List ReplyItem :=
  match e.ped.map[i] with
  | some m => flagField false :: mappingFields m ++ [natField (targetValue e m.target)]
  | none => flagField true :: List.replicate 8 absentField

/-- The pedal report (R166). -/
def pedalReport (e : Engine) : List ReplyItem :=
  [flagField e.ped.held, natField e.ped.count]
    ++ quadIxs.flatMap (fun i =>
      [natField e.ped.chan[i].raw, natField e.ped.chan[i].smooth, flagField e.ped.chan[i].seed])
    ++ mapIxs.flatMap (entryReport e)

/-- Another entry holds the target (R162 check 3). -/
def targetTaken (e : Engine) (i : MapIx) (t : PedalTarget) : Bool :=
  mapIxs.any fun j => j != i && (match e.ped.map[j] with | some m => m.target == t | none => false)

/-- PEDAL_MAP (R162). DESIGN CHOICE (entry 75): the entry as now in force stands in the reply as its mapping, without its
number and without an empty flag. -/
def pedalMap (b : List Byte) (e : Engine) : Engine × Answer :=
  if b.length = 0 then (e, { status := .ok, data := pedalReport e })
  else if b.length ≠ 9 then refuse .badLength e
  else
    match ix? 8 (fieldAt b 0 1), ix? 4 (fieldAt b 1 1), pedalTarget? (fieldAt b 2 1) (fieldAt b 3 1) with
    | some i, some ch, some t =>
      if targetTaken e i t then refuse .conflict e
      else
        let low := clampNat 0 t.top (fieldAt b 4 2)
        let high := clampNat 0 t.top (fieldAt b 6 2)
        let band := clampNat 0 31 (fieldAt b 8 1)
        let changed := !(low == fieldAt b 4 2 && high == fieldAt b 6 2 && band == fieldAt b 8 1)
        let m : Mapping :=
          { channel := ch, target := t, low := low, high := high, deadband := band, applied := none }
        (modMap i (fun _ => some m) e,
         { status := clampStatus changed,
           data := mappingFields m ++ [natField e.ped.chan[ch].raw, natField e.ped.chan[ch].smooth] })
    | _, _, _ => refuse .outOfRange e

/-- PEDAL_UNMAP (R163). -/
def pedalUnmap (b : List Byte) (e : Engine) : Engine × Answer :=
  if b.length ≠ 1 then refuse .badLength e
  else
    match ix? 8 (fieldAt b 0 1) with
    | none => refuse .outOfRange e
    | some i =>
      match e.ped.map[i] with
      | none => refuse .notFound e
      | some m => (modMap i (fun _ => none) e, { status := .ok, data := mappingFields m })

/-- The sampler is held (R165). -/
def holdPedals (e : Engine) : Engine := { e with ped := { e.ped with held := true } }

/-- The sampler is released: every channel is seeded (R165). -/
def releasePedals (e : Engine) : Engine :=
  if e.ped.held then
    { e with ped := { e.ped with
        held := false,
        chan := quadIxs.foldl (fun ch i => upd ch i fun c => { c with seed := true }) e.ped.chan } }
  else e

end Sys2Proof.Machine
end

