-- ==== Sys2Proof/Machine/Ports.lean ====
section
/-! DEFINITION. The clock controller, the input ports and the lanes (R143 to R158): relock, adoption of P0
and fallback, lock states, judging of port frames, the elastic buffer, the lane samples, and the commands
PORT_SET, LANE_SET and LANE_QUERY. CLOCK_SET, whose relock also ends the frame for the cues, is in
Machine/Commands.lean. -/

namespace Sys2Proof.Machine

/-! ## Engine frames (R143, R153) -/

/-- The engine clock delivers frames now: the PLL is LOCKED and no P0 frame need be awaited (R143,
R153). -/
def framesRun (c : Clock) : Bool := c.pllLocked && (c.active == .internal || !c.p0Frames.isEmpty)

/-- P0 is bypassed: the active source is PORT0 (R153). -/
def bypassed (e : Engine) (p : PortIx) : Bool := p == 0 && e.clk.active == .port0

/-! ## A port that leaves LOCKED on the open frame (R149, R156; entry 51) -/

/-- A data entry for one of these positions holds the sample 0. -/
def Entry.silenced (taken : List (LayerIx × Nat × Nat)) (en : Entry) : Entry :=
  match en.body with
  | .data q _ => if (en.layer, en.key, q) ∈ taken then { en with body := .data q 0 } else en
  | .gap _ _ _ => en

/-- What a slot has taken from the lane on the open frame is 0: the writes it will make, when it records the lane, and
what a capture that has completed on the frame has staged. -/
def Slot.silenced (l : LaneIx) (taken : List (LayerIx × Nat × Nat)) (sl : Slot) : Slot :=
  { sl with
    pendingWrites := if sl.lane = some l then sl.pendingWrites.map fun w => { w with x := 0 } else sl.pendingWrites,
    staging := sl.staging.map (Entry.silenced taken) }

/-- A pending cue is as it would be without the onset, but for a deferral it would have met without it too. -/
def Cue.uncount (without : List Cue) (c : Cue) : Cue :=
  match without.find? fun w => w.number == c.number && w.action == c.action && w.target == c.target with
  | some w => if w.remaining = 0 ∧ w.deferrals < c.deferrals then c else w
  | none => c

/-- The last report of the open frame that equals this one, LOST mark apart, leaves the queue; the LOST mark it bore is
set again. -/
def EventQueue.unreport (q : EventQueue) (r : Report) : EventQueue :=
  match q.list.reverse.find? fun x => x.event == r.event && x.k == r.k && x.p == r.p with
  | some x => { q with list := (q.list.reverse.erase x).reverse, lost := q.lost || x.lost }
  | none => q

/-- A detector onset of the open frame is taken back: the follower is as it would be without it, and so are the pending
cues and the follower's reports. A cue it made due that has executed stands (entry 51). -/
def unhear (h : Heard) (e : Engine) : Engine :=
  let kept := (h.said.diff h.unsaid).foldl EventQueue.unreport e.evq
  { e with
    heard := none, fol := h.without,
    cues := { e.cues with list := e.cues.list.map (Cue.uncount h.cues) },
    evq := (h.unsaid.diff h.said).foldl (fun q r => queueReport r.event r.k r.p q) kept }

/-- The detector examines the sample 0 of the lane: an onset it made from another is taken back (R26, R156). -/
def deafen (l : LaneIx) (e : Engine) : Engine :=
  match e.heard with
  | some h => if h.lane = l then unhear h e else e
  | none => e

/-- The lane's sample of the open frame is 0 after all: as the detector examines it, in its peak, in what the slots
write, in what a completed capture has staged, and in the pair (R26, R156). -/
def silenceLane (l : LaneIx) (e0 : Engine) : Engine :=
  let e := deafen l e0
  let ln := e.lanes[l]
  let e1 := modLane l (fun ln => { ln with x := 0, formed := none, peak := ln.peakBefore, taken := [] }) e
  let e2 := eachSlot (fun s => modSlot s (Slot.silenced l ln.taken)) e1
  { e2 with mix := e2.mix.shift (-ln.x.toInt) e2.mix.sums.live[l] }

/-- The lanes whose sample of the open frame came from the port read zero on it (R149, R156). -/
def silenceLanes (p : PortIx) (e : Engine) : Engine :=
  eachQuad (fun l e => if e.lanes[l].formed = some p then silenceLane l e else e) e

/-! ## Clock source (R143, R146) -/

/-- The active source becomes PORT0: P0's buffer is emptied and bypassed (R146). Frames of P0 that still wait from an
earlier time as the clock source make their engine frames first (R153; entry 18). -/
def adoptPort0 (cause : ClockCause) (e : Engine) : Engine :=
  let e1 := { e with clk := { e.clk with active := .port0 } }
  let e2 := modPort 0 (fun q =>
    { q with buf := [], filling := false, recovery := .none, slip := 0, slipEnds := false }) e1
  post (.clockSource .port0 cause) e2

/-- The fallback: active and selected source become INTERNAL (R146). -/
def fallback (e : Engine) : Engine :=
  post (.clockSource .internal .fallback)
    { e with clk := { e.clk with active := .internal, selected := .internal } }

/-- Frames of a port that has left LOCKED no longer wait to make engine frames (R153; entry 18). -/
def dropWaiting (p : PortIx) (e : Engine) : Engine :=
  if p = 0 then { e with clk := { e.clk with p0Frames := [] } } else e

/-! ## Lock states (R149) -/

/-- What a port loses when it leaves LOCKED or is disabled: buffer, runs, recovery, last frame (R147,
R149). -/
def Port.emptied (q : Port) : Port :=
  { q with good := 0, bad := 0, buf := [], filling := false, recovery := .none, slip := 0, last := (0, 0),
           slipEnds := false }

/-- A slip recovery in progress ends with SLIP (R149). -/
def endRecovery (p : PortIx) (e : Engine) : Engine :=
  let q := e.ports[p]
  if q.recovery = .none then e
  else
    post (.slip p q.recovery q.slip)
      (modPort p (fun q => { q with recovery := .none, slip := 0, slipEnds := false }) e)

/-- The port takes the lock state SEARCHING or DISABLED: the lanes of one that was LOCKED read zero, SLIP, LANE_LOCK, and
the fallback when P0 was the active source (R146, R149). A port in that state already keeps it. -/
def dropLock (p : PortIx) (k : Lock) (e : Engine) : Engine :=
  if e.ports[p].lock = k then e
  else
    let e1 := modPort p (fun q => { q.emptied with lock := k, markerSeen := q.markerSeen && q.lock != .disabled })
      (endRecovery p e)
    if e.ports[p].lock = .locked then
      let e2 := post (.laneLock p k) (dropWaiting p (silenceLanes p e1))
      if bypassed e p then fallback e2 else e2
    else post (.laneLock p k) e1

/-- LOCK_ACQUIRED is due: the good run has reached 8 (R149). -/
def lockDue (q : Port) : Bool := q.lock == .searching && decide (8 ≤ q.good)

/-- The port becomes LOCKED, and P0 the active source when PORT0 is selected (R146, R149). -/
def acquireLock (p : PortIx) (e : Engine) : Engine :=
  if lockDue e.ports[p] then
    let e1 := post (.laneLock p .locked)
      (modPort p (fun q => { q with lock := .locked, bad := 0, filling := true, buf := [] }) e)
    if p = 0 ∧ e.clk.selected = .port0 ∧ e.clk.pllLocked = true then adoptPort0 .lock e1 else e1
  else e

/-- LOCK_LOST is due: the bad run has reached 4 (R149). -/
def lockLostDue (q : Port) : Bool := q.lock == .locked && decide (4 ≤ q.bad)

/-- A judged frame finds the port SEARCHING: the good run rises, or returns to 0 (R149). -/
def Port.search (good : Bool) (q : Port) : Port := { q with good := if good then min 8 (q.good + 1) else 0 }

/-- The port returns to SEARCHING (R149); frames of P0 that were judged after the fourth bad one and have made no
engine frame find it SEARCHING (R153; entry 18). -/
def loseLock (p : PortIx) (e : Engine) : Engine :=
  if lockLostDue e.ports[p] then
    let waiting := if p = 0 then e.clk.p0Frames else []
    modPort p (fun q => waiting.foldl (fun q w => q.search w.isSome) q) (dropLock p .searching e)
  else e

/-! ## Relock (R144) -/

/-- A port at the start of a relock: SEARCHING again, its runs 0 (R144, R149). -/
def relockPort (p : PortIx) (e : Engine) : Engine :=
  if e.ports[p].lock = .locked then dropLock p .searching e
  else modPort p (fun q => { q with good := 0 }) e

/-- Nothing is on the output port while no frames come (R138). -/
def muteOutput (e : Engine) : Engine := { e with mix := { e.mix with computed := none, sending := none } }

/-- A relock begins at a rate (R144): UNLOCKED, source INTERNAL, ports to SEARCHING, no frames and nothing
on the output port until it ends. The frame that ends with it keeps what is its own: a sampling event that is still due
on it is carried out (R159; entry 11), and OUTPUT_CLIP tells of the pair that its lanes, silenced by the ports that leave
LOCKED, are left with (R139, R156; entry 13). The cues that are still due on it execute once the command has its
effects (`clockSet`; entry 76). -/
def beginRelock (rate : Nat) (e : Engine) : Engine :=
  let e0 := samplingEvent e.ped.pins e
  let e1 := post (.pllLock false rate)
    { e0 with clk := { e0.clk with
        rate := rate, pllLocked := false, frameOpen := false, p0Frames := [], startRelock := false } }
  let e2 :=
    if e.clk.active = .port0 then
      post (.clockSource .internal .relock) { e1 with clk := { e1.clk with active := .internal } }
    else e1
  muteOutput (reportClip (eachQuad relockPort e2))

/-- RELOCK_END: the PLL has settled (R144, R193). -/
def endRelock (e : Engine) : Engine :=
  if e.clk.pllLocked then e
  else
    let e1 := { e with clk := { e.clk with pllLocked := true, startRelock := false } }
    if e.clk.startRelock then e1 else post (.pllLock true e.clk.rate) e1

/-! ## Port frames (R148, R150, R152) -/

/-- The number whose bits are given, least significant first. -/
def bitsNat : List Bool → Nat
  | [] => 0
  | b :: rest => (if b then 1 else 0) + 2 * bitsNat rest

/-- A data word from its 24 bits in the order received (R148). -/
def wordOf (lsbFirst : Bool) (bits : List Bool) : Sample :=
  BitVec.ofNat 24 (bitsNat (if lsbFirst then bits else bits.reverse))

/-- The left and right words of 48 data bits (R148). -/
def frameWords (lsbFirst : Bool) (bits : List Bool) : Sample × Sample :=
  (wordOf lsbFirst (bits.take 24), wordOf lsbFirst (bits.drop 24))

/-- A good frame is offered to the elastic buffer (R150, R152): no overrun begins during an underrun recovery, and
a frame that then finds the buffer full is discarded (entry 58). -/
def Port.offer (w : Sample × Sample) (q : Port) : Port :=
  match q.recovery with
  | .over => { q with slip := q.slip + 1 }
  | .under => if 16 ≤ q.buf.length then q else { q with buf := q.buf ++ [w] }
  | .none =>
    if 16 ≤ q.buf.length then { q with recovery := .over, slip := 1 }
    else { q with buf := q.buf ++ [w] }

/-- A P0 frame waits to make its engine frame (R153). -/
def queueP0 (w : Option (Sample × Sample)) (e : Engine) : Engine :=
  { e with clk := { e.clk with p0Frames := e.clk.p0Frames ++ [w] } }

/-- A good frame (R149, R150, R153). -/
def goodFrame (p : PortIx) (w : Sample × Sample) (e : Engine) : Engine :=
  match e.ports[p].lock with
  | .disabled => e
  | .searching => modPort p (Port.search true) e
  | .locked =>
    if bypassed e p then queueP0 (some w) e else modPort p (fun q => { q with bad := 0 }.offer w) e

/-- A bad frame, or a silent period (R148, R149, R153). -/
def badFrame (p : PortIx) (e : Engine) : Engine :=
  match e.ports[p].lock with
  | .disabled => e
  | .searching => modPort p (Port.search false) e
  | .locked =>
    if bypassed e p then queueP0 none e else modPort p (fun q => { q with bad := q.bad + 1 }) e

/-! ## The elastic buffer's events (R150 to R152) -/

/-- ELASTIC_FILL_DONE is due: filling, and the level has reached the initial fill (R150). -/
def fillDue (q : Port) : Bool := q.lock == .locked && q.filling && decide (q.fill ≤ q.buf.length)

/-- The filling flag is cleared (R150; entry 35). -/
def fillDone (p : PortIx) (e : Engine) : Engine :=
  if fillDue e.ports[p] then modPort p (fun q => { q with filling := false }) e else e

/-- UNDERRUN_END or OVERRUN_END: the removal that ends the recovery has been made (R151, R152). -/
def slipEnd (kind : Recovery) (p : PortIx) (e : Engine) : Engine :=
  let q := e.ports[p]
  if q.slipEnds ∧ q.recovery = kind ∧ kind ≠ .none then endRecovery p e else e

/-- What is due on a port is settled (entry 3). -/
def settlePort (p : PortIx) (e : Engine) : Engine :=
  slipEnd .over p (slipEnd .under p (loseLock p (acquireLock p e)))

/-- A frame marker arrives with the data bits since the marker before it (R148). The first marker opens a
frame and closes none; a DISABLED port ignores it; while the PLL is UNLOCKED nothing is judged. -/
def portArrival (p : PortIx) (bits : List Bool) (e0 : Engine) : Engine :=
  let e := settlePort p e0
  let q := e.ports[p]
  if q.lock = .disabled then e
  else
    let judged :=
      if q.markerSeen = false ∨ e.clk.pllLocked = false then e
      else if bits.length = 48 then goodFrame p (frameWords q.frameLsb bits) e
      else badFrame p e
    modPort p (fun q => { q with markerSeen := true, frameLsb := q.lsbFirst }) judged

/-- A nominal frame period passes with no marker (R148). -/
def silentPeriod (p : PortIx) (e0 : Engine) : Engine :=
  let e := settlePort p e0
  if e.clk.pllLocked then badFrame p e else e

/-- The removal with filling clear (R150 to R152). -/
def Port.remove (q : Port) : Port :=
  match q.recovery, q.buf with
  | .under, w :: rest =>
    if q.fill ≤ q.buf.length then { q with buf := rest, last := w, slipEnds := true }
    else { q with slip := q.slip + 1 }
  | .under, [] => { q with slip := q.slip + 1 }
  | .none, w :: rest => { q with buf := rest, last := w }
  | .none, [] => { q with recovery := .under, slip := 1 }
  | .over, w :: rest => { q with buf := rest, last := w, slipEnds := decide (rest.length ≤ q.fill) }
  | .over, [] => { q with slipEnds := true }

/-- One removal for the engine frame (R150). -/
def removeFrame (p : PortIx) (e : Engine) : Engine :=
  if e.ports[p].lock ≠ .locked ∨ bypassed e p then e
  else
    let e1 := fillDone p e
    if e1.ports[p].filling then e1 else modPort p Port.remove e1

/-- A frame of a LOCKED P0 that makes an engine frame: its words and a bad run of 0, or the last frame repeated and
the bad run one longer (R149, R153). -/
def Port.source (w : Option (Sample × Sample)) (q : Port) : Port :=
  if q.lock ≠ .locked then q
  else
    match w with
    | some lr => { q with last := lr, bad := 0 }
    | none => { q with bad := q.bad + 1 }

/-- The P0 frame that makes this engine frame, if one waits: also one that was judged before the source changed to
INTERNAL (R153; entry 18). -/
def takeP0 (e : Engine) : Engine :=
  match e.clk.p0Frames with
  | [] => e
  | w :: rest => modPort 0 (Port.source w) { e with clk := { e.clk with p0Frames := rest } }

/-! ## Lanes (R156) -/

/-- The channel value, inverted when asked (R156 steps 1 and 2). -/
def Lane.value (ln : Lane) (lr : Sample × Sample) : Int :=
  let c := match ln.channel with
    | .left => lr.1.toInt
    | .right => lr.2.toInt
    | .sum => floorDiv (lr.1.toInt + lr.2.toInt) 2
  if ln.invert then clampInt (-8388608) 8388607 (-c) else c

/-- x = sat24(round(c x t / 4,096)) (R156 step 3). -/
def Lane.sample (ln : Lane) (lr : Sample × Sample) : Sample := sat24 (roundDiv (ln.value lr * ln.trim) 4096)

/-- The lane's sample of the frame: 0 without a source, without lock, on the frame that loses it, or while filling
(R149, R153, R156). -/
def laneSample (e : Engine) (ln : Lane) : Sample :=
  match ln.source with
  | none => 0
  | some p =>
    let q := e.ports[p]
    if q.lock = .locked ∧ q.filling = false ∧ lockLostDue q = false then ln.sample q.last else 0

/-- A lane on a frame: its sample, and its peak raised to the magnitude (R156). -/
def runLane (l : LaneIx) (e : Engine) : Engine :=
  let x := laneSample e e.lanes[l]
  modLane l (fun ln =>
    { ln with x := x, peak := max ln.peak (magnitude x), formed := ln.source, peakBefore := ln.peak, taken := [] }) e

/-- The lane's source port is LOCKED (R72). -/
def laneLocked (e : Engine) (l : LaneIx) : Bool :=
  match e.lanes[l].source with
  | some p => e.ports[p].lock == .locked
  | none => false

/-! ## Commands (R145, R154, R155, R157, R158) -/

/-- A port's settings and lock state (R154). -/
def portReply (q : Port) : List ReplyItem :=
  [flagField q.enabled, flagField q.lsbFirst, natField q.fill, flagField q.held, natField q.lock.code]

/-- The enabled flag of a port is set or cleared (R149, R154). -/
def enablePort (p : PortIx) (on : Bool) (e : Engine) : Engine :=
  let e1 := modPort p (fun q => { q with enabled := on }) e
  let q := e1.ports[p]
  if on = false then dropLock p .disabled e1
  else if q.lock = .disabled ∧ q.held = false then dropLock p .searching e1
  else e1

/-- PORT_SET (R154). -/
def portSet (b : List Byte) (e : Engine) : Engine × Answer :=
  if b.length ≠ 4 then refuse .badLength e
  else
    match ix? 4 (fieldAt b 0 1), flag? (fieldAt b 1 1), flag? (fieldAt b 2 1) with
    | some p, some on, some lsb =>
      let fill := clampNat 2 14 (fieldAt b 3 1)
      let e1 := enablePort p on (modPort p (fun q => { q with lsbFirst := lsb, fill := fill }) e)
      (e1, { status := clampStatus (fill != fieldAt b 3 1), data := portReply e1.ports[p] })
    | _, _, _ => refuse .outOfRange e

/-- A port is held (R155). -/
def holdPort (p : PortIx) (e : Engine) : Engine :=
  if e.ports[p].held then e else dropLock p .disabled (modPort p (fun q => { q with held := true }) e)

/-- A port is released (R155). -/
def releasePort (p : PortIx) (e : Engine) : Engine :=
  if e.ports[p].held then
    let e1 := modPort p (fun q => { q with held := false }) e
    if e.ports[p].enabled then dropLock p .searching e1 else e1
  else e

/-- A lane's four values (R157). -/
def laneReply (ln : Lane) : List ReplyItem :=
  [natField (laneSourceCode ln.source), natField ln.channel.code, flagField ln.invert, natField ln.trim]

/-- LANE_SET (R157). -/
def laneSet (b : List Byte) (e : Engine) : Engine × Answer :=
  if b.length ≠ 6 then refuse .badLength e
  else
    match ix? 4 (fieldAt b 0 1), laneSource? (fieldAt b 1 1), channel? (fieldAt b 2 1), flag? (fieldAt b 3 1) with
    | some l, some src, some ch, some inv =>
      let trim := clampNat 0 16383 (fieldAt b 4 2)
      let e1 := modLane l (fun ln => { ln with source := src, channel := ch, invert := inv, trim := trim }) e
      (e1, { status := clampStatus (trim != fieldAt b 4 2), data := laneReply e1.lanes[l] })
    | _, _, _, _ => refuse .outOfRange e

/-- The clock state (R145, R158). -/
def clockReply (c : Clock) : List ReplyItem :=
  [natField c.rate, natField c.selected.code, natField c.active.code, flagField c.pllLocked]

/-- P0's buffer takes up normal operation from empty; while it fills, its lanes read zero (R145, R150). -/
def refillPort0 (e : Engine) : Engine :=
  silenceLanes 0 (modPort 0 (fun q => { q with buf := [], filling := true }) e)

/-- The selected source changes (R145, R146). Frames of P0 that wait then still make their engine frames (R153;
entry 18). -/
def selectSource (src : ClockSource) (e : Engine) : Engine :=
  let e1 := { e with clk := { e.clk with selected := src } }
  match src with
  | .port0 =>
    if e.ports[(0 : PortIx)].lock = .locked ∧ e.clk.pllLocked = true then adoptPort0 .set e1 else e1
  | .internal =>
    if e.clk.active = .port0 then
      refillPort0 (post (.clockSource .internal .set)
        { e1 with clk := { e1.clk with active := .internal } })
    else e1

/-- A port's state as LANE_QUERY gives it (R158). -/
def portFields (q : Port) : List ReplyItem :=
  [flagField q.enabled, flagField q.lsbFirst, flagField q.held, natField q.lock.code, natField q.good,
   natField q.bad, natField q.buf.length, natField q.fill, flagField q.filling, natField q.recovery.code,
   natField q.slip]

/-- LANE_QUERY; the lane's peak returns to 0 after the reply is formed (R158). -/
def laneQuery (b : List Byte) (e : Engine) : Engine × Answer :=
  if b.length ≠ 1 then refuse .badLength e
  else
    match ix? 4 (fieldAt b 0 1) with
    | none => refuse .outOfRange e
    | some l =>
      let ln := e.lanes[l]
      let port := match ln.source with
        | some p => portFields e.ports[p]
        | none => []
      (modLane l (fun ln => { ln with peak := 0, peakBefore := 0 }) e,
       { status := .ok, data := laneReply ln ++ [natField ln.peak] ++ port ++ clockReply e.clk })

end Sys2Proof.Machine
end

