-- ==== Sys2Proof/Machine/Cues.lean ====
section
/-! DEFINITION. The cue queue (R61 to R80): acceptance against the predicted state, numbering, superseding,
cancelling, and the execution of each action, in its turn or as the frame ends. -/

namespace Sys2Proof.Machine

/-! ## The queue (R61, R62, R70) -/

/-- The pending cue of a target (R61). -/
def cueFor (t : Target) (e : Engine) : Option Cue := e.cues.list.find? fun c => c.target == t

/-- The pending cue with a number (R67). -/
def cueNumbered (n : Nat) (e : Engine) : Option Cue := e.cues.list.find? fun c => c.number == n

/-- A cue leaves the queue. -/
def removeCue (n : Nat) (e : Engine) : Engine :=
  { e with cues := { e.cues with list := e.cues.list.filter fun c => c.number != n } }

/-- The first cue of a list that is due and of the least wave (R70; entry 28). -/
def firstDue : List Cue → Option Cue
  | [] => none
  | c :: rest =>
    if c.remaining = 0 then
      match firstDue rest with
      | some d => if d.wave < c.wave then some d else some c
      | none => some c
    else firstDue rest

/-- The cue whose turn it is to execute (R70). -/
def nextDue (e : Engine) : Option Cue := firstDue e.cues.list

/-- The cue number after `n` (R62). -/
def succNumber (n : Nat) : Nat := if 65535 ≤ n then 1 else n + 1

/-- The first number from `n` on that no pending cue holds (R62). -/
def freeNumber (pending : List Nat) : Nat → Nat → Nat
  | 0, n => n
  | fuel + 1, n => if n ∈ pending then freeNumber pending fuel (succNumber n) else n

/-! ## Execution of the actions (R71 to R79): each gives the engine and the reason of its failure -/

/-- What an action did. -/
abbrev Outcome := Engine × Option FailReason

/-- The action succeeded. -/
def done (e : Engine) : Outcome := (e, none)

/-- The action failed with no effect of its own. -/
def failed (r : FailReason) (e : Engine) : Outcome := (e, some r)

/-- RECORD, its lane being locked (R45, R46, R73). -/
def recordCue (n : Nat) (lane : LaneIx) (number : Nat) (l : LayerIx) (e : Engine) : Outcome :=
  let r := e.layers[l]
  if r.state ≠ .armed then failed .wrongState e
  else
    match e.cyc.state with
    | .unset =>
      if r.hold ≠ .none then failed .layerHeld e
      else
        match freeSlot? e with
        | none => failed .noSlot e
        | some s => done (startBase s l lane number e)
    | .running =>
      if r.hold ≠ .none then failed .layerHeld e
      else
        match freeSlot? e with
        | none => failed .noSlot e
        | some s =>
          match allocChain (pagesFor (n * e.cyc.c)) e with
          | (none, e1) => failed .noSpace e1
          | (some pages, e1) => done (startFixed s l n lane pages number e1)
    | _ => failed .wrongState e

/-- The base capture of layer `l` is closed or, too short, discarded (R5, R6). -/
def closeBaseCue (l : LayerIx) (count number wave : Nat) (e : Engine) : Outcome :=
  if count < Config.minCycle then failed .tooShort (leaveBase (emptyLayer l .discard number e))
  else done (closeBase l count .cue number wave e)

/-- CLOSE (R74). -/
def closeCue (number wave : Nat) (l : LayerIx) (e : Engine) : Outcome :=
  if e.layers[l].state ≠ .capturing then failed .wrongState e
  else
    match baseCapture e with
    | some (b, count) => if b = l then closeBaseCue l count number wave e else done (closeEarly l number e)
    | none => done (closeEarly l number e)

/-- OVERDUB, its lane being locked (R49, R75, R109). -/
def overdubCue (lane : LaneIx) (level feedback number : Nat) (l : LayerIx) (e : Engine) : Outcome :=
  let r := e.layers[l]
  if e.cyc.state ≠ .running then failed .wrongState e
  else if r.state ≠ .playing ∨ r.written.isSome = true then failed .wrongState e
  else if r.hold ≠ .none then failed .layerHeld e
  else
    match freeSlot? e with
    | none => failed .noSlot e
    | some s =>
      let need := pagesFor (layerLen e l)
      let own := chainPageCount r.redo + chainPageCount r.undo
      let e1 := reclaimWalk need own (some l) e.mem.age e
      if e1.mem.free.length + own < need then failed .noSpace e1
      else done (startOverdub s l lane level feedback number e1)

/-- OVERDUB_END (R50, R75). -/
def overdubEndCue (number : Nat) (l : LayerIx) (e : Engine) : Outcome :=
  if e.layers[l].state = .overdubbing then done (finishOverdub l number e) else failed .wrongState e

/-- PLAY (R51, R76). -/
def playCue (number : Nat) (l : LayerIx) (e : Engine) : Outcome :=
  if e.layers[l].state = .stopped then done (playLayer l number e) else failed .wrongState e

/-- A layer is PLAYING or OVERDUBBING. -/
def sounding (e : Engine) (l : LayerIx) : Bool :=
  e.layers[l].state == .playing || e.layers[l].state == .overdubbing

/-- STOP (R48, R76). -/
def stopCue (number : Nat) (l : LayerIx) (e : Engine) : Outcome :=
  if sounding e l then done (stopLayer l number e) else failed .wrongState e

/-- MUTE and UNMUTE (R54, R76). -/
def muteCue (on : Bool) (l : LayerIx) (e : Engine) : Outcome :=
  if e.layers[l].state = .empty then failed .wrongState e
  else done (modLayer l (fun r => { r with mute := on }) e)

/-- A layer is PLAYING or STOPPED. -/
def settled (e : Engine) (l : LayerIx) : Bool :=
  e.layers[l].state == .playing || e.layers[l].state == .stopped

/-- UNDO (R55, R77). -/
def undoCue (l : LayerIx) (e : Engine) : Outcome :=
  if e.layers[l].hold ≠ .none then failed .layerHeld e
  else if settled e l = false ∨ e.layers[l].undo.isNone = true then failed .wrongState e
  else done (undoLayer l e)

/-- REDO (R55, R77). -/
def redoCue (l : LayerIx) (e : Engine) : Outcome :=
  if e.layers[l].hold ≠ .none then failed .layerHeld e
  else if settled e l = false ∨ e.layers[l].redo.isNone = true then failed .wrongState e
  else done (redoLayer l e)

/-- CLEAR of a layer whose hold is NONE (R56): the layer, the base capture, the return to UNSET. -/
def clearLayer (number : Nat) (l : LayerIx) (e : Engine) : Engine :=
  let e1 := if e.layers[l].state = .empty then e else emptyLayer l .cue number e
  let e2 := if e.cyc.base = some l then leaveBase e1 else e1
  unsetIfEmpty e2

/-- CLEAR (R56, R77). -/
def clearCue (number : Nat) (l : LayerIx) (e : Engine) : Outcome :=
  if e.layers[l].hold ≠ .none then failed .layerHeld e else done (clearLayer number l e)

/-- STOP_ALL (R57, R78). -/
def stopAllCue (number : Nat) (e : Engine) : Outcome :=
  done (eachLayer (fun l e => if sounding e l then stopLayer l number e else e) e)

/-- PLAY_ALL (R57, R78). -/
def playAllCue (number : Nat) (e : Engine) : Outcome :=
  done (eachLayer (fun l e => if e.layers[l].state = .stopped then playLayer l number e else e) e)

/-- The work in flight on one layer ends for a PAUSE (R52, R78). -/
def pauseLayer (number : Nat) (l : LayerIx) (e : Engine) : Engine :=
  match e.layers[l].state with
  | .overdubbing => finishOverdub l number e
  | .capturing => closeEarly l number e
  | _ => e

/-- PAUSE (R8, R78). -/
def pauseCue (number wave : Nat) (e : Engine) : Outcome :=
  match e.cyc.state with
  | .running => done (enterPaused (eachLayer (pauseLayer number) e))
  | .baseCapture =>
    match baseCapture e with
    | some (l, count) =>
      match closeBaseCue l count number wave e with
      | (e1, none) => done (enterPaused e1)
      | r => r
    | none => failed .wrongState e
  | _ => failed .wrongState e

/-- RESUME (R9, R78). -/
def resumeCue (e : Engine) : Outcome :=
  if e.cyc.state = .paused then done (setCycleState .running e) else failed .wrongState e

/-- Some layer's hold is PENDING or HELD. -/
def anyHeld (e : Engine) : Bool := layerIxs.any fun l => e.layers[l].hold != .none

/-- A RECORD cue is pending for the layer (R79). -/
def recordPending (e : Engine) (l : LayerIx) : Bool :=
  e.cues.list.any fun c => c.target == .layer l &&
    (match c.action with | .record _ _ => true | _ => false)

/-- CLEAR_ALL on one layer: it is emptied, and ends ARMED when a RECORD cue waits for it (R79). -/
def clearAllLayer (number : Nat) (l : LayerIx) (e : Engine) : Engine :=
  if e.layers[l].state = .empty then e
  else if recordPending e l then setLayerState l .armed .cue number (releaseLayer l e)
  else emptyLayer l .cue number e

/-- CLEAR_ALL (R57, R79). -/
def clearAllCue (number : Nat) (e : Engine) : Outcome :=
  if anyHeld e then failed .layerHeld e
  else
    let e1 := eachLayer (clearAllLayer number) e
    match e.cyc.state with
    | .baseCapture => done (leaveBase e1)
    | .running | .paused => done (returnToUnset e1)
    | .unset => done e1

/-- The action on its target (R71). -/
def actOn (c : Cue) (e : Engine) : Outcome :=
  match c.action, c.target with
  | .record n lane, .layer l => recordCue n lane c.number l e
  | .close, .layer l => closeCue c.number (c.wave + 1) l e
  | .overdub lane level feedback, .layer l => overdubCue lane level feedback c.number l e
  | .overdubEnd, .layer l => overdubEndCue c.number l e
  | .play, .layer l => playCue c.number l e
  | .stop, .layer l => stopCue c.number l e
  | .mute, .layer l => muteCue true l e
  | .unmute, .layer l => muteCue false l e
  | .undo, .layer l => undoCue l e
  | .redo, .layer l => redoCue l e
  | .clear, .layer l => clearCue c.number l e
  | .stopAll, _ => stopAllCue c.number e
  | .playAll, _ => playAllCue c.number e
  | .pause, _ => pauseCue c.number (c.wave + 1) e
  | .resume, _ => resumeCue e
  | .clearAll, _ => clearAllCue c.number e
  | _, .all => failed .wrongState e

/-! ## A due cue (R71, R72) -/

/-- A cue is put off for its lane (R72). -/
def deferCue (n : Nat) (e : Engine) : Engine :=
  { e with cues := { e.cues with list := e.cues.list.map fun c =>
      if c.number = n then { c with deferrals := min 4 (c.deferrals + 1), remaining := 1, wave := 0 } else c } }

/-- The layer of a RECORD cue that left the queue without starting a capture returns to EMPTY (R44). -/
def disarmFor (c : Cue) (e : Engine) : Engine :=
  match c.action, c.target with
  | .record _ _, .layer l => disarm l c.number e
  | _, _ => e

/-- The reports of an execution: CUE_DONE with the k of the frame, or CUE_FAILED and the return of an ARMED
layer, and then the holds that can be granted (R71, R77, R168). -/
def reportCue (c : Cue) (k : Nat) (out : Outcome) : Engine :=
  match out.2 with
  | none => grantHolds (post (.cueDone c.number c.target c.action k) out.1)
  | some r => grantHolds (disarmFor c (post (.cueFailed c.number c.target c.action r) out.1))

/-- A due cue executes, fails, or is deferred for its lane (R71, R72). CUE_DONE carries the k before the cue
executed, for a CLEAR by R77, and for a CLEAR_ALL too (entry 59). -/
def executeCue (c : Cue) (e : Engine) : Engine :=
  let e1 := removeCue c.number e
  match c.action.lane? with
  | none => reportCue c e.cyc.k (actOn c e1)
  | some lane =>
    if laneLocked e lane then reportCue c e.cyc.k (actOn c e1)
    else if c.deferrals < 4 then deferCue c.number e
    else reportCue c e.cyc.k (failed .laneNotLocked e1)

/-- The due cue executes if its action is the one the row names (R70). -/
def runDue (want : Action → Bool) (e : Engine) : Engine :=
  match nextDue e with
  | some c => if want c.action then executeCue c e else e
  | none => e

/-! ## What is still due on the frame that ends (entry 3) -/

/-- The due cues, each in its turn (R70). The queue holds at most 12. -/
def runCues : Nat → Engine → Engine
  | 0, e => e
  | fuel + 1, e =>
    match nextDue e with
    | some c => runCues fuel (executeCue c e)
    | none => e

/-- The auto-close, the cues, and a coast their boundaries made due (R4, R32, R70). -/
def settleCues (e : Engine) : Engine := coast (runCues 24 (autoClose e))

/-! ## Acceptance (R63, R64) -/

/-- The payload length an action calls for (R63 check 1, R186; entry 24). -/
def cueLength (action : Nat) : List Nat :=
  if action = 0 then [6] else if action = 2 then [9] else if action < 16 then [4] else [4, 6, 9]

/-- A cue as its payload asks for it: checks 2 to 6 of R63, the count given apart. -/
structure CueAsk where
  target : Target
  action : Action
  quantum : Quantum
  count : Nat
  changed : Bool
  deriving DecidableEq, Repr

/-- The target byte (R186). -/
def target? (x : Nat) : Option Target := if x = 255 then some .all else (ix? 16 x).map .layer

/-- The action of a code, with its arguments from the payload; clamped weights (R63). -/
def action? (code : Nat) (b : List Byte) : Option Action :=
  match code with
  | 0 =>
    match ix? 4 (fieldAt b 5 1) with
    | some lane => if legalMultiple (fieldAt b 4 1) then some (.record (fieldAt b 4 1) lane) else none
    | none => none
  | 1 => some .close
  | 2 =>
    match ix? 4 (fieldAt b 4 1) with
    | some lane =>
      some (.overdub lane (clampNat 0 32768 (fieldAt b 5 2)) (clampNat 0 32768 (fieldAt b 7 2)))
    | none => none
  | 3 => some .overdubEnd
  | 4 => some .play
  | 5 => some .stop
  | 6 => some .mute
  | 7 => some .unmute
  | 8 => some .undo
  | 9 => some .redo
  | 10 => some .clear
  | 11 => some .stopAll
  | 12 => some .playAll
  | 13 => some .pause
  | 14 => some .resume
  | 15 => some .clearAll
  | _ => none

/-- Clamping changed the level or the feedback of an OVERDUB (R63). -/
def cueClamped (code : Nat) (b : List Byte) : Bool :=
  code == 2 && (decide (32768 < fieldAt b 5 2) || decide (32768 < fieldAt b 7 2))

/-- Checks 3 to 5 of R63: target, count and quantum suit the action. -/
def CueAsk.suits (a : CueAsk) : Bool :=
  (a.action.onAll == (a.target == .all))
    && (a.quantum == .immediate || (decide (1 ≤ a.count) && decide (a.count ≤ 4)))
    && !(a.quantum == .layer && (a.target == .all || a.action.code == 0))
    && !(a.action == .resume && a.quantum != .immediate && a.quantum != .onset)

/-- The cue a payload asks for, if checks 2 to 6 of R63 pass. -/
def cueAsk? (b : List Byte) : Option CueAsk :=
  match target? (fieldAt b 0 1), action? (fieldAt b 1 1) b, quantum? (fieldAt b 2 1) with
  | some t, some a, some q =>
    let ask : CueAsk :=
      { target := t, action := a, quantum := q, count := fieldAt b 3 1,
        changed := cueClamped (fieldAt b 1 1) b }
    if ask.suits then some ask else none
  | _, _, _ => none

/-- The predicted state of a layer and whether it keeps undo and redo chains (R64). -/
def predicted (e : Engine) (l : LayerIx) : LayerState × Bool × Bool :=
  let r := e.layers[l]
  let here := if r.state = .armed then .empty else r.state
  match (cueFor .all e).map Cue.action with
  | some .stopAll =>
    (if here = .playing ∨ here = .overdubbing then .stopped else here, r.undo.isSome, r.redo.isSome)
  | some .playAll => (if here = .stopped then .playing else here, r.undo.isSome, r.redo.isSome)
  | some .pause =>
    (if here = .overdubbing ∨ here = .capturing then .playing else here, r.undo.isSome, r.redo.isSome)
  | some .clearAll => (.empty, false, false)
  | _ => (here, r.undo.isSome, r.redo.isSome)

/-- The hold condition (R64, check 8 of R63). -/
def holdAllows (a : CueAsk) (e : Engine) : Bool :=
  match a.target with
  | .layer l => !(a.action.writing && e.layers[l].hold != .none)
  | .all => !(a.action == .clearAll && anyHeld e)

/-- The predicted-state condition of an action (R64, check 9 of R63). -/
def stateAllows (a : CueAsk) (e : Engine) : Bool :=
  match a.target with
  | .all => true
  | .layer l =>
    let (st, undo, redo) := predicted e l
    match a.action with
    | .record _ _ => st == .empty
    | .close => st == .capturing
    | .overdub _ _ _ => st == .playing
    | .overdubEnd => st == .overdubbing
    | .play => st == .stopped
    | .stop => st == .playing || st == .overdubbing
    | .mute | .unmute => st != .empty
    | .undo => (st == .playing || st == .stopped) && undo
    | .redo => (st == .playing || st == .stopped) && redo
    | _ => true

/-- A pending cue is superseded by the cue `by` (R65, R66). -/
def supersede (by' : Nat) (c : Cue) (e : Engine) : Engine :=
  disarmFor c (post (.cueSuperseded c.number c.target c.action by') (removeCue c.number e))

/-- The cues that a new cue supersedes, oldest first: that of the same target, or all under a CLEAR_ALL
(R65, R66). -/
def superseded (a : CueAsk) (e : Engine) : List Cue :=
  if a.action = .clearAll then e.cues.list else e.cues.list.filter fun c => c.target == a.target

/-- A RECORD's EMPTY layer becomes ARMED (R44, R65). -/
def armFor (a : CueAsk) (number : Nat) (e : Engine) : Engine :=
  match a.action, a.target with
  | .record _ _, .layer l =>
    if e.layers[l].state = .empty then setLayerState l .armed .cue number e else e
  | _, _ => e

/-- The record is added at the tail, and the next cue number moves on (R62, R65). -/
def appendCue (a : CueAsk) (number : Nat) (e : Engine) : Engine :=
  let c : Cue :=
    { number := number, action := a.action, target := a.target, quantum := a.quantum,
      remaining := if a.quantum = .immediate then 1 else a.count, deferrals := 0, wave := 0 }
  let list := e.cues.list ++ [c]
  { e with cues := { list := list, nextNumber := freeNumber (list.map Cue.number) 13 (succNumber number) } }

/-- An accepted cue (R65, R66): superseding, queueing, arming; then holds that can be granted (R168). -/
def acceptCue (a : CueAsk) (e : Engine) : Engine × Answer :=
  let number := e.cues.nextNumber
  let replaced := ((cueFor a.target e).map Cue.number).getD 0
  let e1 := (superseded a e).foldl (fun e c => supersede number c e) e
  let e2 := grantHolds (armFor a number (appendCue a number e1))
  (e2, { status := clampStatus a.changed,
         data := [natField number, natField replaced, natField e2.cues.list.length] })

/-- CUE (R63). -/
def cueCommand (b : List Byte) (e : Engine) : Engine × Answer :=
  if b.length ∉ cueLength (fieldAt b 1 1) ∨ b.length < 4 then refuse .badLength e
  else
    match cueAsk? b with
    | none => refuse .outOfRange e
    | some a =>
      if Config.maxCues ≤ e.cues.list.length then refuse .queueFull e
      else if holdAllows a e = false then refuse .layerHeld e
      else if stateAllows a e = false then refuse .wrongState e
      else acceptCue a e

/-- CUE_CANCEL (R67). -/
def cueCancel (b : List Byte) (e : Engine) : Engine × Answer :=
  if b.length ≠ 2 then refuse .badLength e
  else
    match cueNumbered (fieldAt b 0 2) e with
    | none => refuse .notFound e
    | some c =>
      (grantHolds (disarmFor c (removeCue c.number e)),
       { status := .ok, data := [natField c.target.code, natField c.action.code] })

end Sys2Proof.Machine
end

