-- ==== Sys2Proof/Machine/Mixer.lean ====
section
/-! DEFINITION. The mixer and the output port (R136 to R142): live envelopes, the sums, the clip
window, and the commands LAYER_MIX, LIVE_MIX, MASTER_SET and FADE_SET. -/

namespace Sys2Proof.Machine

/-! ## The sum (R137) -/

/-- The sides of MAIN. -/
inductive Side where
  | left | right
  deriving DecidableEq, Repr

/-- The pan weight of a side: pL = min(128, 2 x (128 - pan)), pR = min(128, 2 x pan) (R137). -/
def panWeight (side : Side) (pan : Nat) : Nat :=
  match side with
  | .left => min 128 (2 * (128 - pan))
  | .right => min 128 (2 * pan)

/-- One exact term: sample x gain x pan weight x envelope (R137). -/
def mixTerm (side : Side) (s : Sample) (gain pan env : Nat) : Int :=
  s.toInt * gain * panWeight side pan * env

/-- The term of a voice (R137). -/
def voiceTerm (side : Side) (e : Engine) (l : LayerIx) : Int :=
  mixTerm side e.voices[l].sample e.layers[l].gain e.layers[l].pan e.voices[l].env

/-- The term of a live lane (R136, R137). -/
def liveTerm (side : Side) (e : Engine) (l : LaneIx) : Int :=
  mixTerm side e.lanes[l].x e.mix.live[l].gain e.mix.live[l].pan e.mix.live[l].env

/-- The sum of a side over voices and lanes (R137). -/
def sideSum (side : Side) (e : Engine) : Int :=
  (layerIxs.map (voiceTerm side e)).sum + (quadIxs.map (liveTerm side e)).sum

/-! ## The clip window (R139) -/

/-- The window count rises while the cycle does not run (R139). -/
def tickWindow (e : Engine) : Engine :=
  if e.cyc.state = .running then e else { e with mix := { e.mix with window := e.mix.window + 1 } }

/-- CLIP_WINDOW_END is due: the window count has reached Fs (R139). -/
def clipWindowDue (e : Engine) : Bool := e.cyc.state != .running && decide (e.clk.rate ≤ e.mix.window)

/-- The window ends: the flag is cleared and the count returns to 0 (R139). -/
def clipWindowEnd (e : Engine) : Engine :=
  if clipWindowDue e then { e with mix := { e.mix with clipReported := false, window := 0 } } else e

/-! ## One frame of the mixer (R136, R138) -/

/-- The live envelopes move one step (R131, R136). -/
def stepLive (e : Engine) : Engine :=
  let step := ceilDiv 4096 e.mix.fade
  { e with mix := { e.mix with
      live := quadIxs.foldl (fun lv i => upd lv i fun x => { x with env := envStep step x.target x.env })
        e.mix.live } }

/-- A voice's weight on a side: gain x pan weight x envelope (R137). -/
def voiceWeight (side : Side) (e : Engine) (l : LayerIx) : Nat :=
  e.layers[l].gain * panWeight side e.layers[l].pan * e.voices[l].env

/-- A lane's weight on a side: live gain x pan weight x live envelope (R137). -/
def liveWeight (side : Side) (e : Engine) (l : LaneIx) : Nat :=
  e.mix.live[l].gain * panWeight side e.mix.live[l].pan * e.mix.live[l].env

/-- The sums of a frame and the weights they are formed by (R137; entry 13). -/
def frameSums (e : Engine) : FrameMix :=
  { left := sideSum .left e, right := sideSum .right e, master := e.mix.master,
    weights := Vector.ofFn fun l => (voiceWeight .left e l, voiceWeight .right e l),
    live := Vector.ofFn fun l => (liveWeight .left e l, liveWeight .right e l) }

/-- The mixer on a frame (R136 to R139). -/
def mixFrame (e0 : Engine) : Engine :=
  let e := stepLive e0
  tickWindow { e with mix := e.mix.form (frameSums e) }

/-- RECOVERY: the voice, the overdub of its layer and the frame's pair, formed again with the sample the voice
now presents (R134, R137; entry 13). -/
def recoverFrame (l : LayerIx) (e : Engine) : Engine :=
  let e1 := recoverDone l e
  if e1.voices[l].rs = .reading then
    { e1 with mix := e1.mix.shift (e1.voices[l].sample.toInt - e.voices[l].sample.toInt) e1.mix.sums.weights[l] }
  else e1

/-- A new frame period: the output port sends the pair computed on the frame before (R138). -/
def shiftOutput (e : Engine) : Engine := { e with mix := { e.mix with sending := e.mix.computed } }

/-- The bits of a word, most significant first (R138). -/
def wordBits (x : Sample) : List Bool := (List.range 24).map fun i => x.getLsbD (23 - i)

/-- The data bits after the frame marker on the output port: the left word, then the right (R138); none
while nothing is sent. -/
def outputBits (mx : Mixer) : Option (List Bool) := mx.sending.map fun lr => wordBits lr.1 ++ wordBits lr.2

/-! ## Commands (R140 to R142) -/

/-- A layer's four mix values (R140). -/
def layerMixReply (r : Layer) : List ReplyItem :=
  [natField r.gain, natField r.pan, natField r.level, natField r.feedback]

/-- LAYER_MIX (R140). -/
def layerMix (b : List Byte) (e : Engine) : Engine × Answer :=
  if b.length ≠ 8 then refuse .badLength e
  else
    match ix? 16 (fieldAt b 0 1) with
    | none => refuse .outOfRange e
    | some l =>
      let gain := clampNat 0 8191 (fieldAt b 1 2)
      let pan := clampNat 0 128 (fieldAt b 3 1)
      let level := clampNat 0 32768 (fieldAt b 4 2)
      let feedback := clampNat 0 32768 (fieldAt b 6 2)
      let changed := !(gain == fieldAt b 1 2 && pan == fieldAt b 3 1 && level == fieldAt b 4 2
        && feedback == fieldAt b 6 2)
      let e1 := modLayer l (fun r => { r with gain := gain, pan := pan, level := level, feedback := feedback }) e
      (e1, { status := clampStatus changed, data := layerMixReply e1.layers[l] })

/-- A lane's live values (R141). -/
def liveReply (v : Live) : List ReplyItem := [natField v.gain, natField v.pan, flagField v.mute, natField v.env]

/-- LIVE_MIX (R141). -/
def liveMix (b : List Byte) (e : Engine) : Engine × Answer :=
  if b.length ≠ 5 then refuse .badLength e
  else
    match ix? 4 (fieldAt b 0 1), flag? (fieldAt b 4 1) with
    | some l, some mute =>
      let gain := clampNat 0 8191 (fieldAt b 1 2)
      let pan := clampNat 0 128 (fieldAt b 3 1)
      let changed := !(gain == fieldAt b 1 2 && pan == fieldAt b 3 1)
      let e1 := modLive l (fun v => { v with gain := gain, pan := pan, mute := mute }) e
      (e1, { status := clampStatus changed, data := liveReply e1.mix.live[l] })
    | _, _ => refuse .outOfRange e

/-- MASTER_SET (R141). -/
def masterSet (b : List Byte) (e : Engine) : Engine × Answer :=
  if b.length ≠ 2 then refuse .badLength e
  else
    let gain := clampNat 0 8191 (fieldAt b 0 2)
    ({ e with mix := { e.mix with master := gain } },
     { status := clampStatus (gain != fieldAt b 0 2), data := [natField gain] })

/-- FADE_SET (R142). -/
def fadeSet (b : List Byte) (e : Engine) : Engine × Answer :=
  if b.length ≠ 4 then refuse .badLength e
  else
    let f := clampNat 32 4096 (fieldAt b 0 2)
    let x := clampNat 32 256 (fieldAt b 2 2)
    ({ e with mix := { e.mix with fade := f, cross := x } },
     { status := clampStatus !(f == fieldAt b 0 2 && x == fieldAt b 2 2),
       data := [natField f, natField x, natField (ceilDiv 4096 f)] })

end Sys2Proof.Machine
end

