-- ==== Sys2Proof/Machine/Transfer.lean ====
section
/-! DEFINITION. Layer transfer (R167 to R174): LAYER_HOLD, LAYER_RELEASE, AUDIO_READ and AUDIO_WRITE. The
moving of the frames is in Machine/Memory.lean, with the grants. -/

namespace Sys2Proof.Machine

/-- A transfer of the layer is in flight. -/
def transferOf (e : Engine) (l : LayerIx) : Bool :=
  match e.xfer with
  | some t => t.layer == l
  | none => false

/-- Set or clear the release-waiting flag of the transfer of a layer (R174). -/
def setRelease (l : LayerIx) (on : Bool) (e : Engine) : Engine :=
  { e with xfer := e.xfer.map fun t => if t.layer = l then { t with release := on } else t }

/-- Give a layer's hold a value. -/
def setHold (l : LayerIx) (h : Hold) (e : Engine) : Engine := modLayer l (fun r => { r with hold := h }) e

/-- What LAYER_HOLD does to a layer, with its status (R167 orders 3 to 7). -/
def holdLayer (l : LayerIx) (n : Nat) (e : Engine) : Engine × Status :=
  match e.layers[l].hold with
  | .held => (setRelease l false e, .ok)
  | .pending => (e, .pending)
  | .none =>
    if e.layers[l].state = .empty then importLayer l n e
    else if holdConditions e l then (setHold l .held e, .ok)
    else (setHold l .pending e, .pending)

/-- The status refuses the command. -/
def Status.refuses : Status → Bool
  | .ok | .clamped | .pending => false
  | _ => true

/-- The reply of LAYER_HOLD: state, n, L, pages of the current chain, hold (R167). -/
def holdReply (e : Engine) (l : LayerIx) : List ReplyItem :=
  let r := e.layers[l]
  [natField r.state.code, natField (r.mult.getD 0), natField (layerLen e l),
   optField (r.cur.map List.length), natField r.hold.code]

/-- LAYER_HOLD (R167, R170). -/
def layerHold (b : List Byte) (e : Engine) : Engine × Answer :=
  if b.length ≠ 2 then refuse .badLength e
  else
    match ix? 16 (fieldAt b 0 1) with
    | none => refuse .outOfRange e
    | some l =>
      let out := holdLayer l (fieldAt b 1 1) e
      (out.1, { status := out.2, data := if out.2.refuses then [] else holdReply out.1 l })

/-- LAYER_RELEASE (R174). -/
def layerRelease (b : List Byte) (e : Engine) : Engine × Answer :=
  if b.length ≠ 1 then refuse .badLength e
  else
    match ix? 16 (fieldAt b 0 1) with
    | none => refuse .outOfRange e
    | some l =>
      match e.layers[l].hold with
      | .none => refuse .notHeld e
      | .pending => (setHold l .none e, { status := .ok, data := [] })
      | .held =>
        (if transferOf e l then setRelease l true e else setHold l .none e, { status := .ok, data := [] })

/-- A transfer is accepted, or refused by checks 3 to 5 of R171. An accepted one makes no answer yet. -/
def startTransfer (t : Transfer) (e : Engine) : Engine × Option Answer :=
  if e.layers[t.layer].hold ≠ .held then (e, some { status := .notHeld, data := [] })
  else if layerLen e t.layer < t.first + t.count then (e, some { status := .outOfRange, data := [] })
  else if e.xfer.isSome = true then (e, some { status := .busy, data := [] })
  else ({ e with xfer := some t }, none)

/-- AUDIO_READ (R171). -/
def audioRead (tag : Byte) (b : List Byte) (e : Engine) : Engine × Option Answer :=
  if b.length ≠ 7 then (e, some { status := .badLength, data := [] })
  else
    let count := fieldAt b 5 2
    match ix? 16 (fieldAt b 0 1) with
    | none => (e, some { status := .outOfRange, data := [] })
    | some l =>
      if count = 0 ∨ 340 < count then (e, some { status := .outOfRange, data := [] })
      else startTransfer
        { write := false, layer := l, first := fieldAt b 1 4, count := count, moved := 0, tag := tag,
          data := [], release := false } e

/-- AUDIO_WRITE (R171). -/
def audioWrite (tag : Byte) (b : List Byte) (e : Engine) : Engine × Option Answer :=
  if b.length < 8 ∨ 1019 < b.length ∨ (b.length - 5) % 3 ≠ 0 then (e, some { status := .badLength, data := [] })
  else
    match ix? 16 (fieldAt b 0 1) with
    | none => (e, some { status := .outOfRange, data := [] })
    | some l =>
      let xs := samplesOf (b.drop 5)
      startTransfer
        { write := true, layer := l, first := fieldAt b 1 4, count := xs.length, moved := 0, tag := tag,
          data := xs, release := false } e

end Sys2Proof.Machine
end

