-- ==== Sys2Proof/Machine/Commands.lean ====
section
/-! DEFINITION. The remaining commands that act on the engine (R7, R12, R27, R145, R182, R184) and the queries
(R18, R60, R125); the configuration commands by kind (R186, R192). -/

namespace Sys2Proof.Machine

/-! ## Cycle and event-queue commands -/

/-- GRID_SET on the cycle clock (R12). -/
def Cycle.grid (b : Nat) (c : Cycle) : Cycle :=
  match c.state with
  | .unset | .baseCapture => { c with beats := b, pendingBeats := none }
  | .running | .paused => { c with pendingBeats := if b = c.beats then none else some b }

/-- GRID_SET (R12). -/
def gridSet (b : List Byte) (e : Engine) : Engine × Answer :=
  if b.length ≠ 1 then refuse .badLength e
  else
    let n := clampNat 1 32 (fieldAt b 0 1)
    let e1 := { e with cyc := e.cyc.grid n }
    (e1, { status := clampStatus (n != fieldAt b 0 1),
           data := [natField e1.cyc.beats, optField e1.cyc.pendingBeats] })

/-- CYCLE_SET accepted with C frames (R7): its CYCLE boundary is a LAYER boundary for no layer; with frames running it is
made now, without them it is owed to the first frame that follows (entry 17). -/
def createCycle (len : Nat) (e : Engine) : Engine :=
  let e1 := noteGrid (startCycle len e)
  let e2 := if e.clk.frameOpen then bareBoundary 0 e1
    else { e1 with cyc := { e1.cyc with owedBoundary := true } }
  post (.cycleSet len e.cyc.beats) e2

/-- CYCLE_SET (R7). -/
def cycleSet (b : List Byte) (e : Engine) : Engine × Answer :=
  if b.length ≠ 4 then refuse .badLength e
  else if ¬(e.cyc.state = .unset ∧ allEmpty e = true) then refuse .wrongState e
  else
    let len := clampNat Config.minCycle Config.maxCycle (fieldAt b 0 4)
    (createCycle len e, { status := clampStatus (len != fieldAt b 0 4), data := [natField len] })

/-- TAP (R27): without frames the onset is owed to the first frame that follows (entry 17). -/
def tap (b : List Byte) (e : Engine) : Engine × Answer :=
  if b.length ≠ 0 then refuse .badLength e
  else if e.clk.frameOpen then (handOnset .tap e, { status := .ok, data := [] })
  else ({ e with cyc := { e.cyc with owedTaps := e.cyc.owedTaps + 1 } }, { status := .ok, data := [] })

/-- CLOCK_SET (R145). A change of rate begins the relock first; a change of source acts on what it leaves (entry 46).
A relock ends the open frame, so the cues still due on that frame execute on it, in the state that the command leaves (R70,
R144); that they come after the command, whose row the sender has sent before theirs, is a DESIGN CHOICE (entry 76). -/
def clockSet (b : List Byte) (e : Engine) : Engine × Answer :=
  if b.length ≠ 3 then refuse .badLength e
  else
    let rate := fieldAt b 0 2
    match clockSource? (fieldAt b 2 1) with
    | none => refuse .outOfRange e
    | some src =>
      if ¬(rate = 48000 ∨ rate = 44100) then refuse .outOfRange e
      else if rate = e.clk.rate ∧ src = e.clk.selected then (e, { status := .ok, data := clockReply e.clk })
      else if e.cyc.state ≠ .unset then refuse .wrongState e
      else
        let e1 := if rate = e.clk.rate then e else beginRelock rate e
        let e2 := if src = e.clk.selected then e1 else selectSource src e1
        (if rate = e.clk.rate then e2 else settleCues e2, { status := .ok, data := clockReply e2.clk })

/-- EVENT_MASK (R182). -/
def eventMask (b : List Byte) (e : Engine) : Engine × Answer :=
  if b.length = 4 then
    let mask : BitVec 24 := BitVec.ofNat 24 (fieldAt b 0 4)
    ({ e with evq := { e.evq with mask := mask } }, { status := .ok, data := [natField mask.toNat] })
  else if b.length = 0 then (e, { status := .ok, data := [natField e.evq.mask.toNat] })
  else refuse .badLength e

/-! ## Block holds (R184) -/

/-- Whether a block, by its number, is held. -/
def blockHeld (n : Nat) (e : Engine) : Bool :=
  if n = 0 then e.fol.held
  else match ix? 4 (n - 1) with
    | some p => e.ports[p].held
    | none => e.ped.held

/-- Hold a block (R39, R155, R165). -/
def holdBlock (n : Nat) (e : Engine) : Engine :=
  if n = 0 then holdFollower e
  else match ix? 4 (n - 1) with
    | some p => holdPort p e
    | none => holdPedals e

/-- Release a block (R40, R155, R165). -/
def releaseBlock (n : Nat) (e : Engine) : Engine :=
  if n = 0 then releaseFollower e
  else match ix? 4 (n - 1) with
    | some p => releasePort p e
    | none => releasePedals e

/-- The shape BLOCK_HOLD and BLOCK_RELEASE share (R184). -/
def blockCommand (act : Nat → Engine → Engine) (b : List Byte) (e : Engine) : Engine × Answer :=
  if b.length ≠ 1 then refuse .badLength e
  else
    let n := fieldAt b 0 1
    if 5 < n then refuse .outOfRange e
    else
      let e1 := act n e
      (e1, { status := .ok, data := [flagField (blockHeld n e1)] })

/-! ## Queries -/

/-- A chain of a layer record: presence and page count (R60, R180; entry 23). -/
def chainFields (chain : Option (List Nat)) : List ReplyItem :=
  [flagField chain.isSome, optField (chain.map List.length)]

/-- The first and last page numbers of a chain (R60). -/
def chainEnds (chain : Option (List Nat)) : List ReplyItem :=
  [optField ((chain.getD []).head?), optField ((chain.getD []).getLast?)]

/-- The cue pending for a layer: number, action, quantum, or none (R60). -/
def cueFields (c : Option Cue) : List ReplyItem :=
  match c with
  | some c => [natField c.number, natField c.action.code, natField c.quantum.code]
  | none => [absentField, absentField, absentField]

/-- The record LAYER_QUERY gives (R60); the target is the one R53 gives now, which the envelope follows from the
next frame (R131). -/
def layerRecord (e : Engine) (l : LayerIx) : List ReplyItem :=
  let r := e.layers[l]
  let v := e.voices[l]
  [natField r.state.code, natField (r.mult.getD 0), natField (layerLen e l)]
    ++ chainFields r.cur ++ chainFields r.undo ++ chainFields r.redo ++ chainEnds r.cur
    ++ [optField (r.written.map Prod.fst), optField (r.written.map Prod.snd),
        optField (r.slot.map Fin.val), natField r.hold.code, natField r.gain, natField r.pan,
        flagField r.mute, natField r.level, natField r.feedback, natField r.lastChange]
    ++ cueFields (cueFor (.layer l) e)
    ++ [optField (layerPos e l), natField v.env, natField (voiceTarget e l), natField v.rs.code]

/-- LAYER_QUERY (R60). -/
def layerQuery (b : List Byte) (e : Engine) : Engine × Answer :=
  if b.length ≠ 1 then refuse .badLength e
  else
    match ix? 16 (fieldAt b 0 1) with
    | none => refuse .outOfRange e
    | some l => (e, { status := .ok, data := layerRecord e l })

/-- C as CYCLE_QUERY gives it: the base capture's count in BASE_CAPTURE, 0 while UNSET (R18). -/
def reportedLength (e : Engine) : Nat :=
  match baseCapture e with
  | some (_, n) => if e.cyc.state = .baseCapture then n else e.cyc.c
  | none => e.cyc.c

/-- The tempo in hundredths of a beat per minute: round(6,000 x Fs x B / C), 0 while C is absent (R18). -/
def tempo (e : Engine) : Int :=
  match e.cyc.len with
  | some c => roundDiv (6000 * e.clk.rate * e.cyc.beats : Nat) c
  | none => 0

/-- CYCLE_QUERY (R18). -/
def cycleQuery (b : List Byte) (e : Engine) : Engine × Answer :=
  if b.length ≠ 0 then refuse .badLength e
  else
    let c := e.cyc
    (e, { status := .ok,
          data := [natField c.state.code, natField (reportedLength e), natField c.beats,
            optField c.pendingBeats, natField c.beatLength, natField c.p, natField c.frac, natField c.k,
            natField c.m, natField c.beat, natField c.splice.code, flagField c.spliceDone, .field (tempo e)] })

/-- The pages of one kind of chain over all layers (R125). -/
def totalPages (which : Layer → Option (List Nat)) (e : Engine) : Nat :=
  (layerIxs.map fun l => chainPageCount (which e.layers[l])).sum

/-- An age entry with its chain's page count (R125). -/
def ageFields (e : Engine) (a : LayerIx × AgeKind) : List ReplyItem :=
  let chain := match a.2 with | .undo => e.layers[a.1].undo | .redo => e.layers[a.1].redo
  [natField a.1.val, natField a.2.code, natField (chainPageCount chain)]

/-- A job with whether it runs and its progress (R125). -/
def jobFields (e : Engine) (running : Bool) (j : Job) : List ReplyItem :=
  let progress := match j.kind with
    | .finishCopy => (e.layers[j.layer].written.map Prod.snd).getD 0
    | .zeroFill => j.done
  [natField j.layer.val, natField j.kind.code, flagField running, natField progress]

/-- The jobs in list order; the head runs (R114, R125). -/
def jobList (e : Engine) : List ReplyItem :=
  match e.mem.jobs with
  | [] => []
  | j :: rest => jobFields e true j ++ rest.flatMap (jobFields e false)

/-- The grant in progress, or none (R125; entry 21). -/
def grantFields : Option Grant → List ReplyItem
  | some g => [natField g.cls, natField g.who.code, flagField g.write, natField g.count, natField g.left]
  | none => List.replicate 5 absentField

/-- A slot's staging level, data entries and open gap (R125). -/
def stagingFields (e : Engine) (s : SlotIx) : List ReplyItem :=
  [natField (stagingLevel e.slots[s]), natField (dataCount e.slots[s]), optField (openGap e.slots[s])]

/-- MEMORY_QUERY: the list of R125, and after it, by R174, the hold of each layer, which reads HELD while a release
waits. That the holds stand at the end is the model's choice (entry 57). -/
def memoryQuery (b : List Byte) (e : Engine) : Engine × Answer :=
  if b.length ≠ 0 then refuse .badLength e
  else
    (e, { status := .ok,
          data := [natField e.mem.free.length, optField e.mem.free.head?,
              natField (totalPages Layer.cur e), natField (totalPages Layer.undo e),
              natField (totalPages Layer.redo e), natField e.mem.age.length]
            ++ e.mem.age.flatMap (ageFields e) ++ [natField e.mem.jobs.length] ++ jobList e
            ++ grantFields e.mem.grant ++ slotIxs.flatMap (stagingFields e)
            ++ layerIxs.map (fun l => natField e.layers[l].hold.code) })

/-! ## Configuration commands by kind (R186, R192) -/

/-- The command of a kind that a setup entry may hold (R192). -/
def configCommand (kind : Nat) (b : List Byte) (e : Engine) : Engine × Answer :=
  match kind with
  | 1 => portSet b e
  | 2 => laneSet b e
  | 3 => clockSet b e
  | 4 => gridSet b e
  | 5 => followSet b e
  | 6 => layerMix b e
  | 7 => liveMix b e
  | 8 => masterSet b e
  | 9 => fadeSet b e
  | 10 => pedalMap b e
  | 11 => pedalUnmap b e
  | 12 => eventMask b e
  | 16 => cycleSet b e
  | 29 => blockCommand holdBlock b e
  | 30 => blockCommand releaseBlock b e
  | _ => refuse .unknownKind e

end Sys2Proof.Machine
end

