-- ==== Sys2Proof/Machine/Store.lean ====
section
/-! DEFINITION. The setup store (R188 to R192): its lists of entries, reading, writing word by word, the
interrupted word, and the apply of a setup. -/

namespace Sys2Proof.Machine

/-! ## Bytes and entries (R188) -/

/-- A byte of the store. -/
def storeByte (cells : List Host.Cell) (a : Nat) : Byte := cellRead cells a

/-- Consecutive bytes of the store. -/
def storeBytes (cells : List Host.Cell) : Nat → Nat → List Byte
  | 0, _ => []
  | n + 1, a => storeByte cells a :: storeBytes cells n (a + 1)

/-- What a search for a key finds. -/
inductive Found where
  | value (v : List Byte)
  | absent
  | malformed
  deriving DecidableEq, Repr

/-- Search the list from an offset to the end of its area (R188, R192). -/
def findEntry (cells : List Host.Cell) (stop : Nat) (k0 k1 : Byte) : Nat → Nat → Found
  | 0, _ => .absent
  | fuel + 1, a =>
    if stop ≤ a then .absent
    else if storeByte cells a = 0 then .absent
    else if stop < a + 3 then .malformed
    else
      let len := (storeByte cells (a + 2)).toNat
      if stop < a + 3 + len then .malformed
      else if storeByte cells a = k0 ∧ storeByte cells (a + 1) = k1 then
        .value (storeBytes cells len (a + 3))
      else findEntry cells stop k0 k1 fuel (a + 3 + len)

/-- Search the user list (R192). -/
def findUser (cells : List Host.Cell) (k0 k1 : Byte) : Found :=
  findEntry cells Config.storeSize k0 k1 Config.storeSize Config.userBase

/-- Search the factory list (R189). -/
def findFactory (cells : List Host.Cell) (k0 k1 : Byte) : Found :=
  findEntry cells Config.userBase k0 k1 Config.userBase 0

/-! ## IDENT and STORE_READ (R189) -/

/-- The factory values in order; after one that is not found every later one is empty (R189). -/
def identValues (cells : List Host.Cell) : List (Byte × Byte) → List (List Byte)
  | [] => []
  | (k0, k1) :: rest =>
    match findFactory cells k0 k1 with
    | .value v => v :: identValues cells rest
    | _ => [] :: rest.map fun _ => []

/-- A value as IDENT gives it: its length, then its bytes (R180, R189). -/
def valueFields (v : List Byte) : List ReplyItem := [natField v.length, .raw v]

/-- The data of an IDENT reply (R189). -/
def identData (cells : List Host.Cell) (rate : Nat) : List ReplyItem :=
  (identValues cells [(0x50, 0x54), (0x48, 0x57), (0x53, 0x52)]).flatMap valueFields
    ++ [natField rate, natField Config.userBase, natField (Config.storeSize - Config.userBase)]

/-- STORE_READ (R189). -/
def storeRead (b : List Byte) (st : Store) : Answer :=
  let off := fieldAt b 0 2
  let count := fieldAt b 2 2
  if b.length ≠ 4 then { status := .badLength, data := [] }
  else if count = 0 ∨ 256 < count ∨ Config.storeSize < off + count then { status := .outOfRange, data := [] }
  else if st.job.isSome then { status := .busy, data := [] }
  else { status := .ok, data := [.raw (storeBytes st.cells count off)] }

/-! ## STORE_WRITE (R190, R191) -/

/-- STORE_WRITE: the write in flight, or a refusal (R190). -/
def storeWrite (tag : Byte) (b : List Byte) (st : Store) : Store × Option Answer :=
  let off := fieldAt b 0 2
  let data := b.drop 2
  if b.length < 6 ∨ 66 < b.length ∨ data.length % 4 ≠ 0 then (st, some { status := .badLength, data := [] })
  else if off % 4 ≠ 0 ∨ Config.storeSize < off + data.length then
    (st, some { status := .outOfRange, data := [] })
  else if off < Config.userBase then (st, some { status := .prot, data := [] })
  else if st.job.isSome = true then (st, some { status := .busy, data := [] })
  else ({ st with job := some { offset := off, data := data, done := 0, tag := tag } }, none)

/-- The word of a write that is being programmed: its offset and bytes; none once all are done. -/
def StoreJob.word? (j : StoreJob) : Option (Nat × List Byte) :=
  if 4 * j.done < j.data.length then some (j.offset + 4 * j.done, (j.data.drop (4 * j.done)).take 4) else none

/-- One word of the write takes its new value (R190). -/
def programWord (st : Store) : Store :=
  match st.job with
  | some j =>
    match j.word? with
    | some (a, w) => { st with cells := cellWrites st.cells a w, job := some { j with done := j.done + 1 } }
    | none => st
  | none => st

/-- Every word of the write has been programmed. -/
def StoreJob.complete (j : StoreJob) : Bool := decide (j.data.length ≤ 4 * j.done)

/-- The write in flight ends at a power-off or a reset: the word being programmed is still to finish
(R191). -/
def interruptJob (st : Store) : Store :=
  match st.job with
  | some j => { st with job := none, interrupted := j.word? }
  | none => st

/-- The interrupted word finishes, with its new value or its old one (R191; entry 9). -/
def finishInterrupted (takesNew : Bool) (st : Store) : Store :=
  match st.interrupted with
  | some (a, w) => { st with cells := if takesNew then cellWrites st.cells a w else st.cells, interrupted := none }
  | none => st

/-! ## Applying a setup (R192) -/

/-- The embedded messages of a value: kind and payload each; none when one would extend past its end. -/
def embedded : Nat → List Byte → Option (List (Byte × List Byte))
  | _, [] => some []
  | 0, _ => none
  | _, [_] => none
  | fuel + 1, kind :: len :: rest =>
    if rest.length < len.toNat then none
    else (embedded fuel (rest.drop len.toNat)).map fun more => (kind, rest.take len.toNat) :: more

/-- Execute embedded messages in order, from index `i`, until one is not OK (R192). -/
def runEmbedded : Nat → List (Byte × List Byte) → Engine → Engine × Status × Int
  | _, [], e => (e, .ok, -1)
  | i, (kind, payload) :: rest, e =>
    let out := configCommand kind.toNat payload e
    if out.2.status = .ok then runEmbedded (i + 1) rest out.1 else (out.1, out.2.status, i)

/-- Apply the setup of a key: status and failing index (R192). -/
def applySetup (cells : List Host.Cell) (k0 k1 : Byte) (e : Engine) : Engine × Status × Int :=
  match findUser cells k0 k1 with
  | .absent => (e, .notFound, -1)
  | .malformed => (e, .badStore, -1)
  | .value v =>
    match embedded v.length v with
    | none => (e, .badStore, -1)
    | some msgs => runEmbedded 0 msgs e

/-- STORE_APPLY (R192); its data are the status and the failing index (R186; entry 22). -/
def storeApply (b : List Byte) (st : Store) (e : Engine) : Engine × Answer :=
  match b with
  | [k0, k1] =>
    if st.job.isSome then refuse .busy e
    else
      let out := applySetup st.cells k0 k1 e
      (out.1, { status := out.2.1, data := [natField out.2.1.code, .field out.2.2] })
  | _ => refuse .badLength e

/-- The boot entry is applied and READY is queued (R193). -/
def bootApply (cells : List Host.Cell) (e : Engine) : Engine :=
  let out := applySetup cells 0x42 0x53 e
  let e1 := post (.ready out.2.1 out.2.2) out.1
  { e1 with clk := { e1.clk with starting := false } }

/-- BOOT_SETUP_APPLY is due: the first frame after a start-up relock has come, and no interrupted word is
being programmed (R191, R193). -/
def bootDue (e : Engine) (st : Store) : Bool := e.clk.starting && e.clk.frameOpen && st.interrupted.isNone

end Sys2Proof.Machine
end

