-- ==== Sys2Proof/WellFormed.lean ====
section
/-! DEFINITION. Which commands are well formed: the operands of the three link transactions are what
their rows say they are (R175, R177). Every other operand is bounded by its type. -/

namespace Sys2Proof

/-- A transaction's bytes are short: at least one byte, and the header or the declared payload is
missing some. A complete READ header is no short transaction (R175, R177). -/
def shortBytes : List Byte → Bool
  | [] => false
  | [_] | [_, _] | [_, _, _] => true
  | kind :: _ :: lo :: hi :: payload =>
    kind != 0 && decide (payload.length < lo.toNat + 256 * hi.toNat)

/-- The operands of a command are those its row describes. -/
def Instr.wellFormed : Instr → Bool
  | .hostMessage kind _ payload => kind != 0 && decide (payload.length < 65536)
  | .shortTransaction sent => shortBytes sent
  | _ => true

end Sys2Proof
end

