-- ==== Sys2Proof/Machine/Link.lean ====
section
/-! DEFINITION. The link controller (R175 to R180, R185): transactions, acceptance, the collection of
replies and reports, and the command processor that takes the head of the inbound queue. -/

namespace Sys2Proof.Machine

/-! ## Running a step on a part of the state -/

/-- A step happens only while the part has power; without it nothing changes (entry 26). -/
def State.whenOn (f : State → State) (s : State) : State := if s.powered then f s else s

/-- Run an operation of the engine. -/
def State.onEng (f : Engine → Engine) (s : State) : State := { s with eng := f s.eng }

/-- Queue a reply (R179, R180). -/
def State.reply (kind tag : Byte) (a : Answer) (s : State) : State :=
  { s with link := queueReply kind tag a.status a.data s.link }

/-! ## Transactions (R175 to R178) -/

/-- What the part sends during a host message: its status byte in the header, 0 in the payload (R176). -/
def State.listens (n : Nat) (s : State) : List Byte :=
  List.replicate (min 4 n) (linkStatusByte s.link s.eng.evq) ++ List.replicate (n - 4) 0

/-- A complete message is offered for acceptance (R178). -/
def State.offer (m : Message) (s : State) : State :=
  if s.link.unanswered < Config.maxUnanswered then
    { s with link := { s.link with inbound := s.link.inbound ++ [m], unanswered := s.link.unanswered + 1 } }
  else { s with link := { s.link with overrun := true } }

/-- The bytes the part has put on MISO (entry 5). -/
def State.sends (bytes : List Byte) (s : State) : State := { s with link := { s.link with miso := bytes } }

/-- The message a READ collects (R177). -/
def State.outbound (s : State) : List Byte :=
  match s.link.replies, s.eng.evq.list with
  | r :: _, _ => r.bytes
  | [], ev :: _ => ev.bytes
  | [], [] => emptyMessage

/-- The collected message leaves its queue; a collected reply answers its command (R177, R178). -/
def State.collected (s : State) : State :=
  match s.link.replies, s.eng.evq.list with
  | _ :: rest, _ => { s with link := { s.link with replies := rest, unanswered := s.link.unanswered - 1 } }
  | [], _ :: rest => { s with eng := { s.eng with evq := { s.eng.evq with list := rest } } }
  | [], [] => s

/-- A READ transaction with `n` bytes after its header (R177; entry 5). -/
def State.read (n : Nat) (s : State) : State :=
  let m := s.outbound
  let sent := List.replicate 4 (linkStatusByte s.link s.eng.evq) ++ (m ++ List.replicate (n - m.length) 0).take n
  (if m.length ≤ n then s.collected else s).sends sent

/-- A complete host message: a READ, an oversize message, or a command (R175; entry 40). -/
def State.message (kind tag : Byte) (payload : List Byte) (s : State) : State :=
  if kind = 0 then s.read payload.length
  else
    let large := decide (1020 < payload.length)
    let m : Message :=
      { kind := kind, tag := tag, payload := if large then [] else payload, oversize := large }
    (s.offer m).sends (s.listens (4 + payload.length))

/-- A transaction given as the bytes the host sent: empty, short, a READ or whole (R175; entry 40). Of a whole one the
model records what the part sends during the header and the declared payload, and nothing beyond (R176; entry 62). -/
def State.transaction (sent : List Byte) (s : State) : State :=
  if shortBytes sent then
    { s with link := { s.link with overrun := true, miso := s.listens sent.length } }
  else
    match sent with
    | kind :: tag :: lo :: hi :: payload =>
      if kind = 0 then s.read payload.length
      else s.message kind tag (payload.take (lo.toNat + 256 * hi.toNat))
    | _ => s

/-! ## The command processor (R179, R193) -/

/-- The processor takes the head of the inbound queue when it is of the row's kind and start-up is over;
otherwise the row does nothing (entry 4). -/
def State.take (want : Byte → Bool) (f : Message → State → State) (s : State) : State :=
  match s.link.inbound with
  | [] => s
  | m :: rest =>
    if s.eng.clk.starting = false ∧ want m.kind = true then
      f m { s with link := { s.link with inbound := rest } }
    else s

/-- The head is of the kind of that number. -/
def isKind (n : Nat) (kind : Byte) : Bool := kind.toNat == n

/-- Run a command of the engine and queue its reply; an oversize message is BAD_LENGTH (R175, R179). -/
def answerWith (cmd : List Byte → Engine → Engine × Answer) (m : Message) (s : State) : State :=
  if m.oversize then s.reply m.kind m.tag { status := .badLength, data := [] }
  else
    let out := cmd m.payload s.eng
    ({ s with eng := out.1 }).reply m.kind m.tag out.2

/-- Run a command that may be in flight: no reply yet when it answers nothing (R179). -/
def startWith (cmd : Byte → List Byte → Engine → Engine × Option Answer) (m : Message) (s : State) : State :=
  if m.oversize then s.reply m.kind m.tag { status := .badLength, data := [] }
  else
    let out := cmd m.tag m.payload s.eng
    let s1 := { s with eng := out.1 }
    match out.2 with
    | some a => s1.reply m.kind m.tag a
    | none => s1

/-- A row of a command of the engine: kind and rule. -/
def runCommand (kind : Nat) (cmd : List Byte → Engine → Engine × Answer) : State → State :=
  State.whenOn (State.take (isKind kind) (answerWith cmd))

/-- UNKNOWN_KIND (R179). -/
def answerUnknown (m : Message) (s : State) : State := s.reply m.kind m.tag { status := .unknownKind, data := [] }

/-- IDENT (R189). -/
def identWith (m : Message) (s : State) : State :=
  s.reply m.kind m.tag
    (if m.oversize ∨ m.payload.length ≠ 0 then { status := .badLength, data := [] }
     else { status := .ok, data := identData s.store.cells s.eng.clk.rate })

/-- STORE_READ (R189). -/
def storeReadWith (m : Message) (s : State) : State :=
  s.reply m.kind m.tag (if m.oversize then { status := .badLength, data := [] } else storeRead m.payload s.store)

/-- STORE_WRITE (R190). -/
def storeWriteWith (m : Message) (s : State) : State :=
  if m.oversize then s.reply m.kind m.tag { status := .badLength, data := [] }
  else
    let out := storeWrite m.tag m.payload s.store
    let s1 := { s with store := out.1 }
    match out.2 with
    | some a => s1.reply m.kind m.tag a
    | none => s1

/-- STORE_APPLY (R192). -/
def storeApplyWith (m : Message) (s : State) : State :=
  answerWith (fun b e => storeApply b s.store e) m s

/-! ## Completion of a store write (R190) -/

/-- The write in flight completes: its reply, then STORE_DONE (R190). -/
def State.finishWrite (s : State) : State :=
  match s.store.job with
  | some j =>
    if j.complete then
      (({ s with store := { s.store with job := none } }).reply 27 j.tag { status := .ok, data := [] }).onEng
        (post (.storeDone j.offset j.data.length))
    else s
  | none => s

/-- STORE_WORD_COMPLETE: an interrupted word finishes, or a word of the write in flight; the last one
completes the write if frames are delivered (R190, R191; entry 9). -/
def State.wordComplete (s : State) : State :=
  if s.store.interrupted.isSome then
    { s with store := finishInterrupted (Config.interruptedWordTakesNew s.freeCount) s.store,
             freeCount := s.freeCount + 1 }
  else
    let s1 := { s with store := programWord s.store }
    if s.eng.clk.frameOpen then s1.finishWrite else s1

/-! ## Power and reset (R185, R191, R193) -/

/-- The supply fails: the write in flight ends, and the word being programmed takes its old or its new
value (R191; entries 9 and 26). The spec does not say when that word finishes, and has the start-up wait for it; the
model finishes it here, so that no start-up after a loss of power has a word to wait for (entry 9). -/
def State.losePower (s : State) : State :=
  let st := interruptJob s.store
  if st.interrupted.isSome then
    { s with powered := false, freeCount := s.freeCount + 1,
             store := finishInterrupted (Config.interruptedWordTakesNew s.freeCount) st }
  else { s with powered := false, store := st }

/-- The supply comes: every block takes its reset values and the start-up relock begins (R193). -/
def State.gainPower (s : State) : State :=
  { s with powered := true, eng := Engine.resetWith [] s.eng.ped.pins, link := Link.reset }

/-- ENGINE_RESET: the link first, then its reply, then every other block (R185, R193). -/
def resetEngine (m : Message) (s : State) : State :=
  if m.oversize ∨ m.payload.length ≠ 0 then s.reply m.kind m.tag { status := .badLength, data := [] }
  else
    let lk : Link := { Link.reset with unanswered := 1, miso := s.link.miso }
    ({ s with eng := Engine.resetWith s.eng.mem.cells s.eng.ped.pins, link := lk,
              store := interruptJob s.store }).reply m.kind m.tag { status := .ok, data := [] }

end Sys2Proof.Machine
end

