-- ==== Sys2Proof/Machine/Frame.lean ====
section
/-! DEFINITION. One engine frame (R13 and the rules its row names): what is still due from the frame before
is settled in one fixed order (entry 3), then the new frame's own work. -/

namespace Sys2Proof.Machine

/-! ## Settling what is due on the frame that ends (entry 3) -/

/-- The detector, the follower and the crossfade (R23, R26, R32). -/
def settleClock (e : Engine) : Engine :=
  let e1 := coast (if holdOffEndDue e then endHoldOff e else e)
  if crossfadeEndDue e1 then endCrossfade e1 else e1

/-- A slot's frame ends: a capture whose writes reach its length completes, any other slot makes its
writes (R90, R91; entry 12). -/
def settleSlot (s : SlotIx) (e : Engine) : Engine :=
  if fixedCompleteDue e s then completeFixed s e else commitSlot s e

/-- The grant in progress, when its periods have run; a transfer it completes answers its command (R118,
R172). -/
def settleGrant (s : State) : State :=
  if grantDue s.eng then
    let out := completeGrant s.eng
    let s1 := { s with eng := out.1 }
    match out.2 with
    | some r => s1.reply (r.kind) r.tag { status := .ok, data := r.data }
    | none => s1
  else s

/-- Recovery and priming of one voice (R129, R134). -/
def settleVoice (l : LayerIx) (e : Engine) : Engine :=
  let e1 := if recoveryDue e l then recoverFrame l e else e
  if primingDue e1 l then primingDone l e1 else e1

/-- The end of a fade of one voice (R131, R135). -/
def settleFade (l : LayerIx) (e : Engine) : Engine :=
  let e1 := if voiceIdleDue e l then idleVoice l e else e
  if clearFadeDue e1 l then clearFadeDone l e1 else e1

/-- The splice streams, the arbiter's choice on an idle port, and the wait limit (R20, R21, R118). -/
def settleSplice (e : Engine) : Engine :=
  let e1 := arbitrate (alignStreams e)
  if waitLimitDue e1 then abandonSplice .waitLimit e1 else e1

/-- The boot setup, when due (R193). -/
def settleBoot (s : State) : State :=
  if bootDue s.eng s.store then s.onEng (bootApply s.store.cells) else s

/-- What is due on the four ports (entry 3). -/
def settlePorts (s : State) : State := s.onEng (eachQuad settlePort)

/-- Everything else due on the frame that ends, in one order (entry 3). -/
def settle (s : State) : State :=
  let s1 := settleBoot (s.onEng settleClock)
  let s2 := settleGrant (s1.onEng settleCues)
  s2.onEng fun e =>
    let e1 := eachLayer settleFade (eachSlot settleSlot (eachLayer settleVoice e))
    settleSplice (clipWindowEnd (reportClip (samplingEvent e1.ped.pins e1)))

/-! ## The frame's own work -/

/-- The integer advance of the frame, which a clearing voice follows (R127, R135). -/
def integerAdvance (e : Engine) : Nat :=
  if e.cyc.state = .running ∧ e.cyc.owedBoundary = false then nextAdvance e else 0

/-- The cycle clock on a frame: the boundary owed to it, or the advance, with the jump when `jump` says so (R7, R13,
R22). The owed boundary of a CYCLE_SET is a LAYER boundary for no layer, one imported since among them (R7). DESIGN CHOICE
(entry 70): it leaves a B that became pending since to the first wrap of R15. -/
def cycleFrame (jump : Bool) (e : Engine) : Engine :=
  if e.cyc.owedBoundary then bareBoundary 0 { e with cyc := { e.cyc with owedBoundary := false } }
  else if e.cyc.state = .running then advanceCycle jump e
  else e

/-- The frame begins: targets, the P0 frame, the pair sent, the splice count, the capture flag, the detector (R19,
R26, R53, R131, R138, R153). -/
def openFrame (e : Engine) : Engine :=
  let e1 := shiftOutput (takeP0 (latchTargets e))
  { e1 with
    clk := { e1.clk with frameOpen := true }, heard := none,
    fol := e1.fol.openFrame,
    cyc := { e1.cyc with
      splice := countSplice e1.cyc.splice,
      captureThisPass := e1.cyc.captureThisPass || slotBusy e1 } }

/-- A detector onset is handed over (R26, R28), and what would be without it is noted (entry 51). `e` is the engine as
the detector found it, `d` with the onset. -/
def hearOnset (l : LaneIx) (e d : Engine) : Engine :=
  let before := coast (autoClose e)
  let after := handOnset .detector d
  { after with heard := some { lane := l, without := before.fol, cues := before.cues.list,
                               said := after.evq.since before.evq.list.length, unsaid := [] } }

/-- The onsets of the frame: the taps owed to it, then a detector onset; taps taken on the frame come after it (R26 to
R28; entry 31). -/
def frameOnsets (e : Engine) : Engine :=
  let e1 := handTaps e.cyc.owedTaps { e with cyc := { e.cyc with owedTaps := 0 } }
  let d := detect e1
  match detectorLane e1.fol with
  | some l => if d.2 then hearOnset l e1 d.1 else d.1
  | none => d.1

/-- The audio of the frame: removals, lanes, what the slots will write, voices, mix (R85, R90, R127, R137,
R150, R156). -/
def frameAudio (adv : Nat) (e : Engine) : Engine :=
  let e1 := eachQuad runLane (eachQuad removeFrame e)
  mixFrame (eachLayer (runVoice adv) (eachSlot formWrites e1))

/-- One engine frame of the engine: the jump is made on it when its conditions held as the frame before ended
(R22). DESIGN CHOICE (entry 71): the follower counts the BEAT boundaries of the frame before it takes the frame's onsets,
so that a frame with an accepted onset ends with a beat count of 0. -/
def runFrame (e : Engine) : Engine :=
  let adv := integerAdvance e
  let e1 := countCues .frame 0 (noteGrid (cycleFrame (readyToJump e) (openFrame e)))
  frameOnsets (tickGrant (tickSampling (frameAudio adv e1)))

/-- A new engine frame runs, if the clock controller still delivers frames. A store write whose last word
came without frames completes on it (R143, R190). DESIGN CHOICE (entry 3): its STORE_DONE is queued after all that the
frame itself reports. -/
def State.newFrame (s : State) : State :=
  if framesRun s.eng.clk then (s.onEng runFrame).finishWrite else s

/-- FRAME: when the clock controller delivers frames, what is due on the frame before is settled and a new
frame runs (R13, R143). -/
def State.frame (s : State) : State :=
  let s1 := settlePorts s
  if framesRun s1.eng.clk then (settle s1).newFrame else s1

/-- The frame that comes next makes the jump: frames run, and once the open frame is settled the jump conditions
hold (R22; entry 3). -/
def State.jumpDue (s : State) : Bool :=
  let s1 := settlePorts s
  let s2 := settle s1
  framesRun s1.eng.clk && framesRun s2.eng.clk && readyToJump s2.eng

/-- SPLICE_JUMP, when due: the frame of the jump (R22). -/
def State.jumpFrame (s : State) : State := if s.jumpDue then s.frame else s

end Sys2Proof.Machine
end

