-- ==== Sys2Proof/Machine/Rows.lean ====
section
/-! DEFINITION. The meaning of every row of the opcode table, one definition each. A row whose event is not
due, or whose condition fails, leaves the state as it is (entry 2); so does every row but POWER_ON while the
part has no power (entry 26). No meaning faults or refuses. -/

namespace Sys2Proof.Machine

/-- What a meaning answers. -/
abbrev Result := Host.Outcome State Fault Refusal

/-- A change of the engine while the part has power. -/
def engineRow (f : Engine → Engine) (s : State) : Result := .next (s.whenOn (State.onEng f))

/-- A change of the state while the part has power. -/
def stateRow (f : State → State) (s : State) : Result := .next (s.whenOn f)

/-- A command of the engine with its kind (R186). -/
def commandRow (kind : Nat) (cmd : List Byte → Engine → Engine × Answer) (s : State) : Result :=
  .next (runCommand kind cmd s)

/-- The due cue, when its action is the row's (R70). -/
def cueRow (want : Action → Bool) (s : State) : Result := engineRow (runDue want) s

/-- The operation runs when its event is due. -/
def whenDue (due : Engine → Bool) (f : Engine → Engine) (e : Engine) : Engine := if due e then f e else e

/-- POWER_ON (R193); the part that had power loses it first (entry 38). -/
def execPowerOn (s : State) : Result := .next (if s.powered then s.losePower.gainPower else s.gainPower)

/-- RELOCK_END (R144). -/
def execRelockEnd (s : State) : Result := engineRow endRelock s

/-- BOOT_SETUP_APPLY (R193). -/
def execBootSetupApply (s : State) : Result := stateRow settleBoot s

/-- HOST_MESSAGE (R175, R178). -/
def execHostMessage (kind tag : Byte) (payload : List Byte) (s : State) : Result := 
  stateRow (State.message kind tag payload) s

/-- SHORT_TRANSACTION (R175, R178). -/
def execShortTransaction (sent : List Byte) (s : State) : Result := stateRow (State.transaction sent) s

/-- READ (R177). -/
def execRead (clocked : Nat) (s : State) : Result := stateRow (State.read clocked) s

/-- UNKNOWN_KIND (R179). -/
def execUnknownKind (s : State) : Result := 
  stateRow (State.take (fun k => decide (32 ≤ k.toNat)) answerUnknown) s

/-- PORT_SET (R154). -/
def execPortSet (s : State) : Result := commandRow 1 portSet s

/-- LANE_SET (R157). -/
def execLaneSet (s : State) : Result := commandRow 2 laneSet s

/-- CLOCK_SET (R145). -/
def execClockSet (s : State) : Result := commandRow 3 clockSet s

/-- GRID_SET (R12). -/
def execGridSet (s : State) : Result := commandRow 4 gridSet s

/-- FOLLOW_SET (R36). -/
def execFollowSet (s : State) : Result := commandRow 5 followSet s

/-- LAYER_MIX (R140). -/
def execLayerMix (s : State) : Result := commandRow 6 layerMix s

/-- LIVE_MIX (R141). -/
def execLiveMix (s : State) : Result := commandRow 7 liveMix s

/-- MASTER_SET (R141). -/
def execMasterSet (s : State) : Result := commandRow 8 masterSet s

/-- FADE_SET (R142). -/
def execFadeSet (s : State) : Result := commandRow 9 fadeSet s

/-- PEDAL_MAP (R162). -/
def execPedalMap (s : State) : Result := commandRow 10 pedalMap s

/-- PEDAL_UNMAP (R163). -/
def execPedalUnmap (s : State) : Result := commandRow 11 pedalUnmap s

/-- EVENT_MASK (R182). -/
def execEventMask (s : State) : Result := commandRow 12 eventMask s

/-- CUE (R63). -/
def execCue (s : State) : Result := commandRow 13 cueCommand s

/-- CUE_CANCEL (R67). -/
def execCueCancel (s : State) : Result := commandRow 14 cueCancel s

/-- TAP (R27). -/
def execTap (s : State) : Result := commandRow 15 tap s

/-- CYCLE_SET (R7). -/
def execCycleSet (s : State) : Result := commandRow 16 cycleSet s

/-- LAYER_HOLD (R167). -/
def execLayerHold (s : State) : Result := commandRow 17 layerHold s

/-- LAYER_RELEASE (R174). -/
def execLayerRelease (s : State) : Result := commandRow 18 layerRelease s

/-- AUDIO_READ (R171). -/
def execAudioRead (s : State) : Result := stateRow (State.take (isKind 19) (startWith audioRead)) s

/-- AUDIO_WRITE (R171). -/
def execAudioWrite (s : State) : Result := stateRow (State.take (isKind 20) (startWith audioWrite)) s

/-- LAYER_QUERY (R60). -/
def execLayerQuery (s : State) : Result := commandRow 21 layerQuery s

/-- CYCLE_QUERY (R18). -/
def execCycleQuery (s : State) : Result := commandRow 22 cycleQuery s

/-- LANE_QUERY (R158). -/
def execLaneQuery (s : State) : Result := commandRow 23 laneQuery s

/-- MEMORY_QUERY (R125). -/
def execMemoryQuery (s : State) : Result := commandRow 24 memoryQuery s

/-- IDENT (R189). -/
def execIdent (s : State) : Result := stateRow (State.take (isKind 25) identWith) s

/-- STORE_READ (R189). -/
def execStoreRead (s : State) : Result := stateRow (State.take (isKind 26) storeReadWith) s

/-- STORE_WRITE (R190). -/
def execStoreWrite (s : State) : Result := stateRow (State.take (isKind 27) storeWriteWith) s

/-- STORE_WORD_COMPLETE (R190, R191). -/
def execStoreWordComplete (s : State) : Result := stateRow State.wordComplete s

/-- STORE_APPLY (R192). -/
def execStoreApply (s : State) : Result := stateRow (State.take (isKind 28) storeApplyWith) s

/-- BLOCK_HOLD (R184). -/
def execBlockHold (s : State) : Result := commandRow 29 (blockCommand holdBlock) s

/-- BLOCK_RELEASE (R184). -/
def execBlockRelease (s : State) : Result := commandRow 30 (blockCommand releaseBlock) s

/-- ENGINE_RESET (R185, R193). -/
def execEngineReset (s : State) : Result := stateRow (State.take (isKind 31) resetEngine) s

/-- FRAME (R13). -/
def execFrame (s : State) : Result := stateRow State.frame s

/-- SPLICE_WAIT_LIMIT (R21). -/
def execSpliceWaitLimit (s : State) : Result := engineRow (whenDue waitLimitDue (abandonSplice .waitLimit)) s

/-- SPLICE_JUMP: the frame after the one on which the jump conditions held, with the jump (R22; entry 3). -/
def execSpliceJump (s : State) : Result := stateRow State.jumpFrame s

/-- CROSSFADE_END (R23). -/
def execCrossfadeEnd (s : State) : Result := engineRow (whenDue crossfadeEndDue endCrossfade) s

/-- HOLD_OFF_END (R26). -/
def execHoldOffEnd (s : State) : Result := engineRow (whenDue holdOffEndDue endHoldOff) s

/-- COAST (R32). -/
def execCoast (s : State) : Result := engineRow coast s

/-- RECORD (R73). -/
def execRecord (s : State) : Result := cueRow (fun a => match a with | .record _ _ => true | _ => false) s

/-- CLOSE (R74). -/
def execClose (s : State) : Result := cueRow (· == .close) s

/-- AUTO_CLOSE (R87). -/
def execAutoClose (s : State) : Result := engineRow autoClose s

/-- FIXED_CAPTURE_COMPLETE (R91). -/
def execFixedCaptureComplete (slot : SlotIx) (s : State) : Result := 
  engineRow (whenDue (fixedCompleteDue · slot) (completeFixed slot)) s

/-- OVERDUB (R75). -/
def execOverdub (s : State) : Result := cueRow (fun a => match a with | .overdub _ _ _ => true | _ => false) s

/-- OVERDUB_END (R75). -/
def execOverdubEnd (s : State) : Result := cueRow (· == .overdubEnd) s

/-- PLAY (R76). -/
def execPlay (s : State) : Result := cueRow (· == .play) s

/-- STOP (R76). -/
def execStop (s : State) : Result := cueRow (· == .stop) s

/-- MUTE (R76). -/
def execMute (s : State) : Result := cueRow (· == .mute) s

/-- UNMUTE (R76). -/
def execUnmute (s : State) : Result := cueRow (· == .unmute) s

/-- UNDO (R77). -/
def execUndo (s : State) : Result := cueRow (· == .undo) s

/-- REDO (R77). -/
def execRedo (s : State) : Result := cueRow (· == .redo) s

/-- CLEAR (R77). -/
def execClear (s : State) : Result := cueRow (· == .clear) s

/-- STOP_ALL (R78). -/
def execStopAll (s : State) : Result := cueRow (· == .stopAll) s

/-- PLAY_ALL (R78). -/
def execPlayAll (s : State) : Result := cueRow (· == .playAll) s

/-- PAUSE (R78). -/
def execPause (s : State) : Result := cueRow (· == .pause) s

/-- RESUME (R78). -/
def execResume (s : State) : Result := cueRow (· == .resume) s

/-- CLEAR_ALL (R79). -/
def execClearAll (s : State) : Result := cueRow (· == .clearAll) s

/-- GRANT_COMPLETE (R118). -/
def execGrantComplete (s : State) : Result := stateRow settleGrant s

/-- PRIMING_COMPLETE (R129). -/
def execPrimingComplete (voice : LayerIx) (s : State) : Result := 
  engineRow (whenDue (primingDue · voice) (primingDone voice)) s

/-- RECOVERY (R134). -/
def execRecovery (voice : LayerIx) (s : State) : Result := 
  engineRow (whenDue (recoveryDue · voice) (recoverFrame voice)) s

/-- VOICE_IDLE (R131). -/
def execVoiceIdle (voice : LayerIx) (s : State) : Result := 
  engineRow (whenDue (voiceIdleDue · voice) (idleVoice voice)) s

/-- CLEAR_FADE_END (R135). -/
def execClearFadeEnd (voice : LayerIx) (s : State) : Result := 
  engineRow (whenDue (clearFadeDue · voice) (clearFadeDone voice)) s

/-- CLIP_WINDOW_END (R139). -/
def execClipWindowEnd (s : State) : Result := engineRow clipWindowEnd s

/-- PORT_FRAME_ARRIVAL (R148). -/
def execPortFrameArrival (port : PortIx) (bits : List Bool) (s : State) : Result := 
  engineRow (portArrival port bits) s

/-- SILENT_PERIOD (R148). -/
def execSilentPeriod (port : PortIx) (s : State) : Result := engineRow (silentPeriod port) s

/-- LOCK_ACQUIRED (R149). -/
def execLockAcquired (port : PortIx) (s : State) : Result := engineRow (acquireLock port) s

/-- LOCK_LOST (R149). -/
def execLockLost (port : PortIx) (s : State) : Result := engineRow (loseLock port) s

/-- ELASTIC_FILL_DONE (R150). -/
def execElasticFillDone (port : PortIx) (s : State) : Result := engineRow (fillDone port) s

/-- UNDERRUN_END (R151). -/
def execUnderrunEnd (port : PortIx) (s : State) : Result := engineRow (slipEnd .under port) s

/-- OVERRUN_END (R152). -/
def execOverrunEnd (port : PortIx) (s : State) : Result := engineRow (slipEnd .over port) s

/-- SAMPLING_EVENT (R159). -/
def execSamplingEvent (v0 v1 v2 v3 : BitVec 10) (s : State) : Result := 
  engineRow (samplingEvent #v[v0, v1, v2, v3]) s

/-- POWER_OFF (R191). -/
def execPowerOff (s : State) : Result := stateRow State.losePower s

end Sys2Proof.Machine
end

