-- ==== Sys2Proof/Machine/Dispatch.lean ====
section
/-! DEFINITION. The dispatch of a command to its meaning, one arm per row of the opcode table. -/

namespace Sys2Proof.Machine

def exec (i : Instr) (s : State) : Host.Outcome State Fault Refusal :=
  match i with
  | .powerOn => Sys2Proof.Machine.execPowerOn s
  | .relockEnd => Sys2Proof.Machine.execRelockEnd s
  | .bootSetupApply => Sys2Proof.Machine.execBootSetupApply s
  | .hostMessage kind tag payload => Sys2Proof.Machine.execHostMessage kind tag payload s
  | .shortTransaction sent => Sys2Proof.Machine.execShortTransaction sent s
  | .read clocked => Sys2Proof.Machine.execRead clocked s
  | .unknownKind => Sys2Proof.Machine.execUnknownKind s
  | .portSet => Sys2Proof.Machine.execPortSet s
  | .laneSet => Sys2Proof.Machine.execLaneSet s
  | .clockSet => Sys2Proof.Machine.execClockSet s
  | .gridSet => Sys2Proof.Machine.execGridSet s
  | .followSet => Sys2Proof.Machine.execFollowSet s
  | .layerMix => Sys2Proof.Machine.execLayerMix s
  | .liveMix => Sys2Proof.Machine.execLiveMix s
  | .masterSet => Sys2Proof.Machine.execMasterSet s
  | .fadeSet => Sys2Proof.Machine.execFadeSet s
  | .pedalMap => Sys2Proof.Machine.execPedalMap s
  | .pedalUnmap => Sys2Proof.Machine.execPedalUnmap s
  | .eventMask => Sys2Proof.Machine.execEventMask s
  | .cue => Sys2Proof.Machine.execCue s
  | .cueCancel => Sys2Proof.Machine.execCueCancel s
  | .tap => Sys2Proof.Machine.execTap s
  | .cycleSet => Sys2Proof.Machine.execCycleSet s
  | .layerHold => Sys2Proof.Machine.execLayerHold s
  | .layerRelease => Sys2Proof.Machine.execLayerRelease s
  | .audioRead => Sys2Proof.Machine.execAudioRead s
  | .audioWrite => Sys2Proof.Machine.execAudioWrite s
  | .layerQuery => Sys2Proof.Machine.execLayerQuery s
  | .cycleQuery => Sys2Proof.Machine.execCycleQuery s
  | .laneQuery => Sys2Proof.Machine.execLaneQuery s
  | .memoryQuery => Sys2Proof.Machine.execMemoryQuery s
  | .ident => Sys2Proof.Machine.execIdent s
  | .storeRead => Sys2Proof.Machine.execStoreRead s
  | .storeWrite => Sys2Proof.Machine.execStoreWrite s
  | .storeWordComplete => Sys2Proof.Machine.execStoreWordComplete s
  | .storeApply => Sys2Proof.Machine.execStoreApply s
  | .blockHold => Sys2Proof.Machine.execBlockHold s
  | .blockRelease => Sys2Proof.Machine.execBlockRelease s
  | .engineReset => Sys2Proof.Machine.execEngineReset s
  | .frame => Sys2Proof.Machine.execFrame s
  | .spliceWaitLimit => Sys2Proof.Machine.execSpliceWaitLimit s
  | .spliceJump => Sys2Proof.Machine.execSpliceJump s
  | .crossfadeEnd => Sys2Proof.Machine.execCrossfadeEnd s
  | .holdOffEnd => Sys2Proof.Machine.execHoldOffEnd s
  | .coast => Sys2Proof.Machine.execCoast s
  | .record => Sys2Proof.Machine.execRecord s
  | .close => Sys2Proof.Machine.execClose s
  | .autoClose => Sys2Proof.Machine.execAutoClose s
  | .fixedCaptureComplete slot => Sys2Proof.Machine.execFixedCaptureComplete slot s
  | .overdub => Sys2Proof.Machine.execOverdub s
  | .overdubEnd => Sys2Proof.Machine.execOverdubEnd s
  | .play => Sys2Proof.Machine.execPlay s
  | .stop => Sys2Proof.Machine.execStop s
  | .mute => Sys2Proof.Machine.execMute s
  | .unmute => Sys2Proof.Machine.execUnmute s
  | .undo => Sys2Proof.Machine.execUndo s
  | .redo => Sys2Proof.Machine.execRedo s
  | .clear => Sys2Proof.Machine.execClear s
  | .stopAll => Sys2Proof.Machine.execStopAll s
  | .playAll => Sys2Proof.Machine.execPlayAll s
  | .pause => Sys2Proof.Machine.execPause s
  | .resume => Sys2Proof.Machine.execResume s
  | .clearAll => Sys2Proof.Machine.execClearAll s
  | .grantComplete => Sys2Proof.Machine.execGrantComplete s
  | .primingComplete voice => Sys2Proof.Machine.execPrimingComplete voice s
  | .recovery voice => Sys2Proof.Machine.execRecovery voice s
  | .voiceIdle voice => Sys2Proof.Machine.execVoiceIdle voice s
  | .clearFadeEnd voice => Sys2Proof.Machine.execClearFadeEnd voice s
  | .clipWindowEnd => Sys2Proof.Machine.execClipWindowEnd s
  | .portFrameArrival port bits => Sys2Proof.Machine.execPortFrameArrival port bits s
  | .silentPeriod port => Sys2Proof.Machine.execSilentPeriod port s
  | .lockAcquired port => Sys2Proof.Machine.execLockAcquired port s
  | .lockLost port => Sys2Proof.Machine.execLockLost port s
  | .elasticFillDone port => Sys2Proof.Machine.execElasticFillDone port s
  | .underrunEnd port => Sys2Proof.Machine.execUnderrunEnd port s
  | .overrunEnd port => Sys2Proof.Machine.execOverrunEnd port s
  | .samplingEvent v0 v1 v2 v3 => Sys2Proof.Machine.execSamplingEvent v0 v1 v2 v3 s
  | .powerOff => Sys2Proof.Machine.execPowerOff s

end Sys2Proof.Machine
end

