-- ==== Sys2Proof/Safety.lean ====
section
/-! DEFINITION. What holds of a sound JL4810, in the terms the statements use: the orderly link, queues and
memories, the ranges of the values in force, and the account of the pages of loop memory. Also the words the
statements share: a command at its turn, the state after its reply, and a cue at its turn. -/

namespace Sys2Proof.Machine

/-! ## Orderly: queues within their sizes, every accepted command accounted for, canonical memories -/

/-- Commands in flight: a transfer and a store write (R179). -/
def State.inFlight (s : State) : Nat :=
  (if s.eng.xfer.isSome then 1 else 0) + (if s.store.job.isSome then 1 else 0)

/-- Every command accepted and not yet answered waits, is in flight, or has its reply queued; there are at
most eight (R178). -/
def State.linkSound (s : State) : Bool :=
  decide (s.link.unanswered = s.link.inbound.length + s.link.replies.length + s.inFlight)
    && decide (s.link.unanswered ≤ Config.maxUnanswered)

/-- Every pending cue has a number of its own, the next number is free, and no two pending cues have one target (R61,
R62). -/
def CueQueue.distinct (q : CueQueue) : Bool :=
  decide (q.list.map Cue.number).Nodup && decide (q.nextNumber ∉ q.list.map Cue.number)
    && decide (q.list.map Cue.target).Nodup

/-- The event queue holds at most 24 reports (R181), the cue queue at most 12 cues (R61), each with its own number and its
own target, both memories keep their canonical form, and the link is sound; without power no store write is in flight
(R191). -/
def State.orderly (s : State) : Bool :=
  cellsWf s.eng.mem.cells && cellsWf s.store.cells
    && decide (s.eng.evq.list.length ≤ Config.maxReports)
    && decide (s.eng.cues.list.length ≤ Config.maxCues) && s.eng.cues.distinct
    && (if s.powered then s.linkSound else s.store.job.isNone)

/-! ## In range: the values in force that lie in the range their rule gives, each named where it is checked -/

/-- A number lies between two others. -/
def between (lo hi x : Nat) : Bool := decide (lo ≤ x) && decide (x ≤ hi)

/-- A layer's gain, pan, level, feedback and multiple (R41). -/
def Layer.inRange (r : Layer) : Bool :=
  between 0 8191 r.gain && between 0 128 r.pan && between 0 32768 r.level && between 0 32768 r.feedback
    && r.mult.all legalMultiple

/-- The cycle clock's values: B, the pending B, C of at least 4,800, p below C, the fraction, k, m, and the beat
index below B, 0 until a cycle runs (R2); a base layer stands only in BASE_CAPTURE (R2, R5, R6) and a splice only
while RUNNING (R8, R10, R19). -/
def Cycle.inRange (c : Cycle) : Bool :=
  between 1 32 c.beats && c.pendingBeats.all (between 1 32)
    && decide (c.beat < c.beats) && (c.beat == 0 || c.state == .running || c.state == .paused)
    && (c.base.isNone || c.state == .baseCapture) && (c.splice == .idle || c.state == .running)
    && c.len.all (fun len => decide (Config.minCycle ≤ len) && decide (c.p < len))
    && decide (c.frac < 65536) && decide (c.m < 24) && decide (c.k < 4294967296)

/-- The follower's parameters, delta, hold-off count and beat count (R24). -/
def Follower.inRange (f : Follower) : Bool :=
  between 0 8388607 f.threshold && between 480 24000 f.holdOff && between 0 4800 f.window
    && between 1 6 f.shift && between 1 8 f.span && between 0 655 f.deltaMax
    && between 0 4800 f.spliceThreshold && between 0 960 f.jMax && between 1 64 f.coastBeats
    && between 0 655 f.delta.natAbs && decide (f.holdCount ≤ f.holdOff) && between 0 64 f.beatCount

/-- An action's arguments (R63). -/
def Action.inRange : Action → Bool
  | .record n _ => legalMultiple n
  | .overdub _ level feedback => between 0 32768 level && between 0 32768 feedback
  | _ => true

/-- A cue's number, count, deferrals and arguments (R61, R62). -/
def Cue.inRange (c : Cue) : Bool :=
  between 1 65535 c.number && between 0 4 c.remaining && between 0 4 c.deferrals && c.action.inRange

/-- The next cue number, and each cue (R61, R62). -/
def CueQueue.inRange (q : CueQueue) : Bool := between 1 65535 q.nextNumber && q.list.all Cue.inRange

/-- A voice's envelope, target and short weight (R126). -/
def Voice.inRange (v : Voice) : Bool :=
  between 0 4096 v.env && between 0 4096 v.target && between 0 4096 v.short

/-- A lane's live values (R136). -/
def Live.inRange (v : Live) : Bool :=
  between 0 8191 v.gain && between 0 128 v.pan && between 0 4096 v.env && between 0 4096 v.target

/-- A port's initial fill, level, good run and bad run (R147). -/
def Port.inRange (q : Port) : Bool :=
  between 2 14 q.fill && decide (q.buf.length ≤ 16) && decide (q.good ≤ 8) && decide (q.bad ≤ 4)

/-- The follower and the cues as they would be without a detector onset of the frame (entry 51). -/
def Heard.inRange (h : Heard) : Bool := h.without.inRange && h.cues.all Cue.inRange

/-- A lane's trim and its peak, with the peak the frame found (R156; entry 51). -/
def Lane.inRange (ln : Lane) : Bool :=
  between 0 16383 ln.trim && between 0 8388608 ln.peak && between 0 8388608 ln.peakBefore

/-- A mapping's bounds, deadband and applied position (R161). -/
def Mapping.inRange (m : Mapping) : Bool :=
  between 0 m.target.top m.low && between 0 m.target.top m.high && between 0 31 m.deadband
    && m.applied.all (between 0 1023)

/-- The sampling count, the raw and smoothed values and the map (R159, R161). -/
def Pedals.inRange (p : Pedals) : Bool :=
  decide (p.count < 32) && quadIxs.all (fun i => between 0 1023 p.chan[i].raw && between 0 1023 p.chan[i].smooth)
    && mapIxs.all fun i => p.map[i].all Mapping.inRange

/-- The master gain, the two fade lengths and the live values (R136, R141, R142). -/
def Mixer.inRange (mx : Mixer) : Bool :=
  between 0 8191 mx.master && between 32 4096 mx.fade && between 32 256 mx.cross
    && quadIxs.all fun i => mx.live[i].inRange

/-- Every value named above lies in its range; a sampling event is due only while frames run (R159). -/
def Engine.inRange (e : Engine) : Bool :=
  e.cyc.inRange && e.fol.inRange && e.cues.inRange && e.mix.inRange && e.ped.inRange
    && layerIxs.all (fun l => e.layers[l].inRange && e.voices[l].inRange)
    && quadIxs.all (fun i => e.ports[i].inRange && e.lanes[i].inRange) && e.heard.all Heard.inRange
    && (e.clk.pllLocked || !e.ped.due)

/-! ## The account of the pages of loop memory (R104, R105) -/

/-- How often a page stands in a chain. -/
def chainCount (pg : Nat) (chain : Option (List Nat)) : Nat := (chain.getD []).count pg

/-- How often a page stands in the chains of a layer. -/
def Layer.pageUses (pg : Nat) (r : Layer) : Nat := chainCount pg r.cur + chainCount pg r.undo + chainCount pg r.redo

/-- How often a page stands on the free list and in chains. -/
def pageUses (pg : Nat) (e : Engine) : Nat :=
  e.mem.free.count pg + (layerIxs.map fun l => e.layers[l].pageUses pg).sum

/-- A layer keeps an undo or a redo chain, not both (R110); an EMPTY or ARMED layer holds none (R44, R56);
only a capturing or overdubbing layer has a slot (R81). -/
def Layer.chainsSound (r : Layer) : Prop :=
  (r.undo = none ∨ r.redo = none)
    ∧ (r.state = .empty ∨ r.state = .armed → r.cur = none ∧ r.undo = none ∧ r.redo = none)
    ∧ (r.slot.isSome = true → r.state = .capturing ∨ r.state = .overdubbing)

/-- The layer holds no finished loop: it is EMPTY, ARMED or CAPTURING (R41). -/
def Layer.unmade (r : Layer) : Bool := r.state == .empty || r.state == .armed || r.state == .capturing

/-- Each of the 2,048 pages is on the free list once or in one chain once (R104, R105); a layer and its slot
name each other (R82); a layer without a finished loop has no page filler job, and its voice is IDLE or plays out its
clear fade (R45, R46, R56, R114, R117, R129, R135). -/
def Engine.pagesSound (e : Engine) : Prop :=
  (∀ pg, pageUses pg e = if pg < Config.pageCount then 1 else 0)
    ∧ (∀ l : LayerIx, e.layers[l].chainsSound)
    ∧ (∀ (s : SlotIx) (l : LayerIx), e.layers[l].slot = some s ↔ e.slots[s].layer = some l)
    ∧ (∀ s : SlotIx, e.slots[s].use = .free → e.slots[s].layer = none)
    ∧ (∀ l : LayerIx, e.layers[l].unmade = true →
        (∀ j ∈ e.mem.jobs, j.layer ≠ l) ∧ (e.voices[l].rs = .idle ∨ e.voices[l].clearing = true))

/-! ## Words of the statements -/

/-- A field of 2 bytes (R175). -/
def word16 (lo hi : Byte) : Nat := lo.toNat + 256 * hi.toNat

/-- A field of 4 bytes (R175). -/
def word32 (b0 b1 b2 b3 : Byte) : Nat := b0.toNat + 256 * b1.toNat + 65536 * b2.toNat + 16777216 * b3.toNat

/-- A number as a byte. -/
def byte (n : Nat) : Byte := BitVec.ofNat 8 n

/-- A flag as a byte (R186). -/
def flagByte (b : Bool) : Byte := if b then 1 else 0

/-- A number brought into a range (R1). -/
def within (lo hi x : Nat) : Nat := max lo (min hi x)

/-- The processor can take the message at the head of the inbound queue: the part has power and start-up
is over (R179, R193). -/
structure State.Ready (s : State) (m : Message) (rest : List Message) : Prop where
  powered : s.powered = true
  started : s.eng.clk.starting = false
  head : s.link.inbound = m :: rest

/-- The head of the inbound queue is a whole command of a kind with a payload (R175, R179). -/
structure State.Takes (s : State) (kind : Nat) (m : Message) (payload : List Byte) (rest : List Message) :
    Prop extends s.Ready m rest where
  kind : m.kind.toNat = kind
  whole : m.oversize = false
  payload : m.payload = payload

/-- The state after a command at once answered: it has left the inbound queue, the engine is `e`, and its
reply is queued; the reply carries the overrun mark and clears the flag (R178 to R180). -/
def State.answered (s : State) (m : Message) (rest : List Message) (st : Status) (data : List ReplyItem)
    (e : Engine) : State :=
  let r : Reply := { kind := m.kind + 128, tag := m.tag, status := st, overrun := s.link.overrun, data := data }
  let lk : Link := { s.link with inbound := rest, replies := s.link.replies ++ [r], overrun := false }
  { s with eng := e, link := lk }

/-- The state after a refused command: nothing but the link has changed, and the reply has no data (R180). -/
def State.refused (s : State) (m : Message) (rest : List Message) (st : Status) : State :=
  s.answered m rest st [] s.eng

/-- The state after a command that is in flight: it has left the inbound queue and has no reply yet
(R179). -/
def State.started (s : State) (rest : List Message) (e : Engine) (st : Store) : State :=
  { s with eng := e, store := st, link := { s.link with inbound := rest } }

/-- CLAMPED when some value was brought into range, OK otherwise (R180). -/
def clampedUnless (inRange : Prop) [Decidable inRange] : Status := if inRange then .ok else .clamped

/-- The state with another engine: nothing outside the engine has changed. -/
def State.giving (s : State) (e : Engine) : State := { s with eng := e }

/-- The engine once a report has been queued on its frame (R181). -/
def Engine.reports (e : Engine) (ev : Event) : Engine :=
  { e with evq := queueReport ev e.cyc.k e.cyc.p e.evq }

/-- The cue is the next to execute: it is due, due cues before it have a later wave, those after it no earlier
one, and it alone bears its number (R62, R70; entry 28). -/
structure State.Turn (s : State) (c : Cue) (before after : List Cue) : Prop where
  powered : s.powered = true
  list : s.eng.cues.list = before ++ c :: after
  due : c.remaining = 0
  earlier : ∀ d ∈ before, d.remaining = 0 → c.wave < d.wave
  later : ∀ d ∈ after, d.remaining = 0 → c.wave ≤ d.wave
  alone : ∀ d ∈ before ++ after, d.number ≠ c.number

/-- The latest wave of the due cues of a list, 0 without one (R70; entry 28). -/
def dueWave : List Cue → Nat
  | [] => 0
  | c :: rest => max (if c.remaining = 0 then c.wave else 0) (dueWave rest)

/-- The cue once it has counted a boundary in a wave; `older` are the cues before it in the queue, and it comes in no
earlier wave than those of them that are due (R68, R70; entry 28). -/
def Cue.counts (c : Cue) (wave : Nat) (older : List Cue) : Cue :=
  { c with remaining := c.remaining - 1, wave := max wave (dueWave older) }

/-- The engine once a cue has left the queue. -/
def State.dequeued (s : State) (before after : List Cue) : Engine :=
  { s.eng with cues := { s.eng.cues with list := before ++ after } }

/-- The state after a cue that succeeded: the engine the action left, CUE_DONE with the k of the executing
frame, and then the PENDING holds that can be granted (R71, R168). -/
def State.cueDone (s : State) (c : Cue) (e : Engine) : State :=
  { s with eng := grantHolds (e.reports (.cueDone c.number c.target c.action s.eng.cyc.k)) }

/-- The state after a cue that failed with no effect of its own: CUE_FAILED and the holds that can be
granted (R71, R168). -/
def State.cueFailed (s : State) (c : Cue) (r : FailReason) (e : Engine) : State :=
  { s with eng := grantHolds (e.reports (.cueFailed c.number c.target c.action r)) }

/-- The state after a RECORD that failed on its ARMED layer: CUE_FAILED, the layer's return to EMPTY with a PENDING hold
dropped, and the holds that can be granted (R44, R71, R168, R169). -/
def State.recordFailed (s : State) (c : Cue) (l : LayerIx) (r : FailReason) (e : Engine) : State :=
  let layers := upd e.layers l fun x => { x with state := .empty, hold := .none, lastChange := e.cyc.k }
  let told := e.reports (.cueFailed c.number c.target c.action r)
  { s with eng := grantHolds (({ told with layers := layers } : Engine).reports (.layerState l .empty .cueRemoved c.number)) }

/-- The lane's source port is LOCKED (R72). -/
def Engine.lockedLane (e : Engine) (l : LaneIx) : Prop :=
  ∃ p, e.lanes[l].source = some p ∧ e.ports[p].lock = .locked

/-- The lowest-numbered FREE slot (R82). -/
def Engine.firstFree (e : Engine) (sl : SlotIx) : Prop :=
  e.slots[sl].use = .free ∧ ∀ i : SlotIx, i < sl → e.slots[i].use ≠ .free

/-- Two layer records that differ at most in their holds. -/
def Layer.sameButHold (a b : Layer) : Prop := { a with hold := b.hold } = b

/-- The queue once these reports have joined it in order, each with this k and p (R181). -/
def EventQueue.told (q : EventQueue) (k p : Nat) (events : List Event) : EventQueue :=
  events.foldl (fun q ev => queueReport ev k p q) q

/-- The reports of a row with the k and p they carry, the holds it grants reported last (R168, R181). -/
def State.tells (s t : State) (k p : Nat) (events : List Event) : Prop :=
  ∃ granted : List LayerIx, t.eng.evq = s.eng.evq.told k p (events ++ granted.map Event.holdGranted)

/-- SPLICE_SKIPPED of a splice that is being fetched (R21). -/
def Splice.skips (sp : Splice) (reason : SkipReason) : List Event :=
  match sp with
  | .fetching r => [.spliceSkipped r.j reason]
  | _ => []

/-- CAPTURE_GAP of the gap run that stands open in a slot (R101). -/
def Engine.gapOf (e : Engine) (i : SlotIx) : List Event :=
  match openGap e.slots[i] with
  | some n => [.captureGap i n]
  | none => []

/-- What a layer reports that takes a state by a cue which ends its capture or overdub, if it has one: the gap run of its
slot, then LAYER_STATE (R48, R50, R92, R98, R101). -/
def Engine.layerEnds (e : Engine) (number : Nat) (st : LayerState) (l : LayerIx) : List Event :=
  let gap := match e.layers[l].slot with
    | some i => if e.layers[l].state = .overdubbing ∨ e.layers[l].state = .capturing then e.gapOf i else []
    | none => []
  gap ++ [.layerState l st .cue number]

/-- FOLLOW_STATE of a TRACKING follower that goes to WAITING (R33). -/
def Follower.rests (f : Follower) (cause : FollowCause) : List Event :=
  if f.state = .tracking then [.followState .waiting cause] else []

/-- The splice once these voices have left it (R20, R23). -/
def Splice.without (gone : LayerIx → Bool) : Splice → Splice
  | .idle => .idle
  | .fetching r => .fetching { r with voices := r.voices.filter fun v => !gone v }
  | .crossfading r => .crossfading { r with voices := r.voices.filter fun v => !gone v }

/-- Voice `i` out of a splice it took part in: a stream that is being fetched is discarded (R20, R21); of a crossfade it
goes on with its new stream alone, which the splice buffer holds first, and once the count has reached X with its main
staging (R8, R23, R132). -/
def Voice.quits (now v : Voice) (i : LayerIx) : Splice → Prop
  | .idle => now = v
  | .fetching r => now = if i ∈ r.voices then { v with spl := Run.nil } else v
  | .crossfading r =>
    if i ∈ r.voices then
      now = { v with main := now.main, spl := Run.nil, store := Run.nil }
        ∧ (r.x ≤ r.count ∨ v.spl.frames = [] → now.main = v.main)
        ∧ (r.count < r.x → v.spl.frames ≠ [] → v.spl.frames.length ≤ 512 →
          now.main.base = v.spl.base ∧ now.main.frames.take v.spl.frames.length = v.spl.frames)
    else now = v

/-- What no cue touches: everything outside the cycle clock, the follower, the layers, the cue queue, the
slots, the memory, the voices, the clip flags and the event queue; and no frame of loop memory. -/
def State.cueFrame (s t : State) : Prop :=
  let mx : Mixer := { s.eng.mix with window := t.eng.mix.window, clipReported := t.eng.mix.clipReported }
  let mem : LoopMem := { t.eng.mem with cells := s.eng.mem.cells }
  t = { s with eng := { t.eng with
          clk := s.eng.clk, mix := mx, mem := mem, ports := s.eng.ports, lanes := s.eng.lanes,
          ped := s.eng.ped, xfer := s.eng.xfer } }

/-! ## Cues as they are accepted (R61 to R66) -/

/-- The action is a RECORD. -/
def Action.records : Action → Bool
  | .record _ _ => true
  | _ => false

/-- The argument bytes an action is asked for with: the multiple and the lane of a RECORD; the lane of an OVERDUB, its
level and its feedback, clamped to 32,768 (R63). -/
def Action.asked (a : Action) (args : List Byte) : Prop :=
  match a with
  | .record n lane => legalMultiple n = true ∧ args = [byte n, byte lane.val]
  | .overdub lane level feedback => ∃ v0 v1 f0 f1, args = [byte lane.val, v0, v1, f0, f1]
      ∧ level = min 32768 (word16 v0 v1) ∧ feedback = min 32768 (word16 f0 f1)
  | _ => args = []

/-- No level and no feedback among the argument bytes had to be clamped (R63). -/
def weightsInRange : List Byte → Bool
  | [_, v0, v1, f0, f1] => decide (word16 v0 v1 ≤ 32768 ∧ word16 f0 f1 ≤ 32768)
  | _ => true

/-- Checks 3 to 5 of R63 on a target, an action, a quantum and a boundary count. -/
def Action.suits (a : Action) (t : Target) (q : Quantum) (n : Nat) : Prop :=
  ((a = .stopAll ∨ a = .playAll ∨ a = .pause ∨ a = .resume ∨ a = .clearAll) ↔ t = .all)
    ∧ (q = .immediate ∨ (1 ≤ n ∧ n ≤ 4))
    ∧ ¬(q = .layer ∧ (t = .all ∨ a.records = true))
    ∧ (a = .resume → q = .immediate ∨ q = .onset)

/-- The state of the layer in the prediction, and whether the prediction leaves it its undo and redo chains (R64). -/
def Engine.foretold (e : Engine) (l : LayerIx) : LayerState × Bool :=
  let st := if e.layers[l].state = .armed then LayerState.empty else e.layers[l].state
  match (e.cues.list.find? fun d => d.target == .all).map Cue.action with
  | some .stopAll => (if st = .playing ∨ st = .overdubbing then .stopped else st, true)
  | some .playAll => (if st = .stopped then .playing else st, true)
  | some .pause => (if st = .overdubbing ∨ st = .capturing then .playing else st, true)
  | some .clearAll => (.empty, false)
  | _ => (st, true)

/-- No hold stands against the action (R64). -/
def Engine.unheld (e : Engine) (a : Action) (t : Target) : Prop :=
  (a = .clearAll → ∀ i : LayerIx, e.layers[i].hold = .none)
    ∧ ∀ l : LayerIx, t = .layer l → a.writing = true → e.layers[l].hold = .none

/-- The predicted state of its layer is one the action accepts (R64). -/
def Engine.accepts (e : Engine) (a : Action) (t : Target) : Prop :=
  ∀ l : LayerIx, t = .layer l →
    let st := (e.foretold l).1
    let keeps := (e.foretold l).2 = true
    match a with
    | .record _ _ => st = .empty
    | .close => st = .capturing
    | .overdub _ _ _ => st = .playing
    | .overdubEnd => st = .overdubbing
    | .play => st = .stopped
    | .stop => st = .playing ∨ st = .overdubbing
    | .mute => st ≠ .empty
    | .unmute => st ≠ .empty
    | .undo => (st = .playing ∨ st = .stopped) ∧ keeps ∧ e.layers[l].undo.isSome = true
    | .redo => (st = .playing ∨ st = .stopped) ∧ keeps ∧ e.layers[l].redo.isSome = true
    | _ => True

/-- The payload of a CUE asks for what no CUE may: an unknown action or quantum, a target that is none or not the
action's, a count that is none, a quantum that could never come, a multiple that is none or a lane that is none (R63
checks 2 to 6). -/
def outOfRangeCue : List Byte → Prop
  | t :: a :: q :: n :: args =>
    16 ≤ a.toNat ∨ 5 ≤ q.toNat ∨ (16 ≤ t.toNat ∧ t.toNat < 255) ∨ (11 ≤ a.toNat ∧ t.toNat < 255)
      ∨ (a.toNat ≤ 10 ∧ t.toNat = 255) ∨ (q.toNat ≠ 0 ∧ (n.toNat = 0 ∨ 5 ≤ n.toNat))
      ∨ (q.toNat = 4 ∧ (t.toNat = 255 ∨ a.toNat = 0)) ∨ (a.toNat = 14 ∧ 2 ≤ q.toNat)
      ∨ (a.toNat = 0 ∧ ((args.getD 0 0).toNat ∉ [1, 2, 3, 4, 6, 8] ∨ 4 ≤ (args.getD 1 0).toNat))
      ∨ (a.toNat = 2 ∧ 4 ≤ (args.getD 0 0).toNat)
  | _ => False

/-! ## Commands by kind (R186) -/

/-- The row of a command kind. -/
def rowOf : Nat → Option Instr
  | 1 => some .portSet
  | 2 => some .laneSet
  | 3 => some .clockSet
  | 4 => some .gridSet
  | 5 => some .followSet
  | 6 => some .layerMix
  | 7 => some .liveMix
  | 8 => some .masterSet
  | 9 => some .fadeSet
  | 10 => some .pedalMap
  | 11 => some .pedalUnmap
  | 12 => some .eventMask
  | 13 => some .cue
  | 14 => some .cueCancel
  | 15 => some .tap
  | 16 => some .cycleSet
  | 17 => some .layerHold
  | 18 => some .layerRelease
  | 19 => some .audioRead
  | 20 => some .audioWrite
  | 21 => some .layerQuery
  | 22 => some .cycleQuery
  | 23 => some .laneQuery
  | 24 => some .memoryQuery
  | 25 => some .ident
  | 26 => some .storeRead
  | 27 => some .storeWrite
  | 28 => some .storeApply
  | 29 => some .blockHold
  | 30 => some .blockRelease
  | 31 => some .engineReset
  | _ => none

/-- The payload lengths that suit the action of a CUE, the second byte of its payload (R63, R186; entry 24). -/
def cueLengths : List Byte → List Nat
  | _ :: a :: _ => if a = 0 then [6] else if a = 2 then [9] else if a.toNat < 16 then [4] else [4, 6, 9]
  | _ => []

/-- The payload lengths a kind accepts, by the table of R186. -/
def legalLength (kind : Nat) (b : List Byte) : Bool :=
  let n := b.length
  match kind with
  | 15 | 22 | 24 | 25 | 31 => n == 0
  | 4 | 11 | 18 | 21 | 23 | 29 | 30 => n == 1
  | 8 | 14 | 17 | 28 => n == 2
  | 3 => n == 3
  | 1 | 9 | 16 | 26 => n == 4
  | 7 => n == 5
  | 2 => n == 6
  | 19 => n == 7
  | 6 => n == 8
  | 5 => n == 0 || n == 18
  | 10 => n == 0 || n == 9
  | 12 => n == 0 || n == 4
  | 13 => (cueLengths b).contains n
  | 20 => decide (8 ≤ n ∧ n ≤ 1019 ∧ (n - 5) % 3 = 0)
  | 27 => decide (6 ≤ n ∧ n ≤ 66 ∧ (n - 2) % 4 = 0)
  | _ => true

/-- A part on whose open frame nothing is due that could touch a layer, a frame of loop memory or the cycle clock: the
engine clock is the internal one and LOCKED with no frame of P0 waiting, no pending cue is due, a grant in progress has
periods to run, no port event is due and no voice is due to recover. -/
structure State.Steady (s : State) : Prop where
  powered : s.powered = true
  started : s.eng.clk.starting = false
  frames : s.eng.clk.frameOpen = true ∧ s.eng.clk.pllLocked = true
  clock : s.eng.clk.selected = .internal ∧ s.eng.clk.active = .internal
  waiting : s.eng.clk.p0Frames = []
  owed : s.eng.cyc.owedBoundary = false ∧ s.eng.cyc.owedTaps = 0
  undue : ∀ c ∈ s.eng.cues.list, c.remaining ≠ 0
  coast : s.eng.fol.coastDue = false
  grant : ∀ g, s.eng.mem.grant = some g → 0 < g.left
  pedals : s.eng.ped.due = false
  store : s.store.job = none
  ports : ∀ p : PortIx, (s.eng.ports[p].lock = .searching → s.eng.ports[p].good < 8)
    ∧ (s.eng.ports[p].lock = .locked → s.eng.ports[p].bad < 4) ∧ s.eng.ports[p].slipEnds = false
  voices : ∀ l : LayerIx, recoveryDue s.eng l = false

/-- A part that is steady, on which no cue waits and nothing is in flight. -/
structure State.Still (s : State) : Prop extends s.Steady where
  cues : s.eng.cues.list = []
  memory : s.eng.mem.grant = none ∧ s.eng.mem.jobs = [] ∧ s.eng.xfer = none

/-- A quiet part: steady, without a base capture or a splice, with no slot taken. Cues wait, a transfer, a job and a grant
may be in progress, and the follower may follow. What the ports, voices and the mixer do on its frame is left open. -/
structure State.Quiet (s : State) : Prop extends s.Steady where
  cycle : s.eng.cyc.state ≠ .baseCapture ∧ s.eng.cyc.splice = .idle
  slots : ∀ i : SlotIx, s.eng.slots[i].use = .free ∧ s.eng.slots[i].pendingWrites = []

/-- The cues once each of those that count has counted a boundary on a frame on which none was due before (R68). -/
def State.cuesAfter (s : State) (counted : Cue → Prop) [DecidablePred counted] : CueQueue :=
  let list := s.eng.cues.list.map fun c => if counted c then { c with remaining := c.remaining - 1, wave := 0 } else c
  { s.eng.cues with list := list }

/-- A report of this event stands in the queue with this k and p, if its kind is enabled and the queue had room for it
behind `ahead` others (R181). -/
def State.tellsOf (s t : State) (ev : Event) (ahead k p : Nat) : Prop :=
  s.eng.evq.mask.getLsbD (ev.code - 1) = true → s.eng.evq.list.length + ahead < 24 →
    ∃ x ∈ t.eng.evq.list, x.event = ev ∧ x.k = k ∧ x.p = p

/-- The follower once the cycle has returned to UNSET: one in TRACKING is WAITING with E, delta and the beat count 0, and
the decision-made flag is clear (R33). -/
def Follower.lapsed (f : Follower) : Follower :=
  if f.state = .tracking then
    { f with state := .waiting, err := 0, delta := 0, beatCount := 0, coastDue := false, decisionMade := false }
  else { f with decisionMade := false }

/-- The follower once it has counted a BEAT boundary: in TRACKING the beat count rises, and at coast beats COAST is due
(R32). -/
def Follower.counted (f : Follower) : Follower :=
  if f.state = .tracking ∧ f.coastDue = false then
    { f with beatCount := min 64 (f.beatCount + 1), coastDue := decide (f.coastBeats ≤ f.beatCount + 1) }
  else f

/-- The chain an age entry keeps (R110). -/
def Engine.keptChain (e : Engine) (a : LayerIx × AgeKind) : Option (List Nat) :=
  match a.2 with
  | .undo => e.layers[a.1].undo
  | .redo => e.layers[a.1].redo

/-- The first `n` age entries but those a reclaim skips: an UNDO entry of a layer whose written range is present, and
the asking layer's own (R108). -/
def Engine.reclaimed (e : Engine) (own : Option LayerIx) (n : Nat) : List (LayerIx × AgeKind) :=
  (e.mem.age.take n).filter fun a => !((a.2 == .undo && e.layers[a.1].written.isSome) || own == some a.1)

/-- The layer's overdub ends with positions left to copy, and no job of its own stands in the way: it is given a
FINISH_COPY (R50, R98, R114; entry 54). -/
def Engine.leavesCopy (e : Engine) (l : LayerIx) : Bool :=
  e.layers[l].written.isSome && e.mem.jobs.all fun j => j.layer != l

/-- The voice goes idle on the frame on which its layer becomes STOPPED: it primes, or its envelope is 0, and it is not in
its clear fade (R48, R130, R131, R135). -/
def Voice.idlesAtStop (v : Voice) : Bool := decide (v.clearing = false ∧ (v.rs = .priming ∨ v.env = 0))

/-- The job a layer's current chain is given (R114). -/
def Engine.jobOf (e : Engine) (l : LayerIx) (k : FillKind) : Job :=
  { layer := l, key := e.layers[l].cur.bind List.head?, kind := k, done := 0 }

/-- The memory once the staging of the voices named has been discarded: a refill of one of them in progress gives
nothing (R130). -/
def LoopMem.without (mem : LoopMem) (gone : LayerIx → Bool) : LoopMem :=
  { mem with grant := mem.grant.map fun g =>
      match g.who with
      | .voice v => if gone v then { g with cancelled := true } else g
      | _ => g }

/-- A layer's length n x C, 0 without a multiple or a cycle (R16). -/
def Engine.len (e : Engine) (l : LayerIx) : Nat := e.layers[l].mult.getD 0 * e.cyc.len.getD 0

/-- A layer's integer position (m mod n) x C + p (R16). -/
def Engine.position (e : Engine) (l : LayerIx) : Nat :=
  (e.cyc.m % e.layers[l].mult.getD 0) * e.cyc.len.getD 0 + e.cyc.p

/-- A voice that begins priming at position `i` from position `start` on (R129, R130). -/
def Voice.primed (v : Voice) (i start : Nat) : Voice :=
  { v with rs := .priming, pos := some i, main := { base := start, frames := [] }, flag := true,
           primeStart := some start, spl := Run.nil, store := Run.nil, stall := none, starvedCount := none,
           sample := 0 }

/-- An emptied layer keeps its gain, pan and mute; everything else of it takes its reset value (R56). -/
def Layer.emptied (r : Layer) (k : Nat) : Layer :=
  { Layer.reset with gain := r.gain, pan := r.pan, mute := r.mute, lastChange := k }

/-- Two slots that differ at most in what is staged. -/
def Slot.sameButStaging (a b : Slot) : Prop := { a with staging := b.staging } = b

/-- No lane formed its sample of the open frame from the port (entry 51). -/
def Engine.unheard (e : Engine) (p : PortIx) : Prop := ∀ l : LaneIx, e.lanes[l].formed ≠ some p

/-- What a lane that read from a port that leaves LOCKED is left with: the sample 0, in its peak, in what the slots
that record it write, in what a capture that has completed on the frame staged, and no detector onset of the frame: the
follower and the pending cues are as they would be without it (R26, R149, R156; entry 51). -/
def Engine.silent (t e : Engine) (p : PortIx) : Prop :=
  ∀ l : LaneIx, e.lanes[l].formed = some p →
    t.lanes[l].x = 0 ∧ t.lanes[l].peak = e.lanes[l].peakBefore
      ∧ (∀ i : SlotIx, t.slots[i].lane = some l → ∀ w ∈ t.slots[i].pendingWrites, w.x = 0)
      ∧ (∀ i : SlotIx, ∀ en ∈ t.slots[i].staging, ∀ q x, en.body = .data q x →
        (en.layer, en.key, q) ∈ e.lanes[l].taken → x = 0)
      ∧ ∀ h, e.heard = some h → h.lane = l → t.heard = none ∧ t.fol = h.without
          ∧ t.cues.list = e.cues.list.map fun c =>
              match h.cues.find? fun w => w.number == c.number && w.action == c.action && w.target == c.target with
              | some w => if w.remaining = 0 ∧ w.deferrals < c.deferrals then c else w
              | none => c

/-- The event queue without the follower's reports of a detector onset that a lane of the port made on the open frame
(R26; entry 51). -/
def Engine.unheardQueue (e : Engine) (p : PortIx) : EventQueue :=
  match e.heard with
  | some h => if e.lanes[h.lane].formed = some p then (unhear h e).evq else e.evq
  | none => e.evq

/-- `t` is `e` with the lanes silent that formed their samples of the open frame from the port: the lanes, what the slots
write and have staged of them, the frame's pair without them, and, where one of them made a detector onset, the follower,
the pending cues and the follower's reports as they would be without it (R26, R149, R156; entry 51). -/
def Engine.silences (t e : Engine) (p : PortIx) : Prop :=
  let lanes := quadIxs.filter fun l => decide (e.lanes[l].formed = some p)
  let list := t.cues.list
  t.silent e p
    ∧ (∀ l : LaneIx, t.lanes[l] =
        if e.lanes[l].formed = some p then
          { e.lanes[l] with x := 0, formed := none, peak := e.lanes[l].peakBefore, taken := [] }
        else e.lanes[l])
    ∧ (∀ i : SlotIx, t.slots[i] = lanes.foldl (fun sl l => sl.silenced l e.lanes[l].taken) e.slots[i])
    ∧ t.mix = lanes.foldl (fun mx l => mx.shift (-e.lanes[l].x.toInt) mx.sums.live[l]) e.mix
    ∧ ((∀ h, e.heard = some h → e.lanes[h.lane].formed ≠ some p) →
        t.fol = e.fol ∧ t.cues = e.cues ∧ t.heard = e.heard)
    ∧ t = { e with lanes := t.lanes, slots := t.slots, mix := t.mix, fol := t.fol, cues := { e.cues with list := list },
                   heard := t.heard, evq := e.unheardQueue p }

/-- A row answers this state, but for what it notes of a detector onset, when the open frame carries one (entry 51). -/
def givesButHeard (o : Host.Outcome State Fault Refusal) (t : State) : Prop :=
  ∃ heard, (t.eng.heard = none → heard = none) ∧ o = .next { t with eng := { t.eng with heard := heard } }

/-- The slip recovery that a port had in progress when it left its lock state is reported (R149). -/
def Engine.slipEnded (e : Engine) (p : PortIx) (q : Port) : Engine :=
  if q.recovery = .none then e else e.reports (.slip p q.recovery q.slip)

/-- No frame of P0 waits to make an engine frame once that port has left LOCKED (R153; entry 18). -/
def Engine.unawaited (e : Engine) (p : PortIx) : Engine :=
  if p = 0 then { e with clk := { e.clk with p0Frames := [] } } else e

/-- The clock controller falls back on the internal clock (R146). -/
def Engine.fallenBack (e : Engine) : Engine :=
  ({ e with clk := { e.clk with active := .internal, selected := .internal, p0Frames := [] } } : Engine).reports
    (.clockSource .internal .fallback)

/-- A port on which nothing is due (entry 3). -/
def Port.calm (q : Port) : Prop :=
  (q.lock = .searching → q.good < 8) ∧ (q.lock = .locked → q.bad < 4) ∧ q.slipEnds = false

/-- A port emptied with a lock state: runs and buffer empty, no recovery, the last frame 0, 0 (R147, R149). -/
def Port.drained (q : Port) (k : Lock) : Port :=
  { q with lock := k, good := 0, bad := 0, buf := [], filling := false, recovery := .none, slip := 0,
           last := (0, 0), slipEnds := false }

/-- The number 24 bits give, the first of them most significant (R148). -/
def msbWord (bits : List Bool) : Sample := BitVec.ofNat 24 (bits.foldl (fun n b => 2 * n + (if b then 1 else 0)) 0)

/-- `r` is n / d rounded to nearest, halves away from zero (R1). -/
def RoundedTo (n d r : Int) : Prop :=
  if 0 ≤ n then 2 * d * r ≤ 2 * n + d ∧ 2 * n + d < 2 * d * (r + 1)
  else 2 * d * (-r) ≤ 2 * (-n) + d ∧ 2 * (-n) + d < 2 * d * (-r + 1)

/-- The value of a setup entry that holds these messages, kind and payload each (R192). -/
def setupValue (msgs : List (Byte × List Byte)) : List Byte :=
  msgs.flatMap fun m => m.1 :: byte m.2.length :: m.2

/-- The messages of a setup, executed one after another from engine 0 on, take the engine through these states and
are answered OK, for as many as `n` (R192). -/
def setupRuns (msgs : List (Byte × List Byte)) (n : Nat) (through : Nat → Engine) : Prop :=
  ∀ i m, i < n → msgs[i]? = some m →
    configCommand m.1.toNat m.2 (through i) = (through (i + 1), { status := .ok, data := (configCommand m.1.toNat m.2 (through i)).2.data })

/-- A slot released: everything but its staging takes its reset value (R83). -/
def Slot.released (sl : Slot) : Slot := { Slot.reset with staging := sl.staging }

/-! ## The memory arbiter's choice (R118 to R123) -/

/-- How many of `wanted` positions of a layer, from `first` on, a grant moves: those up to where another chain gives
them (R95, R120). -/
def Engine.cutsAt (e : Engine) (l : LayerIx) (source : Option Nat) (first wanted count : Nat) : Prop :=
  count ≤ wanted ∧ (∀ i < count, readSource e l ((first + i) % e.len l) = source)
    ∧ (count < wanted → readSource e l ((first + count) % e.len l) ≠ source)

/-- The staging level by which the requests of one class are ranked (R119). -/
def Engine.requestLevel (e : Engine) : Requester → Nat
  | .voice l => voiceLevel (e.len l) e.voices[l] e.cyc.splice.crossing
  | .splice l => (heldStream e l).frames.length
  | _ => 0

/-- The number by which requests of one class and level are ranked (R119). -/
def Requester.number : Requester → Nat
  | .slot i => i.val
  | .voice l => l.val
  | .splice l => l.val
  | _ => 0

/-- A ZERO_FILL holds back what a PRIMING voice asks for (R130). -/
def Engine.holdsBack (e : Engine) (l : LayerIx) : Prop :=
  e.voices[l].rs = .priming ∧ ∃ j ∈ e.mem.jobs, j.layer = l ∧ j.kind = .zeroFill

/-- A slot asks for a drain of its head: in class 1 from level 768, in class 4 from 256 or once the head has ended (R102,
R123). -/
def Engine.asksDrain (e : Engine) (i : SlotIx) (g : Grant) : Prop :=
  let sl := e.slots[i]
  let level := stagingLevel sl
  (∃ en more, sl.staging = en :: more ∧ g.layer = en.layer ∧ g.key = en.key)
    ∧ (headRun e sl).head?.map Prod.fst = some g.first ∧ g.count = (headRun e sl).length ∧ g.write = true
    ∧ (g.cls = 1 ∧ 768 ≤ level ∨ g.cls = 4 ∧ level < 768 ∧ (256 ≤ level ∨ headEnded e sl = true))

/-- A voice asks for a refill of its main staging: in class 2 below level 64, in class 5 otherwise (R121, R130, R135). -/
def Engine.asksRefill (e : Engine) (l : LayerIx) (g : Grant) : Prop :=
  let v := e.voices[l]
  let level := e.requestLevel (.voice l)
  g.layer = l ∧ g.write = false ∧ v.flag = true ∧ v.rs ≠ .idle ∧ v.clearing = false ∧ ¬e.holdsBack l
    ∧ g.first = (v.main.base + v.main.frames.length) % e.len l
    ∧ e.cutsAt l (some g.key) g.first (min 128 (512 - level)) g.count ∧ 0 < g.count
    ∧ g.cls = if level < 64 then 2 else 5

/-- A voice asks for frames of its splice stream, in class 3 (R122, R130, R135). -/
def Engine.asksFill (e : Engine) (l : LayerIx) (g : Grant) : Prop :=
  let stream := heldStream e l
  let level := stream.frames.length
  g.layer = l ∧ g.write = false ∧ e.voices[l].clearing = false ∧ ¬e.holdsBack l
    ∧ (∃ r, e.cyc.splice = .fetching r ∧ l ∈ r.voices ∧ (level < r.x ∨ level ≤ 224))
    ∧ g.first = (stream.base + level) % e.len l
    ∧ e.cutsAt l (some g.key) g.first (min 128 (256 - level)) g.count ∧ 0 < g.count ∧ g.cls = 3

/-- A transfer asks for its next frames, in class 6 (R123, R171). -/
def Engine.asksTransfer (e : Engine) (g : Grant) : Prop :=
  ∃ t, e.xfer = some t ∧ g.layer = t.layer ∧ e.layers[t.layer].cur.bind List.head? = some g.key ∧ g.write = t.write
    ∧ g.first = t.first + t.moved ∧ g.count = min 128 (t.count - t.moved) ∧ g.cls = 6

/-- The page filler asks for the next grant of the job at the head, in class 7: zeros of a ZERO_FILL; of a FINISH_COPY the
frames of the old chain, and once they are read, or without an old chain, the write of them (R115, R116, R123). -/
def Engine.asksFiller (e : Engine) (g : Grant) : Prop :=
  ∃ j more new, e.mem.jobs = j :: more ∧ j.key = some new ∧ g.layer = j.layer ∧ g.cls = 7
    ∧ match j.kind with
      | .zeroFill => g.key = new ∧ g.write = true ∧ g.first = j.done ∧ g.count = min 128 (e.len j.layer - j.done)
      | .finishCopy => ∃ a w, e.layers[j.layer].written = some (a, w) ∧ g.first = (a + w) % e.len j.layer
        ∧ let n := min (min 128 (e.len j.layer - w)) (e.len j.layer - g.first)
          match e.layers[j.layer].undo.bind List.head? with
          | none => g.key = new ∧ g.write = true ∧ g.count = n
          | some old => if e.mem.work = [] then g.key = old ∧ g.write = false ∧ g.count = n
            else g.key = new ∧ g.write = true ∧ g.count = e.mem.work.length

/-- A request stands, and this is the grant it asks for (R118). -/
def Engine.asks (e : Engine) (g : Grant) : Prop :=
  g.left = (g.count + 31) / 32 ∧ g.cancelled = false ∧
  match g.who with
  | .slot i => e.asksDrain i g
  | .voice l => e.asksRefill l g
  | .splice l => e.asksFill l g
  | .transfer => e.asksTransfer g
  | .filler => e.asksFiller g

/-- A request is served before another: by its class, and within the class by its level and then its number (R119). -/
def Engine.servedBefore (e : Engine) (a b : Grant) : Prop :=
  a.cls < b.cls ∨ (a.cls = b.cls ∧ (e.requestLevel a.who < e.requestLevel b.who
    ∨ (e.requestLevel a.who = e.requestLevel b.who ∧ a.who.number < b.who.number)))

/-- The grant the arbiter makes: that of the request served before all others, none when none stands (R118, R119). -/
def Engine.picks (e : Engine) : Option Grant → Prop
  | none => ∀ g, ¬e.asks g
  | some g => e.asks g ∧ ∀ h, e.asks h → h ≠ g → e.servedBefore g h

end Sys2Proof.Machine
end

