-- ==== Sys2Proof/Certificates/Slice0/Obligations.lean ====
section
/-! DEFINITION. The statements for the provers. A command statement gives the whole next state of an accepted
command as an equation, which is its result, its frame and its completion at once. -/

open Sys2Proof Sys2Proof.Machine

/-! ## The step, power and reset -/

/-- One step runs the command at the front of the queue with the queue's rest; with none queued the block
idles (entry 1). -/
def Obligations.StepRunsFrontCommand : Prop :=
  (∀ (c : Instr) (rest : List Instr) (s : State), s.pending = c :: rest →
      step s = exec c { s with pending := rest })
    ∧ ∀ s : State, s.pending = [] → step s = .next s

/-- Every command answers a next state in every state, and leaves the queue of commands alone: the block has
no fault and refuses none. Without power only POWER_ON acts (entry 26). -/
def Obligations.EveryCommandGoesOn : Prop :=
  (∀ (c : Instr) (s : State), ∃ t, exec c s = .next t ∧ t.pending = s.pending)
    ∧ ∀ (c : Instr) (s : State), s.powered = false → c ≠ .powerOn → exec c s = .next s

/-- Every step keeps the queues within their sizes, the pending cues apart by number and by target, the account of
unanswered commands and the canonical form of both memories (R61, R62, R178, R181). -/
def Obligations.StepKeepsOrder : Prop :=
  ∀ s t : State, s.orderly = true → step s = .next t → t.orderly = true

/-- Every step keeps in their ranges the values `Engine.inRange` names: B and the pending B, C from below, p, the
fraction, k, m and the beat index (R2), a base layer only in BASE_CAPTURE (R2, R5, R6) and a splice only while RUNNING
(R8, R10, R19); the follower's parameters, delta, hold-off and beat counts (R24); of a
layer gain, pan, level, feedback and multiple (R41); of a cue number, count, deferrals and arguments (R61); of a
voice envelope, target and short weight (R126); the mixer's and the live values (R136, R141, R142); of a port fill,
level and runs (R147); of a lane trim and peak (R156), and what the follower and
the cues would be without the detector onset of the frame (entry 51); of the pedals the count, the positions and the map with its
applied positions; and while the PLL is UNLOCKED no sampling event is due (R159, R161). -/
def Obligations.StepKeepsRanges : Prop :=
  ∀ s t : State, s.eng.inRange = true → step s = .next t → t.eng.inRange = true

/-- Every step keeps the account of pages: each of the 2,048 is on the free list once or in one chain once
(R104, R105), with what the account rests on (R44, R56, R81, R82, R110); and a layer that is EMPTY, ARMED or CAPTURING
has no page filler job, and its voice is IDLE or plays out its clear fade (R46, R56, R114, R117, R129, R135). -/
def Obligations.StepKeepsPages : Prop :=
  ∀ s t : State, s.eng.pagesSound → step s = .next t → t.eng.pagesSound

/-- The state after reset meets the three invariants. -/
def Obligations.ResetIsSound : Prop :=
  State.reset.orderly = true ∧ State.reset.eng.inRange = true ∧ State.reset.eng.pagesSound

/-- What reset leaves in every unit, where the spec states a value (R2, R24, R41, R61, R81, R105, R114, R126, R136,
R139, R141 to R143, R147, R156, R159, R161, R171, R182, R185, R193). -/
def Obligations.ResetLeavesStatedValues : Prop :=
  let e := State.reset.eng
  (e.cyc.state = .unset ∧ e.cyc.len = none ∧ e.cyc.beats = 4 ∧ e.cyc.pendingBeats = none ∧ e.cyc.p = 0
      ∧ e.cyc.frac = 0 ∧ e.cyc.k = 0 ∧ e.cyc.m = 0 ∧ e.cyc.beat = 0 ∧ e.cyc.base = none
      ∧ e.cyc.splice = .idle ∧ e.cyc.spliceDone = false ∧ e.cyc.captureThisPass = false)
    ∧ (e.fol.source = .none ∧ e.fol.threshold = 1048576 ∧ e.fol.holdOff = 4800 ∧ e.fol.window = 2400
      ∧ e.fol.shift = 3 ∧ e.fol.span = 2 ∧ e.fol.deltaMax = 328 ∧ e.fol.spliceThreshold = 480
      ∧ e.fol.jMax = 960 ∧ e.fol.coastBeats = 8 ∧ e.fol.state = .off ∧ e.fol.err = 0 ∧ e.fol.delta = 0
      ∧ e.fol.holdCount = 0 ∧ e.fol.armed = true ∧ e.fol.beatCount = 0 ∧ e.fol.decisionMade = false
      ∧ e.fol.lastOnset = none ∧ e.fol.held = false)
    ∧ (∀ l : LayerIx, e.layers[l] =
        { state := .empty, mult := none, cur := none, undo := none, redo := none, written := none,
          slot := none, hold := .none, gain := 4096, pan := 64, mute := false, level := 32768,
          feedback := 29491, lastChange := 0 })
    ∧ e.cues = { list := [], nextNumber := 1 }
    ∧ (∀ i : SlotIx, e.slots[i] =
        { use := .free, layer := none, lane := none, start := none, last := none, count := 0, first := none,
          staging := [], pendingWrites := [] })
    ∧ (e.mem.free = List.range 2048 ∧ e.mem.age = [] ∧ e.mem.jobs = [] ∧ e.mem.work = [] ∧ e.mem.grant = none)
    ∧ (∀ v : LayerIx, e.voices[v].rs = .idle ∧ e.voices[v].env = 0 ∧ e.voices[v].target = 0
        ∧ e.voices[v].short = 4096 ∧ e.voices[v].dir = .steady ∧ e.voices[v].clearing = false
        ∧ e.voices[v].last = 0 ∧ e.voices[v].pos = none ∧ e.voices[v].main.frames = [] ∧ e.voices[v].flag = false
        ∧ e.voices[v].primeStart = none ∧ e.voices[v].spl.frames = [] ∧ e.voices[v].store.frames = []
        ∧ e.voices[v].stall = none ∧ e.voices[v].starvedCount = none)
    ∧ e.xfer = none ∧ e.evq = { list := [], mask := 0xFFFFE7, lost := false }
    ∧ State.reset.link.inbound = [] ∧ State.reset.link.replies = [] ∧ State.reset.link.unanswered = 0
    ∧ State.reset.link.overrun = false
    ∧ (e.mix.master = 4096 ∧ e.mix.fade = 480 ∧ e.mix.cross = 128 ∧ e.mix.clipReported = false ∧ e.mix.window = 0)
    ∧ (∀ l : LaneIx, e.mix.live[l] = { gain := 0, pan := 64, mute := false, env := 4096, target := 4096 })
    ∧ (e.clk.rate = 48000 ∧ e.clk.selected = .internal ∧ e.clk.active = .internal ∧ e.clk.pllLocked = false)
    ∧ (∀ p : PortIx, e.ports[p].enabled = false ∧ e.ports[p].lsbFirst = false ∧ e.ports[p].held = false
        ∧ e.ports[p].lock = .disabled ∧ e.ports[p].good = 0 ∧ e.ports[p].bad = 0 ∧ e.ports[p].buf = []
        ∧ e.ports[p].fill = 6 ∧ e.ports[p].filling = false ∧ e.ports[p].recovery = .none
        ∧ e.ports[p].slip = 0 ∧ e.ports[p].last = (0, 0))
    ∧ (∀ l : LaneIx, e.lanes[l].source = some l ∧ e.lanes[l].channel = .left ∧ e.lanes[l].invert = false
        ∧ e.lanes[l].trim = 4096 ∧ e.lanes[l].peak = 0)
    ∧ e.ped.count = 0 ∧ e.ped.held = false
    ∧ (∀ i : PedalIx, e.ped.chan[i] = { raw := 0, smooth := 0, seed := true })
    ∧ ∀ i : MapIx, e.ped.map[i] = none

/-- POWER_ON: every block takes its reset values and the start-up relock begins; the store keeps its contents (R193).
The model's choices: loop memory reads as 0 (entry 7), the pedal pins keep their levels (entry 11), the bytes sent on
MISO are none (entry 5), and on a part that has power it is a loss of power first (entry 38). -/
def Obligations.PowerOn : Prop :=
  (∀ s : State, s.powered = false →
    let ped : Pedals := { State.reset.eng.ped with pins := s.eng.ped.pins }
    exec .powerOn s
      = .next { s with powered := true, eng := { State.reset.eng with ped := ped }, link := State.reset.link })
    ∧ ∀ s : State, s.powered = true →
        ∃ t, exec .powerOff s = .next t ∧ exec .powerOn s = exec .powerOn t

/-- POWER_OFF: with no store write in flight only the power goes; a write in flight ends, and the word being
programmed holds its new value or its old one (R191). Three things in it are the model's choice: that the word is settled
within POWER_OFF, by a free value, with none left interrupted (entry 9), and that without power everything else is kept as it
stood until POWER_ON (entry 26). -/
def Obligations.PowerOff : Prop :=
  (∀ s : State, s.powered = true → s.store.job = none → s.store.interrupted = none →
      exec .powerOff s = .next { s with powered := false })
    ∧ ∀ (s : State) (j : StoreJob), s.powered = true → s.store.job = some j → 4 * j.done < j.data.length →
        ∃ cells, exec .powerOff s
            = .next { s with powered := false, freeCount := s.freeCount + 1,
                             store := { cells := cells, job := none, interrupted := none } }
          ∧ (cells = s.store.cells
              ∨ cells = cellWrites s.store.cells (j.offset + 4 * j.done) ((j.data.drop (4 * j.done)).take 4))

/-- ENGINE_RESET: every block takes its reset values, the link first; its reply holds the one reservation; a
store write ends with its word still to finish; loop memory keeps its contents (R104, R185, R191, R193). Two things in it
are the model's choice: that the pedal pins keep their levels (entry 11), and that the record of the bytes sent last on MISO
is kept (entry 5). -/
def Obligations.EngineReset : Prop :=
  ∀ (s : State) (m : Message) (rest : List Message), s.Takes 31 m [] rest →
    let ped : Pedals := { State.reset.eng.ped with pins := s.eng.ped.pins }
    let mem : LoopMem := { State.reset.eng.mem with cells := s.eng.mem.cells }
    let reply : Reply := { kind := 159, tag := m.tag, status := .ok, overrun := false, data := [] }
    let lk : Link := { inbound := [], replies := [reply], unanswered := 1, overrun := false, miso := s.link.miso }
    let word := match s.store.job with
      | some j =>
        if 4 * j.done < j.data.length then some (j.offset + 4 * j.done, (j.data.drop (4 * j.done)).take 4)
        else none
      | none => s.store.interrupted
    exec .engineReset s
      = .next { s with eng := { State.reset.eng with ped := ped, mem := mem }, link := lk,
                       store := { s.store with job := none, interrupted := word } }

/-- RELOCK_END: the PLL is LOCKED; PLL_LOCK is reported unless the relock is a start-up one (R144, R193). -/
def Obligations.RelockEnd : Prop :=
  ∀ s : State, s.powered = true → s.eng.clk.pllLocked = false →
    let clk : Clock := { s.eng.clk with pllLocked := true, startRelock := false }
    let evq := if s.eng.clk.startRelock then s.eng.evq
      else queueReport (.pllLock true s.eng.clk.rate) s.eng.cyc.k s.eng.cyc.p s.eng.evq
    exec .relockEnd s = .next { s with eng := { s.eng with clk := clk, evq := evq } }

/-- BOOT_SETUP_APPLY on the first frame: with no entry READY tells NOT_FOUND; with an entry BS its messages are
executed in order, and READY tells OK when each is answered OK, else the status and the index of the first that is
not, CLAMPED among them; a malformed list or value tells BAD_STORE. One FADE_SET sets the two lengths. Either way
commands are taken from now on (R192, R193). What one message of an entry does is said in StoreApply. -/
def Obligations.BootSetupApply : Prop :=
  ∀ s : State, s.powered = true → s.eng.clk.starting = true → s.eng.clk.frameOpen = true →
    s.store.interrupted = none →
    let ready := fun (st : Status) (i : Int) (e : Engine) =>
      ({ e.reports (.ready st i) with clk := { e.clk with starting := false } } : Engine)
    let boots := fun (e : Engine) => exec .bootSetupApply s = .next (s.giving e)
    let found := findUser s.store.cells 0x42 0x53
    (cellRead s.store.cells 512 = 0 → boots (ready .notFound (-1) s.eng))
    ∧ (found = .absent → boots (ready .notFound (-1) s.eng))
    ∧ (found = .malformed → boots (ready .badStore (-1) s.eng))
    ∧ (∀ (msgs : List (Byte × List Byte)), (∀ m ∈ msgs, m.2.length ≤ 255) →
      (∀ rest : List Byte, found = .value (setupValue msgs ++ rest) →
        (rest.length = 1 ∨ ∃ kind len more, rest = kind :: len :: more ∧ more.length < len.toNat) →
        boots (ready .badStore (-1) s.eng))
      ∧ ∀ through : Nat → Engine, found = .value (setupValue msgs) → through 0 = s.eng →
        (setupRuns msgs msgs.length through → boots (ready .ok (-1) (through msgs.length)))
        ∧ ∀ n m, setupRuns msgs n through → msgs[n]? = some m →
            let last := configCommand m.1.toNat m.2 (through n)
            last.2.status ≠ .ok → boots (ready last.2.status n last.1))
    ∧ ∀ f0 f1 x0 x1 : Byte, storeBytes s.store.cells 9 512 = [0x42, 0x53, 6, 9, 4, f0, f1, x0, x1] →
        let f := within 32 4096 (word16 f0 f1)
        let x := within 32 256 (word16 x0 x1)
        let e := { s.eng with mix := { s.eng.mix with fade := f, cross := x } }
        boots (if f = word16 f0 f1 ∧ x = word16 x0 x1 then ready .ok (-1) e else ready .clamped 0 e)

/-! ## The link -/

/-- HOST_MESSAGE and SHORT_TRANSACTION: a complete message other than a READ is accepted while fewer than 8
commands are unanswered, an oversize one without its payload; otherwise it is discarded and the overrun flag set.
The part sends its status byte during the header, one byte for all of it by the model's choice (entry 5), and 0
during the payload. A transaction that ends before its header or its declared payload is complete is discarded and
sets the overrun flag; an empty one does nothing (R175, R176, R178; entry 40). -/
def Obligations.HostTransactions : Prop :=
  (∀ (kind tag : Byte) (payload : List Byte) (s : State), s.powered = true → kind ≠ 0 →
    let miso := List.replicate 4 (linkStatusByte s.link s.eng.evq) ++ List.replicate payload.length 0
    let m : Message := if payload.length ≤ 1020 then { kind := kind, tag := tag, payload := payload, oversize := false }
      else { kind := kind, tag := tag, payload := [], oversize := true }
    let taken : Link :=
      { s.link with inbound := s.link.inbound ++ [m], unanswered := s.link.unanswered + 1, miso := miso }
    (s.link.unanswered < 8 → exec (.hostMessage kind tag payload) s = .next { s with link := taken })
      ∧ (8 ≤ s.link.unanswered →
        exec (.hostMessage kind tag payload) s = .next { s with link := { s.link with overrun := true, miso := miso } }))
    ∧ ∀ (sent : List Byte) (s : State), s.powered = true →
    (1 ≤ sent.length →
      (sent.length < 4 ∨ ∃ kind tag lo hi payload, sent = kind :: tag :: lo :: hi :: payload ∧ kind ≠ 0
        ∧ payload.length < word16 lo hi) →
      ∃ miso, exec (.shortTransaction sent) s
        = .next { s with link := { s.link with overrun := true, miso := miso } })
    ∧ (sent = [] → exec (.shortTransaction sent) s = .next s)

/-- READ: the oldest reply, else the oldest report, else the empty message is sent after the header and
followed by 0s; it is removed, and a reply's command answered, only when its last byte has been clocked out
(R176, R177, R178). That the four bytes of the header carry one and the same status byte is the model's choice (entry 5):
R176 samples it for each byte. -/
def Obligations.Read : Prop :=
  ∀ (n : Nat) (s : State), s.powered = true →
    let header := List.replicate 4 (linkStatusByte s.link s.eng.evq)
    let sent := fun message : List Byte => header ++ (message ++ List.replicate (n - message.length) 0).take n
    (∀ r rest, s.link.replies = r :: rest → r.bytes.length ≤ n →
      let lk : Link :=
        { s.link with replies := rest, unanswered := s.link.unanswered - 1, miso := sent r.bytes }
      exec (.read n) s = .next { s with link := lk })
    ∧ (∀ r rest, s.link.replies = r :: rest → n < r.bytes.length →
      exec (.read n) s = .next { s with link := { s.link with miso := sent r.bytes } })
    ∧ (∀ r rest, s.link.replies = [] → s.eng.evq.list = r :: rest → r.bytes.length ≤ n →
      let evq : EventQueue := { s.eng.evq with list := rest }
      exec (.read n) s
        = .next { s with eng := { s.eng with evq := evq }, link := { s.link with miso := sent r.bytes } })
    ∧ (∀ r rest, s.link.replies = [] → s.eng.evq.list = r :: rest → n < r.bytes.length →
      exec (.read n) s = .next { s with link := { s.link with miso := sent r.bytes } })
    ∧ (s.link.replies = [] → s.eng.evq.list = [] →
      exec (.read n) s = .next { s with link := { s.link with miso := sent [0, 0, 0, 0] } })

/-- The bytes of a reply and of a report (R175, R180, R181): the header with the payload length, the status
byte or the event code and LOST flag with k and p, then the data, each field of 4 bytes in two's complement,
least significant byte first. -/
def Obligations.OutboundLayout : Prop :=
  (∀ r : Reply,
    let data := r.data.flatMap ReplyItem.bytes
    let n := 1 + data.length
    r.bytes = r.kind :: r.tag :: byte n :: byte (n / 256)
      :: byte (r.status.code + (if r.overrun then 128 else 0)) :: data)
    ∧ (∀ r : Report,
      let word := fun x : Nat => [byte x, byte (x / 256), byte (x / 65536), byte (x / 16777216)]
      let data := r.event.fields.flatMap fieldBytes
      let n := 10 + data.length
      r.bytes = 127 :: 0 :: byte n :: byte (n / 256) :: byte r.event.code
        :: byte (if r.lost then 1 else 0) :: (word r.k ++ word r.p ++ data))
    ∧ ∀ v : Int, -2147483648 ≤ v → v ≤ 2147483647 →
        ∃ b0 b1 b2 b3, fieldBytes v = [b0, b1, b2, b3]
          ∧ (word32 b0 b1 b2 b3 : Int) = if v < 0 then v + 4294967296 else v

/-- The link status byte tells by its bits 0 to 3 whether a reply waits, a report waits, the overrun flag and
the events-lost flag are set (R176); ATTN is low exactly while a reply or a report waits (R183). -/
def Obligations.StatusByteAndAttn : Prop :=
  (∀ (lk : Link) (q : EventQueue),
    (linkStatusByte lk q).getLsbD 0 = !lk.replies.isEmpty ∧ (linkStatusByte lk q).getLsbD 1 = !q.list.isEmpty
      ∧ (linkStatusByte lk q).getLsbD 2 = lk.overrun ∧ (linkStatusByte lk q).getLsbD 3 = q.lost
      ∧ (linkStatusByte lk q).toNat < 16)
    ∧ ∀ s : State, s.attnLow = false ↔ s.link.replies = [] ∧ s.eng.evq.list = []

/-- A block's report joins the tail of the event queue with k and p of the frame if its kind is enabled; it
carries and clears the events-lost flag, which a report that finds 24 queued sets; a disabled one does
nothing (R181, R182). -/
def Obligations.ReportJoinsEventQueue : Prop :=
  ∀ (ev : Event) (k p : Nat) (q : EventQueue),
    (q.mask.getLsbD (ev.code - 1) = true → q.list.length < 24 →
      let report : Report := { event := ev, lost := q.lost, k := k, p := p }
      queueReport ev k p q = { list := q.list ++ [report], mask := q.mask, lost := false })
    ∧ (q.mask.getLsbD (ev.code - 1) = true → 24 ≤ q.list.length →
      queueReport ev k p q = { list := q.list, mask := q.mask, lost := true })
    ∧ (q.mask.getLsbD (ev.code - 1) = false → queueReport ev k p q = q)

/-- UNKNOWN_KIND: kinds 32 to 255 are answered UNKNOWN_KIND with reply kind 255 and no data (R179, R180). Every
command whose message is oversize or whose payload has a length its kind does not accept is refused BAD_LENGTH and
changes nothing else (R175, R186). The model's choices: that the payload of a CUE of unknown action has length 4, 6 or 9,
any other being BAD_LENGTH (entry 24), and that an oversize message of an unknown kind is answered UNKNOWN_KIND (entry 40). -/
def Obligations.UnknownKindsAndWrongLengths : Prop :=
  (∀ (s : State) (m : Message) (rest : List Message), s.Ready m rest → 32 ≤ m.kind.toNat →
    let r : Reply := { kind := 255, tag := m.tag, status := .unknownKind, overrun := s.link.overrun, data := [] }
    let lk : Link := { s.link with inbound := rest, replies := s.link.replies ++ [r], overrun := false }
    exec .unknownKind s = .next { s with link := lk })
    ∧ ∀ (kind : Nat) (c : Instr), rowOf kind = some c →
      ∀ (s : State) (m : Message) (rest : List Message), s.Ready m rest → m.kind.toNat = kind →
        m.oversize = true ∨ legalLength kind m.payload = false →
        exec c s = .next (s.refused m rest .badLength)

/-! ## Settings of the ports, the clock and the lanes -/

/-- PORT_SET: the settings are written, the fill brought into 2 to 14; a port enabled while DISABLED and not
held becomes SEARCHING, one disabled becomes DISABLED, each emptied, with LANE_LOCK, before it the SLIP of a recovery in
progress; P0 disabled while it is the clock source gives way to the internal clock; an index or flag out of range is
refused (R146, R149, R154). All of this holds of a LOCKED port whatever lanes have formed their samples from it; the lanes
that have are silent. The model's choices: LANE_LOCK before CLOCK_SOURCE (entry 32), how a lane is silenced on the open frame
(entry 51), and that the frames of P0 that wait make no engine frame once it is DISABLED (entry 18). -/
def Obligations.PortSet : Prop :=
  ∀ (s : State) (m : Message) (rest : List Message),
    (∀ (p : PortIx) (on lsb : Bool) (fill : Byte),
      s.Takes 1 m [byte p.val, flagByte on, flagByte lsb, fill] rest →
      let q := s.eng.ports[p]
      let f := within 2 14 fill.toNat
      let q1 : Port := { q with enabled := on, lsbFirst := lsb, fill := f }
      let q2 : Port :=
        { q1 with good := 0, bad := 0, buf := [], filling := false, recovery := .none, slip := 0,
                  last := (0, 0), slipEnds := false }
      let after := fun (k : Lock) (e : Engine) =>
        s.answered m rest (clampedUnless (2 ≤ fill.toNat ∧ fill.toNat ≤ 14))
          [flagField on, flagField lsb, natField f, flagField q.held, natField k.code] e
      let put := fun (q : Port) => ({ s.eng with ports := upd s.eng.ports p fun _ => q } : Engine)
      ((on = true ∧ (q.lock ≠ .disabled ∨ q.held = true)) ∨ (on = false ∧ q.lock = .disabled) →
        exec .portSet s = .next (after q.lock (put q1)))
      ∧ (on = true → q.lock = .disabled → q.held = false →
        let found := (put { q2 with lock := .searching, markerSeen := false }).slipEnded p q
        exec .portSet s = .next (after .searching (found.reports (.laneLock p .searching))))
      ∧ (on = false → q.lock ≠ .disabled →
        let off := ((put { q2 with lock := .disabled }).slipEnded p q).reports (.laneLock p .disabled)
        (q.lock = .searching → exec .portSet s = .next (after .disabled off))
        ∧ (q.lock = .locked → s.eng.unheard p → ¬(p = 0 ∧ s.eng.clk.active = .port0) →
          exec .portSet s = .next (after .disabled (off.unawaited p)))
        ∧ (q.lock = .locked → s.eng.unheard p → p = 0 → s.eng.clk.active = .port0 →
          exec .portSet s = .next (after .disabled off.fallenBack))
        ∧ (q.lock = .locked →
          ∃ quiet : Engine, quiet.silences ((put { q2 with lock := .disabled }).slipEnded p q) p ∧
          let told := quiet.reports (.laneLock p .disabled)
          exec .portSet s = .next (after .disabled
            (if p = 0 ∧ s.eng.clk.active = .port0 then told.fallenBack else told.unawaited p)))
        ∧ (q.lock = .locked → ∃ t, exec .portSet s = .next t ∧ t.eng.silent s.eng p)))
    ∧ ∀ p on lsb fill : Byte, s.Takes 1 m [p, on, lsb, fill] rest →
        4 ≤ p.toNat ∨ 2 ≤ on.toNat ∨ 2 ≤ lsb.toNat → exec .portSet s = .next (s.refused m rest .outOfRange)

/-- LANE_SET: the four settings of the lane are written, the trim brought below 16,384; the peak and the
other lanes are kept (R157). -/
def Obligations.LaneSet : Prop :=
  ∀ (s : State) (m : Message) (rest : List Message),
    (∀ (l : LaneIx) (src : Option PortIx) (ch : Channel) (inv : Bool) (t0 t1 : Byte),
      s.Takes 2 m [byte l.val, byte (laneSourceCode src), byte ch.code, flagByte inv, t0, t1] rest →
      let t := min 16383 (word16 t0 t1)
      let lane : Lane := { s.eng.lanes[l] with source := src, channel := ch, invert := inv, trim := t }
      exec .laneSet s
        = .next (s.answered m rest (clampedUnless (word16 t0 t1 ≤ 16383))
            [natField (laneSourceCode src), natField ch.code, flagField inv, natField t]
            { s.eng with lanes := upd s.eng.lanes l fun _ => lane }))
    ∧ ∀ l src ch inv t0 t1 : Byte, s.Takes 2 m [l, src, ch, inv, t0, t1] rest →
        4 ≤ l.toNat ∨ 5 ≤ src.toNat ∨ 3 ≤ ch.toNat ∨ 2 ≤ inv.toNat →
        exec .laneSet s = .next (s.refused m rest .outOfRange)

/-- CLOCK_SET: the values in force change nothing; another rate or source is accepted only while UNSET. A new source
is selected: PORT0 becomes the active one at once when P0 is LOCKED; INTERNAL takes over from an active PORT0, P0
filling its buffer from empty and the frames of it that wait still making theirs (entry 18). A new rate begins a
relock, with the new source selected when both change (entry 46): the PLL is UNLOCKED, PORT0 is left, and each port
returns to SEARCHING (R144 to R146, R149). A port that leaves LOCKED or begins to fill silences the lanes that read it
on the open frame (entry 51), and the relock takes the ports in ascending order, the order of the reports being the model's
choice (entry 32). What is still due on the frame that a relock ends is carried out with it: a sampling event before
PLL_LOCK, after which none occurs while the PLL is UNLOCKED (entry 11), OUTPUT_CLIP of the pair as the silenced lanes
leave it (entry 13), and the cues still due on that frame, each in its turn (R70); that the cues execute in the state the
command leaves, after it, is the model's choice (entry 76). -/
def Obligations.ClockSet : Prop :=
  ∀ (s : State) (m : Message) (rest : List Message),
    (∀ (r0 r1 : Byte) (src : ClockSource), s.Takes 3 m [r0, r1, byte src.code] rest →
      let rate := word16 r0 r1
      let clk := s.eng.clk
      let answer := fun (e : Engine) => s.answered m rest .ok
        [natField e.clk.rate, natField e.clk.selected.code, natField e.clk.active.code,
          flagField e.clk.pllLocked] e
      (rate ≠ 48000 → rate ≠ 44100 → exec .clockSet s = .next (s.refused m rest .outOfRange))
      ∧ (rate = 48000 ∨ rate = 44100 → rate = clk.rate → src = clk.selected →
        exec .clockSet s = .next (answer s.eng))
      ∧ (rate = 48000 ∨ rate = 44100 → rate ≠ clk.rate ∨ src ≠ clk.selected → s.eng.cyc.state ≠ .unset →
        exec .clockSet s = .next (s.refused m rest .wrongState))
      ∧ (rate = 48000 ∨ rate = 44100 → rate = clk.rate → src = .port0 → clk.selected = .internal →
        s.eng.cyc.state = .unset → s.eng.ports[(0 : PortIx)].lock ≠ .locked →
        exec .clockSet s = .next (answer { s.eng with clk := { clk with selected := .port0 } }))
      ∧ (rate = 48000 ∨ rate = 44100 → rate = clk.rate → src = .port0 → clk.selected = .internal →
        s.eng.cyc.state = .unset → s.eng.ports[(0 : PortIx)].lock = .locked → clk.pllLocked = true →
        let clk1 : Clock := { clk with selected := .port0, active := .port0 }
        let ports := upd s.eng.ports 0 fun q =>
          { q with buf := [], filling := false, recovery := .none, slip := 0, slipEnds := false }
        exec .clockSet s
          = .next (answer ({ s.eng with clk := clk1, ports := ports }.reports (.clockSource .port0 .set))))
      ∧ (rate = 48000 ∨ rate = 44100 → rate = clk.rate → src = .internal → clk.selected = .port0 →
        s.eng.cyc.state = .unset → clk.active = .internal →
        exec .clockSet s = .next (answer { s.eng with clk := { clk with selected := .internal } }))
      ∧ (rate = 48000 ∨ rate = 44100 → rate = clk.rate → src = .internal → clk.selected = .port0 →
        s.eng.cyc.state = .unset → clk.active = .port0 →
        (∃ t, exec .clockSet s = .next t ∧ t.eng.silent s.eng 0)
        ∧ (s.eng.unheard 0 →
          let clk1 : Clock := { clk with selected := .internal, active := .internal }
          let ports := upd s.eng.ports 0 fun q => { q with buf := [], filling := true }
          exec .clockSet s
            = .next (answer ({ s.eng with clk := clk1, ports := ports }.reports (.clockSource .internal .set))))
        ∧ (let clk1 : Clock := { clk with selected := .internal, active := .internal }
          let ports := upd s.eng.ports 0 fun q => { q with buf := [], filling := true }
          ∃ quiet : Engine,
            quiet.silences ({ s.eng with clk := clk1, ports := ports }.reports (.clockSource .internal .set)) 0
              ∧ exec .clockSet s = .next (answer quiet)))
      ∧ (rate = 48000 ∨ rate = 44100 → rate ≠ clk.rate → s.eng.cyc.state = .unset → s.eng.mix.clipping = none →
        s.eng.ped.due = false → (∀ c ∈ s.eng.cues.list, c.remaining ≠ 0) → s.eng.fol.coastDue = false →
        (∀ p : PortIx, s.eng.ports[p].lock = .locked → s.eng.ports[p].recovery = .none ∧ s.eng.unheard p) →
        let clk1 : Clock :=
          { clk with rate := rate, selected := src, active := .internal, pllLocked := false, frameOpen := false,
                     p0Frames := [], startRelock := false }
        let mx : Mixer := { s.eng.mix with computed := none, sending := none }
        let say := fun (ev : Event) (q : EventQueue) => queueReport ev s.eng.cyc.k s.eng.cyc.p q
        let evq1 := say (.pllLock false rate) s.eng.evq
        let evq2 := if clk.active = .port0 then say (.clockSource .internal .relock) evq1 else evq1
        let evq3 := quadIxs.foldl (fun q p =>
          if s.eng.ports[p].lock = .locked then say (.laneLock p .searching) q else q) evq2
        ∃ ports : Vector Port 4,
          (∀ p : PortIx, ports[p] =
            if s.eng.ports[p].lock = .locked then (s.eng.ports[p]).drained .searching
            else { s.eng.ports[p] with good := 0 })
          ∧ givesButHeard (exec .clockSet s)
              (answer { s.eng with clk := clk1, mix := mx, ports := ports, evq := evq3 }))
      ∧ (rate = 48000 ∨ rate = 44100 → rate ≠ clk.rate → s.eng.cyc.state = .unset →
        ∃ t, exec .clockSet s = .next t ∧ ∀ p : PortIx, s.eng.ports[p].lock = .locked →
          t.eng.ports[p].lock = .searching ∧ t.eng.ports[p].buf = [] ∧ t.eng.ports[p].good = 0
            ∧ ∀ l : LaneIx, s.eng.lanes[l].formed = some p → t.eng.lanes[l].x = 0)
      -- the relock port by port, the lanes of a LOCKED one silent, then the clip report of the frame that ends, and the
      -- cues that are due on it
      ∧ (rate = 48000 ∨ rate = 44100 → rate ≠ clk.rate → s.eng.cyc.state = .unset → s.eng.ped.due = false →
        ∃ through : Nat → Engine,
          (through 0 =
            let clk1 : Clock := { clk with rate := rate, active := .internal, pllLocked := false, frameOpen := false,
                                           p0Frames := [], startRelock := false }
            let e1 := ({ s.eng with clk := clk1 } : Engine).reports (.pllLock false rate)
            if clk.active = .port0 then e1.reports (.clockSource .internal .relock) else e1)
          ∧ (∀ p : PortIx,
            let q := s.eng.ports[p]
            let e := through p.val
            (q.lock ≠ .locked →
              through (p.val + 1) = { e with ports := upd e.ports p fun _ => { q with good := 0 } })
            ∧ (q.lock = .locked →
              let left := ({ e with ports := upd e.ports p fun _ => q.drained .searching } : Engine).slipEnded p q
              ∃ quiet : Engine, quiet.silences left p
                ∧ through (p.val + 1) = quiet.reports (.laneLock p .searching)))
          ∧ let last := through 4
            let told := match last.mix.clipping with
              | some sides => if last.mix.clipReported then last else last.reports (.outputClip sides)
              | none => last
            let mx : Mixer := { last.mix with
              computed := none, sending := none, clipping := none,
              clipReported := last.mix.clipReported || last.mix.clipping.isSome }
            exec .clockSet s
              = .next (answer (settleCues { told with clk := { last.clk with selected := src }, mix := mx })))
      -- a sampling event still due on the frame that ends comes first
      ∧ (rate = 48000 ∨ rate = 44100 → rate ≠ clk.rate → s.eng.cyc.state = .unset → s.eng.ped.due = true →
        let pins := s.eng.ped.pins
        ∃ t, exec (.samplingEvent pins[0] pins[1] pins[2] pins[3]) s = .next t ∧ t.eng.ped.due = false
          ∧ exec .clockSet s = exec .clockSet t))
    ∧ (∀ r0 r1 src : Byte, s.Takes 3 m [r0, r1, src] rest → 2 ≤ src.toNat →
        exec .clockSet s = .next (s.refused m rest .outOfRange))
    -- the due cues of the frame that ends: none, or each in its turn
    ∧ ∀ g : Engine, g.cyc.state ≠ .baseCapture →
        ((∀ c ∈ g.cues.list, c.remaining ≠ 0) → settleCues g = coast g)
        ∧ ∀ c, nextDue g = some c → nextDue (executeCue c g) = none → settleCues g = coast (executeCue c g)

/-- EVENT_MASK: the mask after power-on and ENGINE_RESET, its setting with the upper byte ignored, its query,
the refusal of any other length, and what the mask does and does not govern (R182). -/
def Obligations.EventMask : Prop :=
  let standard := fun q : EventQueue => ∀ ev : Event, q.enables ev = true ↔ ev.code ≠ 4 ∧ ev.code ≠ 5
  (∀ s : State, ∃ t, exec .powerOn s = .next t ∧ standard t.eng.evq)
    ∧ (∀ (s : State) (m : Message) (rest : List Message), s.Takes 31 m [] rest →
      ∃ t, exec .engineReset s = .next t ∧ standard t.eng.evq)
    ∧ (∀ (q : EventQueue) (ev : Event), q.enables ev = q.mask.getLsbD (ev.code - 1))
    ∧ (∀ (s : State) (m : Message) (rest : List Message),
      (∀ b0 b1 b2 b3 : Byte, s.Takes 12 m [b0, b1, b2, b3] rest →
        let mask : BitVec 24 := b2 ++ b1 ++ b0
        exec .eventMask s
          = .next (s.answered m rest .ok [natField mask.toNat]
              { s.eng with evq := { s.eng.evq with mask := mask } }))
      ∧ (s.Takes 12 m [] rest →
        exec .eventMask s = .next (s.answered m rest .ok [natField s.eng.evq.mask.toNat] s.eng))
      ∧ (∀ b : List Byte, s.Takes 12 m b rest → b.length ≠ 0 → b.length ≠ 4 →
        exec .eventMask s = .next (s.refused m rest .badLength)))
    ∧ (∀ (ev : Event) (k p : Nat) (q : EventQueue), q.mask.getLsbD (ev.code - 1) = false →
        queueReport ev k p q = q)
    ∧ (∀ (ev : Event) (e : Engine), ∃ q, post ev e = { e with evq := q })
    ∧ ∀ (sides : ClipSides) (e : Engine), e.mix.clipReported = false → e.mix.clipping = some sides →
        (reportClip e).mix = { e.mix with clipping := none, clipReported := true }

/-! ## Settings of the cycle, the follower, the mixer and the pedals -/

/-- GRID_SET: in UNSET and BASE_CAPTURE the new B is in force and no B pending; in RUNNING and PAUSED it
becomes the pending B, unless it is the B in force (R12). -/
def Obligations.GridSet : Prop :=
  ∀ (s : State) (m : Message) (rest : List Message) (b : Byte), s.Takes 4 m [b] rest →
    let n := within 1 32 b.toNat
    let status := clampedUnless (1 ≤ b.toNat ∧ b.toNat ≤ 32)
    (s.eng.cyc.state = .unset ∨ s.eng.cyc.state = .baseCapture →
      exec .gridSet s
        = .next (s.answered m rest status [natField n, .field (-1)]
            { s.eng with cyc := { s.eng.cyc with beats := n, pendingBeats := none } }))
    ∧ (s.eng.cyc.state = .running ∨ s.eng.cyc.state = .paused → n = s.eng.cyc.beats →
      exec .gridSet s
        = .next (s.answered m rest status [natField s.eng.cyc.beats, .field (-1)]
            { s.eng with cyc := { s.eng.cyc with pendingBeats := none } }))
    ∧ (s.eng.cyc.state = .running ∨ s.eng.cyc.state = .paused → n ≠ s.eng.cyc.beats →
      exec .gridSet s
        = .next (s.answered m rest status [natField s.eng.cyc.beats, natField n]
            { s.eng with cyc := { s.eng.cyc with pendingBeats := some n } }))

/-- FOLLOW_SET: without arguments it changes nothing; with all of them each is brought into its range. With the source
kept, the hold-off count falls to the new H and the trim is computed in TRACKING; with another one the detector is at
rest, E, delta and the beat count are 0 and the follower is OFF or WAITING. Every reply carries the follower report as it
stands then (R36 to R38), but that of a beat source it does not know, which is refused OUT_OF_RANGE. That the report holds
the source once is the model's choice (entry 50), and so is a trim of 0 in TRACKING while the cycle is UNSET (entry 73). -/
def Obligations.FollowSet : Prop :=
  ∀ (s : State) (m : Message) (rest : List Message),
    let report := fun f : Follower =>
      [natField f.state.code, flagField f.held, natField f.source.code, natField f.threshold, natField f.holdOff,
       natField f.window, natField f.shift, natField f.span, natField f.deltaMax, natField f.spliceThreshold,
       natField f.jMax, natField f.coastBeats, .field f.err, .field f.delta, natField f.beatCount, flagField f.armed,
       natField f.holdCount, flagField f.decisionMade]
        ++ match f.lastOnset with
          | some r => [.field r.err, .field (if r.kind = .detector then 0 else 1), .field (if r.accepted then 0 else 1)]
          | none => [.field (-1), .field (-1), .field (-1)]
    (s.Takes 5 m [] rest → exec .followSet s = .next (s.answered m rest .ok (report s.eng.fol) s.eng))
    ∧ (∀ b : List Byte, s.Takes 5 m b rest → b.length = 18 → 6 ≤ (b.getD 0 0).toNat →
      exec .followSet s = .next (s.refused m rest .outOfRange))
    ∧ ∀ (src : BeatSource) (t0 t1 t2 t3 h0 h1 w0 w1 g sp d0 d1 x0 x1 j0 j1 cb : Byte),
      s.Takes 5 m [byte src.code, t0, t1, t2, t3, h0, h1, w0, w1, g, sp, d0, d1, x0, x1, j0, j1, cb] rest →
      let thr := word32 t0 t1 t2 t3
      let inRange := thr ≤ 8388607 ∧ 480 ≤ word16 h0 h1 ∧ word16 h0 h1 ≤ 24000 ∧ word16 w0 w1 ≤ 4800
        ∧ 1 ≤ g.toNat ∧ g.toNat ≤ 6 ∧ 1 ≤ sp.toNat ∧ sp.toNat ≤ 8 ∧ word16 d0 d1 ≤ 655
        ∧ word16 x0 x1 ≤ 4800 ∧ word16 j0 j1 ≤ 960 ∧ 1 ≤ cb.toNat ∧ cb.toNat ≤ 64
      let f : Follower :=
        { s.eng.fol with
          threshold := min 8388607 thr, holdOff := within 480 24000 (word16 h0 h1),
          window := min 4800 (word16 w0 w1), shift := within 1 6 g.toNat, span := within 1 8 sp.toNat,
          deltaMax := min 655 (word16 d0 d1), spliceThreshold := min 4800 (word16 x0 x1),
          jMax := min 960 (word16 j0 j1), coastBeats := within 1 64 cb.toNat }
      -- the source is kept: the hold-off count falls to the new H, and the trim is computed in TRACKING
      (src = s.eng.fol.source →
        let q := Int.tdiv f.err (f.span * s.eng.cyc.beatLength)
        let delta := if f.state = .tracking then max (-(f.deltaMax : Int)) (min f.deltaMax (-q)) else f.delta
        let f1 : Follower := { f with holdCount := min f.holdCount f.holdOff, delta := delta }
        givesButHeard (exec .followSet s)
          (s.answered m rest (clampedUnless inRange) (report f1) { s.eng with fol := f1 }))
      -- the source changes: detector at rest, E, delta and beat count 0, OFF for NONE or a held follower
      ∧ (src ≠ s.eng.fol.source →
        let st := if f.held = true ∨ src = .none then FollowState.off else .waiting
        let f1 : Follower :=
          { f with source := src, armed := true, arming := false, holdCount := 0, state := st, err := 0, delta := 0,
                   beatCount := 0, coastDue := false }
        let e1 : Engine := { s.eng with fol := f1 }
        givesButHeard (exec .followSet s)
          (s.answered m rest (clampedUnless inRange) (report f1)
            (if s.eng.fol.state = st then e1 else e1.reports (.followState st .source))))

/-- LAYER_MIX, LIVE_MIX, MASTER_SET and FADE_SET: the values are written, each brought into its range; the
reply carries the values in force (R140 to R142). -/
def Obligations.MixSettings : Prop :=
  ∀ (s : State) (m : Message) (rest : List Message),
    (∀ (l : LayerIx) (g0 g1 pan v0 v1 f0 f1 : Byte), s.Takes 6 m [byte l.val, g0, g1, pan, v0, v1, f0, f1] rest →
      let g := min 8191 (word16 g0 g1)
      let p := min 128 pan.toNat
      let v := min 32768 (word16 v0 v1)
      let f := min 32768 (word16 f0 f1)
      exec .layerMix s
        = .next (s.answered m rest
            (clampedUnless (word16 g0 g1 ≤ 8191 ∧ pan.toNat ≤ 128 ∧ word16 v0 v1 ≤ 32768 ∧ word16 f0 f1 ≤ 32768))
            [natField g, natField p, natField v, natField f]
            { s.eng with layers := upd s.eng.layers l fun r =>
                { r with gain := g, pan := p, level := v, feedback := f } }))
    ∧ (∀ (l : LaneIx) (g0 g1 pan : Byte) (mute : Bool), s.Takes 7 m [byte l.val, g0, g1, pan, flagByte mute] rest →
      let g := min 8191 (word16 g0 g1)
      let p := min 128 pan.toNat
      let live := upd s.eng.mix.live l fun v => { v with gain := g, pan := p, mute := mute }
      exec .liveMix s
        = .next (s.answered m rest (clampedUnless (word16 g0 g1 ≤ 8191 ∧ pan.toNat ≤ 128))
            [natField g, natField p, flagField mute, natField s.eng.mix.live[l].env]
            { s.eng with mix := { s.eng.mix with live := live } }))
    ∧ (∀ g0 g1 : Byte, s.Takes 8 m [g0, g1] rest →
      let g := min 8191 (word16 g0 g1)
      exec .masterSet s
        = .next (s.answered m rest (clampedUnless (word16 g0 g1 ≤ 8191)) [natField g]
            { s.eng with mix := { s.eng.mix with master := g } }))
    ∧ (∀ f0 f1 x0 x1 : Byte, s.Takes 9 m [f0, f1, x0, x1] rest →
      let f := within 32 4096 (word16 f0 f1)
      let x := within 32 256 (word16 x0 x1)
      exec .fadeSet s
        = .next (s.answered m rest
            (clampedUnless (32 ≤ word16 f0 f1 ∧ word16 f0 f1 ≤ 4096 ∧ 32 ≤ word16 x0 x1 ∧ word16 x0 x1 ≤ 256))
            [natField f, natField x, natField ((4096 + f - 1) / f)]
            { s.eng with mix := { s.eng.mix with fade := f, cross := x } }))
    ∧ (∀ b : List Byte, s.Takes 6 m b rest → b.length = 8 → 16 ≤ (b[0]?.getD 0).toNat →
      exec .layerMix s = .next (s.refused m rest .outOfRange))
    ∧ ∀ b : List Byte, s.Takes 7 m b rest → b.length = 5 →
        4 ≤ (b[0]?.getD 0).toNat ∨ 2 ≤ (b[4]?.getD 0).toNat → exec .liveMix s = .next (s.refused m rest .outOfRange)

/-- PEDAL_MAP and PEDAL_UNMAP: a mapping is written with no applied position, unless another entry holds its
target, or the entry number, the channel, the target or its argument is out of range; an entry is emptied and its mapping
given back, unless it is empty already or out of range. The target's value is left alone (R162, R163). What the replies hold
of an entry is the model's choice (entries 25, 75). -/
def Obligations.PedalMap : Prop :=
  ∀ (s : State) (m : Message) (rest : List Message),
    (s.Takes 10 m [] rest → exec .pedalMap s = .next (s.answered m rest .ok (pedalReport s.eng) s.eng))
    ∧ (∀ i ch kind a l0 l1 h0 h1 d : Byte, s.Takes 10 m [i, ch, kind, a, l0, l1, h0, h1, d] rest →
      8 ≤ i.toNat ∨ 4 ≤ ch.toNat ∨ 7 ≤ kind.toNat ∨ (kind.toNat ∈ [0, 1, 5, 6] ∧ 16 ≤ a.toNat)
        ∨ (kind.toNat ∈ [2, 3] ∧ 4 ≤ a.toNat) →
      exec .pedalMap s = .next (s.refused m rest .outOfRange))
    ∧ (∀ (i : MapIx) (ch : PedalIx) (t : PedalTarget) (a l0 l1 h0 h1 d : Byte),
      s.Takes 10 m [byte i.val, byte ch.val, byte t.code, a, l0, l1, h0, h1, d] rest →
      (∀ n, t.argument = some n → a = byte n) →
      let low := min t.top (word16 l0 l1)
      let high := min t.top (word16 h0 h1)
      let mp : Mapping :=
        { channel := ch, target := t, low := low, high := high, deadband := min 31 d.toNat, applied := none }
      ((∃ j, j ≠ i ∧ ∃ other, s.eng.ped.map[j] = some other ∧ other.target = t) →
        exec .pedalMap s = .next (s.refused m rest .conflict))
      ∧ ((∀ j, j ≠ i → ∀ other, s.eng.ped.map[j] = some other → other.target ≠ t) →
        exec .pedalMap s
          = .next (s.answered m rest
              (clampedUnless (word16 l0 l1 ≤ t.top ∧ word16 h0 h1 ≤ t.top ∧ d.toNat ≤ 31))
              (mappingFields mp ++ [natField s.eng.ped.chan[ch].raw, natField s.eng.ped.chan[ch].smooth])
              { s.eng with ped := { s.eng.ped with map := upd s.eng.ped.map i fun _ => some mp } })))
    ∧ (∀ i : MapIx, s.Takes 11 m [byte i.val] rest →
      (∀ mp, s.eng.ped.map[i] = some mp →
        exec .pedalUnmap s
          = .next (s.answered m rest .ok (mappingFields mp)
              { s.eng with ped := { s.eng.ped with map := upd s.eng.ped.map i fun _ => none } }))
      ∧ (s.eng.ped.map[i] = none → exec .pedalUnmap s = .next (s.refused m rest .notFound)))
    ∧ ∀ i : Byte, s.Takes 11 m [i] rest → 8 ≤ i.toNat → exec .pedalUnmap s = .next (s.refused m rest .outOfRange)

/-! ## Cues, taps and cycles from the link -/

/-- CUE, whatever its action, target and quantum. Accepted, it removes the pending cue of its target, or, a CLEAR_ALL, every
pending cue, oldest first, with CUE_SUPERSEDED and the return of a superseded RECORD's layer to EMPTY; joins the queue's tail
with the next number and the count given, 1 for IMMEDIATE; a RECORD makes its EMPTY layer ARMED; the next number moves on to
one that no pending cue holds; and the reply carries the number, the number replaced or 0, and the queue's length, CLAMPED
when a weight of an OVERDUB was clamped. Refused in this order: OUT_OF_RANGE for an action, target, quantum, count or
argument that no CUE may have, QUEUE_FULL for a full queue, LAYER_HELD against a hold, WRONG_STATE when the predicted state
does not suit the action (R44, R61 to R66). Holds that a superseding frees are granted (GrantHolds). That the number replaced
of a CLEAR_ALL is that of the pending cue on ALL is the model's choice (entry 44), and the length of an unknown action is the
model's (entry 24). -/
def Obligations.CueAccepted : Prop :=
  (∀ (s : State) (m : Message) (rest : List Message) (b : List Byte), s.Takes 13 m b rest → legalLength 13 b = true →
    outOfRangeCue b → exec .cue s = .next (s.refused m rest .outOfRange))
  ∧ ∀ (s : State) (m : Message) (rest : List Message) (t : Target) (a : Action) (q : Quantum) (n : Byte)
      (args : List Byte), s.Takes 13 m (byte t.code :: byte a.code :: byte q.code :: n :: args) rest →
    a.asked args → a.suits t q n.toNat → s.eng.cues.distinct = true →
    let e := s.eng
    let full := 12 ≤ e.cues.list.length
    let number := e.cues.nextNumber
    let cue : Cue :=
      { number := number, action := a, target := t, quantum := q,
        remaining := if q = .immediate then 1 else n.toNat, deferrals := 0, wave := 0 }
    let goes := fun d : Cue => decide (a = .clearAll ∨ d.target = t)
    let gone := e.cues.list.filter goes
    let list := e.cues.list.filter (fun d => !goes d) ++ [cue]
    let replaced := ((e.cues.list.find? fun d => d.target == t).map Cue.number).getD 0
    -- a layer whose RECORD goes, and a layer as the new cue leaves it
    let disarms := fun (d : Cue) (l : LayerIx) =>
      decide (d.action.records = true ∧ d.target = .layer l ∧ e.layers[l].state = .armed)
    let left := fun l : LayerIx => if gone.any (disarms · l) then
        { e.layers[l] with state := .empty, hold := .none, lastChange := e.cyc.k } else e.layers[l]
    let arms := fun l : LayerIx => decide (a.records = true ∧ t = .layer l ∧ (left l).state = .empty)
    let told := gone.flatMap fun d => Event.cueSuperseded d.number d.target d.action number
      :: (layerIxs.filter (disarms d)).map fun l => .layerState l .empty .cueRemoved d.number
    let said := (layerIxs.filter arms).map fun l => Event.layerState l .armed .cue number
    (full → exec .cue s = .next (s.refused m rest .queueFull))
    ∧ (¬full → ¬e.unheld a t → exec .cue s = .next (s.refused m rest .layerHeld))
    ∧ (¬full → e.unheld a t → ¬e.accepts a t → exec .cue s = .next (s.refused m rest .wrongState))
    ∧ (¬full → e.unheld a t → e.accepts a t →
      ∃ (next : Nat) (layers : Vector Layer 16),
        (∀ d ∈ list, d.number ≠ next)
        ∧ (1 ≤ number → number ≤ 65535 → ∃ k, next = (number + k) % 65535 + 1
          ∧ ∀ i < k, ∃ d ∈ list, d.number = (number + i) % 65535 + 1)
        ∧ (∀ l : LayerIx, layers[l] =
            if arms l then { left l with state := .armed, lastChange := e.cyc.k } else left l)
        ∧ exec .cue s
          = .next (s.answered m rest (clampedUnless (weightsInRange args = true))
              [natField number, natField replaced, natField list.length]
              (grantHolds { e with
                cues := { list := list, nextNumber := next }, layers := layers,
                evq := (told ++ said).foldl (fun q ev => queueReport ev e.cyc.k e.cyc.p q) e.evq })))

/-- CUE_CANCEL: the pending cue with the number leaves the queue with no report of its own, an ARMED layer of
a RECORD returns to EMPTY, its PENDING hold dropped, and the reply carries target and action; the holds that can be granted
once the cue has left are granted (GrantHolds says which); without such a cue it is refused NOT_FOUND (R44, R67, R168,
R169). -/
def Obligations.CueCancel : Prop :=
  ∀ (s : State) (m : Message) (rest : List Message) (n0 n1 : Byte), s.Takes 14 m [n0, n1] rest →
    ((∀ d ∈ s.eng.cues.list, d.number ≠ word16 n0 n1) → exec .cueCancel s = .next (s.refused m rest .notFound))
    ∧ ∀ (before after : List Cue) (c : Cue), s.eng.cues.list = before ++ c :: after → c.number = word16 n0 n1 →
        (∀ d ∈ before ++ after, d.number ≠ c.number) →
        let e := s.dequeued before after
        let answer := fun (e : Engine) =>
          s.answered m rest .ok [natField c.target.code, natField c.action.code] (grantHolds e)
        ((∀ l j lane, c.action = .record j lane → c.target = .layer l → e.layers[l].state ≠ .armed) →
          exec .cueCancel s = .next (answer e))
        ∧ (∀ (l : LayerIx) (j : Nat) (lane : LaneIx), c.action = .record j lane → c.target = .layer l →
          e.layers[l].state = .armed →
          let layers := upd e.layers l fun r =>
            { r with state := .empty, hold := .none, lastChange := e.cyc.k }
          exec .cueCancel s
            = .next (answer ({ e with layers := layers }.reports (.layerState l .empty .cueRemoved c.number))))

/-- TAP: without frames the tap is owed to the first frame that follows; with frames an AUTO_CLOSE and a COAST that are due
on the frame come first (entry 31), in BASE_CAPTURE too; each waiting ONSET cue counts it, whatever the follower does, one
that it makes due coming after the due cues older than it (R70; the waves are the model's, entry 28), and a follower that does
not measure keeps its values. A follower that measures takes the nearest grid point, the lower of two at one distance: the record takes the error, the
kind and the verdict; within W the error filter moves E, the follower enters TRACKING, the beat count returns to
0 and the trim is computed; beyond W nothing else changes (R27 to R31, R68). That a tap without frames is owed to the next
is the model's choice (entry 17). Whether it measures, and the
position, C and B it measures against, are those the frame noted before its cues (entry 31). -/
def Obligations.TapMakesOnset : Prop :=
  (∀ (s : State) (m : Message) (rest : List Message), s.Takes 15 m [] rest →
    (s.eng.clk.frameOpen = false →
      exec .tap s
        = .next (s.answered m rest .ok [] { s.eng with cyc := { s.eng.cyc with owedTaps := s.eng.cyc.owedTaps + 1 } }))
    ∧ (s.eng.clk.frameOpen = true →
      (∃ u, exec .autoClose s = .next u ∧ exec .tap s = exec .tap u)
      ∧ (autoCloseDue s.eng = false → ∃ u, exec .coast s = .next u ∧ exec .tap s = exec .tap u))
    ∧ (s.eng.clk.frameOpen = true → autoCloseDue s.eng = false → s.eng.fol.coastDue = false →
      s.eng.fol.state = .off ∨ s.eng.cyc.onset = none ∨ s.eng.fol.source = .none →
      let list := s.eng.cues.list.mapIdx fun i c =>
        if c.quantum = .onset ∧ 0 < c.remaining then c.counts 0 (s.eng.cues.list.take i) else c
      givesButHeard (exec .tap s)
        (s.answered m rest .ok [] { s.eng with cues := { s.eng.cues with list := list } })))
    ∧ ∀ (s : State) (m : Message) (rest : List Message) (grid : OnsetGrid) (g : Nat), s.Takes 15 m [] rest →
      s.eng.clk.frameOpen = true → autoCloseDue s.eng = false → s.eng.fol.coastDue = false →
      s.eng.fol.source ≠ .none → s.eng.fol.state ≠ .off → s.eng.cyc.onset = some grid →
      1 ≤ grid.beats →
      let list := s.eng.cues.list.mapIdx fun i c =>
        if c.quantum = .onset ∧ 0 < c.remaining then c.counts 0 (s.eng.cues.list.take i) else c
      let counted : Engine := { s.eng with cues := { s.eng.cues with list := list } }
      let beat := grid.len / grid.beats
      let points := fun x => (∃ j, j < grid.beats ∧ x = j * beat) ∨ x = grid.len
      let dist := fun x : Nat => ((grid.p : Int) - x).natAbs
      points g → (∀ x, points x → dist g < dist x ∨ (dist g = dist x ∧ g ≤ x)) →
      let err := (grid.p : Int) - g
      let f := s.eng.fol
      (err.natAbs ≤ f.window →
        let big := f.err + (err * 65536 - f.err) / (2 ^ f.shift : Nat)
        let q := Int.tdiv big ((f.span * beat : Nat) : Int)
        let f1 : Follower :=
          { f with lastOnset := some { err := err, kind := .tap, accepted := true }, err := big,
                   state := .tracking, beatCount := 0, coastDue := false,
                   delta := max (-(f.deltaMax : Int)) (min f.deltaMax (-q)) }
        let e1 : Engine := { counted with fol := f1 }
        givesButHeard (exec .tap s) (s.answered m rest .ok []
          (if f.state = .waiting then e1.reports (.followState .tracking .onset) else e1)))
      ∧ (f.window < err.natAbs →
        let f1 : Follower := { f with lastOnset := some { err := err, kind := .tap, accepted := false } }
        givesButHeard (exec .tap s) (s.answered m rest .ok [] { counted with fol := f1 }))

/-- CYCLE_SET while UNSET with every layer EMPTY: the cycle runs with the C brought into range, from position
0; its CYCLE and BEAT boundary, a LAYER boundary for no layer, is made at once on a running frame, where each waiting CYCLE
and BEAT cue and a TRACKING follower count it, and CYCLE_SET is reported; in any other state it is refused (R5, R7, R32,
R68). The model's choices: that without frames the boundary is owed to the next frame (entry 17), the grid that the onsets of
the frame are then measured against (entry 31), the waves of the cues (entry 28), and that the frame that is owed the
boundary makes it, a layer imported since or not, and applies no pending B (entry 70). -/
def Obligations.CycleSet : Prop :=
  (∀ (s : State) (m : Message) (rest : List Message) (c0 c1 c2 c3 : Byte), s.Takes 16 m [c0, c1, c2, c3] rest →
    let given := word32 c0 c1 c2 c3
    let c := within 4800 2880000 given
    let answer := fun (e : Engine) =>
      s.answered m rest (clampedUnless (4800 ≤ given ∧ given ≤ 2880000)) [natField c] e
    let cyc : Cycle :=
      { s.eng.cyc with state := .running, len := some c, p := 0, frac := 0, k := 0, m := 0, beat := 0,
                       base := none, captureThisPass := false, spliceDone := false,
                       onset := some { p := 0, len := c, beats := s.eng.cyc.beats } }
    let fol : Follower := { s.eng.fol with decisionMade := false }
    let mx : Mixer := { s.eng.mix with window := 0 }
    (s.eng.cyc.state ≠ .unset ∨ (∃ l : LayerIx, s.eng.layers[l].state ≠ .empty) →
      exec .cycleSet s = .next (s.refused m rest .wrongState))
    ∧ (s.eng.cyc.state = .unset → (∀ l : LayerIx, s.eng.layers[l].state = .empty) →
      s.eng.clk.frameOpen = false →
      givesButHeard (exec .cycleSet s)
        (answer ({ s.eng with cyc := { cyc with owedBoundary := true }, fol := fol, mix := mx }.reports
          (.cycleSet c s.eng.cyc.beats))))
    ∧ (s.eng.cyc.state = .unset →
      (∀ l : LayerIx, s.eng.layers[l].state = .empty) →
      s.eng.clk.frameOpen = true →
      let list := s.eng.cues.list.mapIdx fun i d =>
        if (d.quantum = .cycle ∨ d.quantum = .beat) ∧ 0 < d.remaining then d.counts 0 (s.eng.cues.list.take i) else d
      givesButHeard (exec .cycleSet s)
        (answer (({ s.eng with
            cyc := cyc, fol := fol.counted, mix := { mx with clipReported := false },
            cues := { s.eng.cues with list := list } }.reports (.beat 0)).reports (.cycleSet c s.eng.cyc.beats)))))
    -- the frame that is owed the boundary: BEAT 0, and no WRAP; the cues count it, with the passing of the frame
    ∧ ∀ s : State, s.eng.cyc.owedBoundary = true → s.eng.cyc.state = .running →
      (s.giving { s.eng with cyc := { s.eng.cyc with owedBoundary := false } }).Quiet →
      (∀ l : LayerIx, s.eng.voices[l].rs = .idle) → s.eng.mix.clipping = none →
      ∃ t, exec .frame s = .next t ∧ t.eng.mix.clipReported = false
        ∧ t.eng.cues = s.cuesAfter (fun d => d.quantum = .immediate ∨ d.quantum = .cycle ∨ d.quantum = .beat
            ∨ (d.quantum = .onset ∧ t.eng.heard.isSome = true))
        ∧ (t.eng.heard = none →
          t.eng.evq = queueReport (.beat s.eng.cyc.beat) s.eng.cyc.k s.eng.cyc.p s.eng.evq)
        ∧ ∀ c, s.eng.cyc.len = some c → t.eng.cyc = { s.eng.cyc with
            owedBoundary := false, onset := some { p := s.eng.cyc.p, len := c, beats := s.eng.cyc.beats } }

/-! ## Holds and transfers -/

/-- LAYER_HOLD: a hold already HELD or PENDING is answered as it is, a HELD one clearing a waiting release; a
layer whose grant conditions hold becomes HELD, another PENDING; an EMPTY layer, which has no page
filler job (StepKeepsPages), is imported with a chain from the head of the free list, a ZERO_FILL of that chain and a
PENDING hold, unless a cue for the layer or a CLEAR_ALL is pending, when it is refused WRONG_STATE. When the free list is
short the import reclaims kept chains (RecordCue says what that does); one that is
then still short is refused NO_SPACE, what was reclaimed staying freed, and the holds of other layers that can then be
granted are granted; that the voice which a ZERO_FILL so ended held back stays as it is, is the model's choice (entry
72). Either of a layer that there is not is refused OUT_OF_RANGE. LAYER_RELEASE: a layer not held is refused; a PENDING hold is dropped; a HELD one is released at
once, or, while a transfer of the layer is in flight, when that completes (R106, R108, R167, R168, R170, R174). -/
def Obligations.LayerHoldAndRelease : Prop :=
  (∀ (s : State) (m : Message) (rest : List Message) (l : LayerIx) (n : Byte), s.Takes 17 m [byte l.val, n] rest →
    let e := s.eng
    let r := e.layers[l]
    let c := e.cyc.len.getD 0
    let data := fun (r : Layer) => [natField r.state.code, natField (r.mult.getD 0),
      natField (r.mult.getD 0 * c), optField (r.cur.map List.length), natField r.hold.code]
    let put := fun (h : Hold) => ({ e with layers := upd e.layers l fun r => { r with hold := h } } : Engine)
    let waits := (∃ d ∈ e.cues.list, (d.target = .layer l ∧ d.action.writing = true) ∨ d.action = .clearAll)
      ∨ r.written.isSome = true ∨ (∃ j ∈ e.mem.jobs, j.layer = l ∧ j.kind = .zeroFill)
      ∨ (r.state ≠ .playing ∧ r.state ≠ .stopped)
    (r.hold = .held →
      let x := e.xfer.map fun t => if t.layer = l then { t with release := false } else t
      exec .layerHold s = .next (s.answered m rest .ok (data r) { e with xfer := x }))
    ∧ (r.hold = .pending → exec .layerHold s = .next (s.answered m rest .pending (data r) e))
    ∧ (r.hold = .none → r.state ≠ .empty → ¬waits →
      exec .layerHold s = .next (s.answered m rest .ok (data { r with hold := .held }) (put .held)))
    ∧ (r.hold = .none → r.state ≠ .empty → waits →
      exec .layerHold s = .next (s.answered m rest .pending (data { r with hold := .pending }) (put .pending)))
    ∧ (r.hold = .none → r.state = .empty → n.toNat ∉ [1, 2, 3, 4, 6, 8] →
      exec .layerHold s = .next (s.refused m rest .outOfRange))
    ∧ (r.hold = .none → r.state = .empty → n.toNat ∈ [1, 2, 3, 4, 6, 8] →
      e.cyc.state = .unset ∨ e.cyc.state = .baseCapture →
      exec .layerHold s = .next (s.refused m rest .wrongState))
    ∧ (r.hold = .none → r.state = .empty → n.toNat ∈ [1, 2, 3, 4, 6, 8] →
      (∃ d ∈ e.cues.list, d.target = .layer l ∨ d.action = .clearAll) →
      exec .layerHold s = .next (s.refused m rest .wrongState))
    ∧ (r.hold = .none → r.state = .empty → n.toNat ∈ [1, 2, 3, 4, 6, 8] →
      e.cyc.state = .running ∨ e.cyc.state = .paused →
      (∀ d ∈ e.cues.list, d.target ≠ .layer l ∧ d.action ≠ .clearAll) → (∀ j ∈ e.mem.jobs, j.layer ≠ l) →
      let pages := (n.toNat * c + 16383) / 16384
      let walk := reclaimWalk pages 0 none e.mem.age e
      (pages ≤ e.mem.free.length → walk = e)
      ∧ (walk.mem.free.length < pages →
        exec .layerHold s = .next (s.answered m rest .noSpace [] (grantHolds walk)))
      ∧ (pages ≤ walk.mem.free.length →
        let r1 : Layer := { walk.layers[l] with
          mult := some n.toNat, cur := some (walk.mem.free.take pages), hold := .pending, state := .stopped,
          lastChange := e.cyc.k }
        let mem : LoopMem := { walk.mem with
          free := walk.mem.free.drop pages, jobs := walk.mem.jobs ++
            [{ layer := l, key := (walk.mem.free.take pages).head?, kind := .zeroFill, done := 0 }] }
        exec .layerHold s
          = .next (s.answered m rest .pending (data r1)
              (grantHolds (({ walk with layers := upd walk.layers l fun _ => r1, mem := mem } : Engine).reports
                (.layerState l .stopped .imported 0)))))))
    ∧ (∀ (s : State) (m : Message) (rest : List Message) (l n : Byte), 16 ≤ l.toNat →
      (s.Takes 17 m [l, n] rest → exec .layerHold s = .next (s.refused m rest .outOfRange))
      ∧ (s.Takes 18 m [l] rest → exec .layerRelease s = .next (s.refused m rest .outOfRange)))
    ∧ ∀ (s : State) (m : Message) (rest : List Message) (l : LayerIx), s.Takes 18 m [byte l.val] rest →
      let e := s.eng
      let off : Engine := { e with layers := upd e.layers l fun r => { r with hold := .none } }
      (e.layers[l].hold = .none → exec .layerRelease s = .next (s.refused m rest .notHeld))
      ∧ (e.layers[l].hold = .pending → exec .layerRelease s = .next (s.answered m rest .ok [] off))
      ∧ (e.layers[l].hold = .held → (∀ t, e.xfer = some t → t.layer ≠ l) →
        exec .layerRelease s = .next (s.answered m rest .ok [] off))
      ∧ (e.layers[l].hold = .held → ∀ t, e.xfer = some t → t.layer = l →
        exec .layerRelease s = .next (s.answered m rest .ok [] { e with xfer := some { t with release := true } }))

/-- AUDIO_READ and AUDIO_WRITE: an accepted one is in flight with the frames asked for, or with every sample
of its payload; one for a layer that there is not, that is not HELD, beyond the layer's end, or while a transfer is in flight is
refused (R171, R179). -/
def Obligations.AudioTransfers : Prop :=
  (∀ (s : State) (m : Message) (rest : List Message) (b : List Byte), 16 ≤ (b.getD 0 0).toNat →
    (s.Takes 19 m b rest → b.length = 7 → exec .audioRead s = .next (s.refused m rest .outOfRange))
    ∧ (s.Takes 20 m b rest → 8 ≤ b.length → b.length ≤ 1019 → (b.length - 5) % 3 = 0 →
      exec .audioWrite s = .next (s.refused m rest .outOfRange)))
  ∧ ∀ (s : State) (m : Message) (rest : List Message) (l : LayerIx) (f0 f1 f2 f3 : Byte),
    let e := s.eng
    let first := word32 f0 f1 f2 f3
    let len := e.layers[l].mult.getD 0 * e.cyc.len.getD 0
    let start := fun (t : Transfer) => s.started rest { e with xfer := some t } s.store
    let checks := fun (c : Instr) (count : Nat) =>
      (e.layers[l].hold ≠ .held → exec c s = .next (s.refused m rest .notHeld))
      ∧ (e.layers[l].hold = .held → len < first + count → exec c s = .next (s.refused m rest .outOfRange))
      ∧ (e.layers[l].hold = .held → first + count ≤ len → e.xfer.isSome = true →
        exec c s = .next (s.refused m rest .busy))
    (∀ c0 c1 : Byte, s.Takes 19 m [byte l.val, f0, f1, f2, f3, c0, c1] rest →
      let count := word16 c0 c1
      (count = 0 ∨ 340 < count → exec .audioRead s = .next (s.refused m rest .outOfRange))
      ∧ (1 ≤ count → count ≤ 340 → checks .audioRead count)
      ∧ (1 ≤ count → count ≤ 340 → e.layers[l].hold = .held → first + count ≤ len → e.xfer = none →
        exec .audioRead s
          = .next (start { write := false, layer := l, first := first, count := count, moved := 0, tag := m.tag,
                           data := [], release := false })))
    ∧ ∀ xs : List Sample, 1 ≤ xs.length → xs.length ≤ 338 →
        s.Takes 20 m ([byte l.val, f0, f1, f2, f3] ++ sampleBytes xs) rest →
        checks .audioWrite xs.length
        ∧ (e.layers[l].hold = .held → first + xs.length ≤ len → e.xfer = none →
          exec .audioWrite s
            = .next (start { write := true, layer := l, first := first, count := xs.length, moved := 0,
                             tag := m.tag, data := xs, release := false }))

/-! ## Queries -/

/-- LAYER_QUERY and CYCLE_QUERY answer at once and change nothing: the record of a layer, and the state of
the cycle with its tempo in hundredths of a beat per minute, 0 while C is absent; the length is 0 in UNSET and the
base capture's count in BASE_CAPTURE (R18, R60). That an absent chain is sent with the page count -1 is the model's choice
(entry 23). -/
def Obligations.LayerAndCycleQuery : Prop :=
  ∀ (s : State) (m : Message) (rest : List Message),
    (∀ l : LayerIx, s.Takes 21 m [byte l.val] rest →
      let r := s.eng.layers[l]
      let v := s.eng.voices[l]
      let n := r.mult.getD 0
      let c := s.eng.cyc.len.getD 0
      let chain := fun (ch : Option (List Nat)) => [flagField ch.isSome, optField (ch.map List.length)]
      let target := if (r.state = .playing ∨ r.state = .overdubbing) ∧ v.rs ≠ .priming ∧ r.mute = false
        ∧ s.eng.cyc.state = .running then 4096 else 0
      let cue := match s.eng.cues.list.find? (fun d => d.target == .layer l) with
        | some d => [natField d.number, natField d.action.code, natField d.quantum.code]
        | none => [.field (-1), .field (-1), .field (-1)]
      exec .layerQuery s
        = .next (s.answered m rest .ok
            ([natField r.state.code, natField n, natField (n * c)] ++ chain r.cur ++ chain r.undo ++ chain r.redo
              ++ [optField (r.cur.getD []).head?, optField (r.cur.getD []).getLast?,
                  optField (r.written.map Prod.fst), optField (r.written.map Prod.snd),
                  optField (r.slot.map Fin.val), natField r.hold.code, natField r.gain, natField r.pan,
                  flagField r.mute, natField r.level, natField r.feedback, natField r.lastChange]
              ++ cue
              ++ [optField (r.mult.map fun n => (s.eng.cyc.m % n) * c + s.eng.cyc.p), natField v.env,
                  natField target, natField v.rs.code])
            s.eng))
    ∧ (∀ l : Byte, s.Takes 21 m [l] rest → 16 ≤ l.toNat →
      exec .layerQuery s = .next (s.refused m rest .outOfRange))
    ∧ (∀ c : Nat, s.Takes 22 m [] rest → s.eng.cyc.state = .running ∨ s.eng.cyc.state = .paused →
        s.eng.cyc.len = some c → s.eng.cyc.base = none → 0 < c →
        let cy := s.eng.cyc
        ∃ tempo : Nat, 2 * c * tempo ≤ 2 * 6000 * s.eng.clk.rate * cy.beats + c
          ∧ 2 * 6000 * s.eng.clk.rate * cy.beats + c < 2 * c * (tempo + 1)
          ∧ exec .cycleQuery s
            = .next (s.answered m rest .ok
                [natField cy.state.code, natField c, natField cy.beats, optField cy.pendingBeats,
                 natField (c / cy.beats), natField cy.p, natField cy.frac, natField cy.k, natField cy.m,
                 natField cy.beat, natField cy.splice.code, flagField cy.spliceDone, .field tempo] s.eng))
    ∧ ∀ n : Nat, s.Takes 22 m [] rest → s.eng.cyc.len = none →
        ((s.eng.cyc.state = .unset ∧ s.eng.cyc.base = none ∧ n = 0)
          ∨ (s.eng.cyc.state = .baseCapture
            ∧ ∃ l sl, s.eng.cyc.base = some l ∧ s.eng.layers[l].slot = some sl ∧ n = s.eng.slots[sl].count)) →
        let cy := s.eng.cyc
        exec .cycleQuery s
          = .next (s.answered m rest .ok
              [natField cy.state.code, natField n, natField cy.beats, optField cy.pendingBeats, natField 0,
               natField cy.p, natField cy.frac, natField cy.k, natField cy.m, natField cy.beat,
               natField cy.splice.code, flagField cy.spliceDone, .field 0] s.eng)

/-- LANE_QUERY: the lane, its peak, its source port and the clock as they stand; then the lane's peak is 0.
MEMORY_QUERY answers at once and changes nothing: the free pages and the next page, the pages of all current, undo and
redo chains, the undo age list, the jobs with their progress, the grant, and of each slot the staging level, the data
entries and an open gap run (R125, R158; entries 21, 23). That the reply then holds the hold of every layer, which R174
says MEMORY_QUERY reports and R125 does not list, stands at the model's choice of place (entry 57). -/
def Obligations.LaneAndMemoryQuery : Prop :=
  (∀ (s : State) (m : Message) (rest : List Message),
    (∀ l : LaneIx, s.Takes 23 m [byte l.val] rest →
      let ln := s.eng.lanes[l]
      let clk := s.eng.clk
      let port := match ln.source with
        | some p =>
          let q := s.eng.ports[p]
          [flagField q.enabled, flagField q.lsbFirst, flagField q.held, natField q.lock.code, natField q.good,
           natField q.bad, natField q.buf.length, natField q.fill, flagField q.filling,
           natField q.recovery.code, natField q.slip]
        | none => []
      exec .laneQuery s
        = .next (s.answered m rest .ok
            ([natField (laneSourceCode ln.source), natField ln.channel.code, flagField ln.invert,
              natField ln.trim, natField ln.peak] ++ port
              ++ [natField clk.rate, natField clk.selected.code, natField clk.active.code,
                  flagField clk.pllLocked])
            { s.eng with lanes := upd s.eng.lanes l fun ln => { ln with peak := 0, peakBefore := 0 } }))
    ∧ ∀ l : Byte, s.Takes 23 m [l] rest → 4 ≤ l.toNat → exec .laneQuery s = .next (s.refused m rest .outOfRange))
    ∧ ∀ (s : State) (m : Message) (rest : List Message), s.Takes 24 m [] rest →
      let e := s.eng
      let size := fun (chain : Option (List Nat)) => (chain.getD []).length
      let pages := fun (which : Layer → Option (List Nat)) => ∑ l : LayerIx, size (which e.layers[l])
      let age := fun a : LayerIx × AgeKind =>
        [natField a.1.val, natField a.2.code,
         natField (match a.2 with
           | .undo => size e.layers[a.1].undo
           | .redo => size e.layers[a.1].redo)]
      let job := fun (running : Bool) (j : Job) =>
        [natField j.layer.val, natField j.kind.code, flagField running,
         natField (match j.kind, e.layers[j.layer].written with
           | .finishCopy, some (_, w) => w
           | .finishCopy, none => 0
           | .zeroFill, _ => j.done)]
      let jobs := match e.mem.jobs with
        | [] => []
        | j :: more => job true j ++ more.flatMap (job false)
      let grant := match e.mem.grant with
        | some g => [natField g.cls, natField g.who.code, flagField g.write, natField g.count, natField g.left]
        | none => [.field (-1), .field (-1), .field (-1), .field (-1), .field (-1)]
      let staged := fun i : SlotIx =>
        let list := e.slots[i].staging
        [natField (list.map fun en => match en.body with
           | .data _ _ => 1
           | .gap _ n _ => n).sum,
         natField (list.filter Entry.isData).length,
         match list.getLast? with
           | some { body := .gap _ n true, .. } => natField n
           | _ => .field (-1)]
      exec .memoryQuery s
        = .next (s.answered m rest .ok
            ([natField e.mem.free.length, optField e.mem.free.head?, natField (pages Layer.cur),
              natField (pages Layer.undo), natField (pages Layer.redo), natField e.mem.age.length]
              ++ e.mem.age.flatMap age ++ [natField e.mem.jobs.length] ++ jobs ++ grant ++ staged 0 ++ staged 1
              ++ layerIxs.map fun l => natField e.layers[l].hold.code)
            e)

/-! ## The setup store -/

/-- IDENT and STORE_READ change nothing: the three factory values with the rate and the bounds of the user
area; the bytes asked for, unless they are none, too many, beyond the end, or a write is in flight (R188,
R189). -/
def Obligations.StoreReading : Prop :=
  ∀ (s : State) (m : Message) (rest : List Message),
    (∀ pt hw sr : List Byte, s.Takes 25 m [] rest → findFactory s.store.cells 0x50 0x54 = .value pt →
      findFactory s.store.cells 0x48 0x57 = .value hw → findFactory s.store.cells 0x53 0x52 = .value sr →
      exec .ident s
        = .next (s.answered m rest .ok
            [natField pt.length, .raw pt, natField hw.length, .raw hw, natField sr.length, .raw sr,
             natField s.eng.clk.rate, natField 512, natField 3584] s.eng))
    ∧ ∀ o0 o1 c0 c1 : Byte, s.Takes 26 m [o0, o1, c0, c1] rest →
        let off := word16 o0 o1
        let count := word16 c0 c1
        (1 ≤ count → count ≤ 256 → off + count ≤ 4096 → s.store.job = none →
          exec .storeRead s
            = .next (s.answered m rest .ok
                [.raw ((List.range count).map fun i => cellRead s.store.cells (off + i))] s.eng))
        ∧ (count = 0 ∨ 256 < count ∨ 4096 < off + count →
          exec .storeRead s = .next (s.refused m rest .outOfRange))
        ∧ (1 ≤ count → count ≤ 256 → off + count ≤ 4096 → s.store.job.isSome = true →
          exec .storeRead s = .next (s.refused m rest .busy))

/-- STORE_WRITE: a write of whole words in the user area is in flight with nothing programmed yet; one that is
unaligned or beyond the end, in the factory area, or during another write is refused (R179, R190). -/
def Obligations.StoreWrite : Prop :=
  ∀ (s : State) (m : Message) (rest : List Message) (o0 o1 : Byte) (data : List Byte),
    s.Takes 27 m (o0 :: o1 :: data) rest → 4 ≤ data.length → data.length ≤ 64 → data.length % 4 = 0 →
    let off := word16 o0 o1
    (off % 4 ≠ 0 ∨ 4096 < off + data.length → exec .storeWrite s = .next (s.refused m rest .outOfRange))
    ∧ (off % 4 = 0 → off + data.length ≤ 4096 → off < 512 → exec .storeWrite s = .next (s.refused m rest .prot))
    ∧ (off % 4 = 0 → off + data.length ≤ 4096 → 512 ≤ off → s.store.job.isSome = true →
      exec .storeWrite s = .next (s.refused m rest .busy))
    ∧ (off % 4 = 0 → off + data.length ≤ 4096 → 512 ≤ off → s.store.job = none →
      let j : StoreJob := { offset := off, data := data, done := 0, tag := m.tag }
      exec .storeWrite s = .next (s.started rest s.eng { s.store with job := some j }))

/-- STORE_WORD_COMPLETE: the next word of the write takes its four bytes and no other byte changes; the last
one completes the write with its reply and STORE_DONE; an interrupted word finishes with its new value or its
old one (R190, R191; entry 9). -/
def Obligations.StoreWordComplete : Prop :=
  ∀ s : State, s.powered = true →
    (∀ j : StoreJob, cellsWf s.store.cells = true → s.store.interrupted = none → s.store.job = some j →
      4 * j.done + 4 ≤ j.data.length →
      let at' := j.offset + 4 * j.done
      ∃ cells, (∀ a, cellRead cells a =
            if at' ≤ a ∧ a < at' + 4 then j.data.getD (a - j.offset) 0 else cellRead s.store.cells a)
        ∧ (4 * j.done + 4 < j.data.length →
          exec .storeWordComplete s
            = .next { s with store := { s.store with cells := cells, job := some { j with done := j.done + 1 } } })
        ∧ (j.data.length = 4 * j.done + 4 → s.eng.clk.frameOpen = true →
          let r : Reply := { kind := 155, tag := j.tag, status := .ok, overrun := s.link.overrun, data := [] }
          let lk : Link := { s.link with replies := s.link.replies ++ [r], overrun := false }
          exec .storeWordComplete s
            = .next { s with store := { s.store with cells := cells, job := none }, link := lk,
                             eng := s.eng.reports (.storeDone j.offset j.data.length) }))
    ∧ ∀ (a : Nat) (w : List Byte), s.store.interrupted = some (a, w) →
        ∃ cells, (cells = s.store.cells ∨ cells = cellWrites s.store.cells a w)
          ∧ exec .storeWordComplete s
            = .next { s with store := { s.store with cells := cells, interrupted := none },
                             freeCount := s.freeCount + 1 }

/-- STORE_APPLY: refused BUSY during a store write; NOT_FOUND without an entry; BAD_STORE for a malformed list or
value; else the messages of the entry are executed in order with no reply of their own, and the first that is not
answered OK, CLAMPED among them, ends the apply with its status and its index. The data are the status and the
failing index. A message of a kind that R192 lets a setup hold does what that kind's own row does with its payload, and is
answered alike; any other kind is UNKNOWN_KIND and changes nothing (R179, R192). The model's choices: that an apply which
fails carries these data (entry 22), and that a status sent as a field is its code (entry 61). -/
def Obligations.StoreApply : Prop :=
  (∀ kind ∈ [1, 2, 3, 4, 5, 6, 7, 8, 9, 10, 11, 12, 16, 29, 30], ∃ c, rowOf kind = some c ∧
    ∀ (s : State) (m : Message) (rest : List Message) (payload : List Byte), s.Takes kind m payload rest →
      let out := configCommand kind payload s.eng
      exec c s = .next (s.answered m rest out.2.status out.2.data out.1))
  ∧ (∀ (kind : Nat) (payload : List Byte) (e : Engine),
    kind ∉ [1, 2, 3, 4, 5, 6, 7, 8, 9, 10, 11, 12, 16, 29, 30] →
      configCommand kind payload e = (e, { status := .unknownKind, data := [] }))
  ∧ ∀ (s : State) (m : Message) (rest : List Message) (k0 k1 : Byte), s.Takes 28 m [k0, k1] rest →
    let tells := fun (st : Status) (i : Int) (e : Engine) =>
      exec .storeApply s = .next (s.answered m rest st [natField st.code, .field i] e)
    let found := findUser s.store.cells k0 k1
    (s.store.job.isSome = true → exec .storeApply s = .next (s.refused m rest .busy))
    ∧ (s.store.job = none →
      (cellRead s.store.cells 512 = 0 → tells .notFound (-1) s.eng)
      ∧ (found = .absent → tells .notFound (-1) s.eng)
      ∧ (found = .malformed → tells .badStore (-1) s.eng)
      ∧ (∀ (msgs : List (Byte × List Byte)), (∀ m ∈ msgs, m.2.length ≤ 255) →
        (∀ more : List Byte, found = .value (setupValue msgs ++ more) →
          (more.length = 1 ∨ ∃ kind len left, more = kind :: len :: left ∧ left.length < len.toNat) →
          tells .badStore (-1) s.eng)
        ∧ ∀ through : Nat → Engine, found = .value (setupValue msgs) → through 0 = s.eng →
          (setupRuns msgs msgs.length through → tells .ok (-1) (through msgs.length))
          ∧ ∀ n q, setupRuns msgs n through → msgs[n]? = some q →
              let last := configCommand q.1.toNat q.2 (through n)
              last.2.status ≠ .ok → tells last.2.status n last.1)
      ∧ (k0 ≠ 0 → ∀ f0 f1 x0 x1 : Byte,
        storeBytes s.store.cells 9 512 = [k0, k1, 6, 9, 4, f0, f1, x0, x1] →
        let f := within 32 4096 (word16 f0 f1)
        let x := within 32 256 (word16 x0 x1)
        let e := { s.eng with mix := { s.eng.mix with fade := f, cross := x } }
        if f = word16 f0 f1 ∧ x = word16 x0 x1 then tells .ok (-1) e else tells .clamped 0 e))

/-! ## Block holds -/

/-- BLOCK_HOLD and BLOCK_RELEASE: the follower is OFF with its detector at rest while held and WAITING again
when released with a source; a held port is DISABLED and emptied with LANE_LOCK, before it the SLIP of a recovery in
progress, a LOCKED P0 that is the clock source giving way to the internal clock (R146), and SEARCHING again when released
enabled; one that is DISABLED already, or released while not enabled, stays so; the held pedal sampler is seeded again
by its release; what is held already, or not held, changes nothing (R39, R40, R149, R155, R165, R184). The model's
choices: LANE_LOCK before CLOCK_SOURCE (entry 32), how a lane is silenced on the open frame (entry 51), and that the
frames of P0 that wait make no engine frame once it is held (entry 18). A LOCKED port is left so whatever lanes have formed
their samples from it. -/
def Obligations.BlockHolds : Prop :=
  ∀ (s : State) (m : Message) (rest : List Message),
    let e := s.eng
    let held := fun (c : Instr) (on : Bool) (e : Engine) =>
      exec c s = .next (s.answered m rest .ok [flagField on] e)
    let follows := fun (c : Instr) (on : Bool) (e : Engine) =>
      givesButHeard (exec c s) (s.answered m rest .ok [flagField on] e)
    (s.Takes 29 m [0] rest →
      let f : Follower := { e.fol with held := true, armed := true, arming := false, holdCount := 0, state := .off,
                                       err := 0, delta := 0, beatCount := 0, coastDue := false }
      (e.fol.held = false → e.fol.state ≠ .off →
        follows .blockHold true ({ e with fol := f }.reports (.followState .off .hold)))
      ∧ (e.fol.held = false → e.fol.state = .off → follows .blockHold true { e with fol := f })
      ∧ (e.fol.held = true → follows .blockHold true e))
    ∧ (s.Takes 30 m [0] rest →
      let f : Follower := { e.fol with held := false, armed := true, arming := false, holdCount := 0 }
      (e.fol.held = true → e.fol.state = .off → e.fol.source ≠ .none →
        follows .blockRelease false
          ({ e with fol := { f with state := .waiting, err := 0, delta := 0, beatCount := 0, coastDue := false } }.reports
            (.followState .waiting .release)))
      ∧ (e.fol.held = true → e.fol.source = .none → follows .blockRelease false { e with fol := f })
      ∧ (e.fol.held = false → follows .blockRelease false e))
    ∧ (∀ p : PortIx, s.Takes 29 m [byte (1 + p.val)] rest →
      (e.ports[p].held = false → e.ports[p].lock ≠ .disabled →
        let ports := upd e.ports p fun q =>
          { q with held := true, lock := .disabled, good := 0, bad := 0, buf := [], filling := false,
                   recovery := .none, slip := 0, last := (0, 0), slipEnds := false }
        let off := (({ e with ports := ports } : Engine).slipEnded p e.ports[p]).reports (.laneLock p .disabled)
        (e.ports[p].lock = .searching → held .blockHold true off)
        ∧ (e.ports[p].lock = .locked → e.unheard p → ¬(p = 0 ∧ e.clk.active = .port0) →
          held .blockHold true (off.unawaited p))
        ∧ (e.ports[p].lock = .locked → e.unheard p → p = 0 → e.clk.active = .port0 →
          held .blockHold true off.fallenBack)
        ∧ (e.ports[p].lock = .locked →
          ∃ quiet : Engine, quiet.silences (({ e with ports := ports } : Engine).slipEnded p e.ports[p]) p ∧
          let told := quiet.reports (.laneLock p .disabled)
          held .blockHold true (if p = 0 ∧ e.clk.active = .port0 then told.fallenBack else told.unawaited p))
        ∧ (e.ports[p].lock = .locked → ∃ t, exec .blockHold s = .next t ∧ t.eng.silent e p))
      ∧ (e.ports[p].held = false → e.ports[p].lock = .disabled →
        held .blockHold true { e with ports := upd e.ports p fun q => { q with held := true } })
      ∧ (e.ports[p].held = true → held .blockHold true e))
    ∧ (∀ p : PortIx, s.Takes 30 m [byte (1 + p.val)] rest →
      (e.ports[p].held = true → e.ports[p].enabled = true → e.ports[p].lock = .disabled →
        let ports := upd e.ports p fun q =>
          { q with held := false, lock := .searching, good := 0, bad := 0, buf := [], filling := false,
                   recovery := .none, slip := 0, last := (0, 0), slipEnds := false, markerSeen := false }
        held .blockRelease false
          ((({ e with ports := ports } : Engine).slipEnded p e.ports[p]).reports (.laneLock p .searching)))
      ∧ (e.ports[p].held = true → e.ports[p].enabled = false →
        held .blockRelease false { e with ports := upd e.ports p fun q => { q with held := false } })
      ∧ (e.ports[p].held = false → held .blockRelease false e))
    ∧ (s.Takes 29 m [5] rest → held .blockHold true { e with ped := { e.ped with held := true } })
    ∧ (s.Takes 30 m [5] rest →
      (e.ped.held = true → ∃ chan : Vector Pedal 4, (∀ i : PedalIx, chan[i] = { e.ped.chan[i] with seed := true })
        ∧ held .blockRelease false { e with ped := { e.ped with held := false, chan := chan } })
      ∧ (e.ped.held = false → held .blockRelease false e))
    ∧ ∀ b : Byte, 6 ≤ b.toNat →
        (s.Takes 29 m [b] rest → exec .blockHold s = .next (s.refused m rest .outOfRange))
        ∧ (s.Takes 30 m [b] rest → exec .blockRelease s = .next (s.refused m rest .outOfRange))

/-! ## The frame and the cycle clock -/

/-- FRAME on a quiet part, on which cues wait, a follower follows, and a transfer, a job and a grant may be in progress. While
RUNNING the position moves by 65,536 + delta: with no grid point reached, with one reached, and over the end of the cycle,
where k and m move on and a pending B is applied; in UNSET and PAUSED it stands still. The passing of the frame makes the
IMMEDIATE cues due, and a BEAT, CYCLE, LAYER or ONSET boundary of the frame lowers the counts of the cues that wait for it; a
BEAT boundary lengthens the beat count of a TRACKING follower until COAST is due, the wrap computes its trim anew when it
applies a pending B, and the frame that reaches the middle makes the decision, which may ask for a splice (SpliceSteps). The
output port sends the pair of the frame before, the sampling count moves on, a grant in progress runs one period, on an idle
port the request that is served before all others is granted, and the layers, slots, memory, clock, transfer, link and store
are left alone (R3, R8, R13 to R16, R31, R32, R34, R68, R118 to R123, R138, R159). The waves that the cues take are the
model's choice (entry 28), and so are that the decision comes before the frame's onset (entry 31), that the requests on an
idle port are taken as the frame ends (entry 3), when a voice is given the frames that read as zeros without a grant (entry
16), and that a chain is known by its first page (entry 27). What a FRAME does to the ports is stated in PortFrames, to the voices in VoiceEvents, to captures in FixedCaptureComplete, to the detector in TimersEnd. -/
def Obligations.Frame : Prop :=
  ∀ s : State, s.Quiet →
    let cy := s.eng.cyc
    let fol := s.eng.fol
    let sum := (cy.frac + (65536 + fol.delta)).toNat
    let p := cy.p + sum / 65536
    let f := sum % 65536
    ∃ t, exec .frame s = .next t
      -- the cues that count a boundary of the frame, those of its own passing and of its onset among them
      ∧ let counted := fun (c : Cue) (reached : Quantum → Prop) =>
          c.quantum = .immediate ∨ reached c.quantum ∨ (c.quantum = .onset ∧ t.eng.heard.isSome = true)
        -- the follower, while the frame has no detector onset, but for its detector
        let follows := fun (f : Follower) (decided : Bool) => t.eng.heard = none →
          t.eng.fol = { f with decisionMade := decided, armed := t.eng.fol.armed, arming := t.eng.fol.arming,
                               holdCount := t.eng.fol.holdCount }
        (cy.state = .unset ∨ cy.state = .paused →
          t.eng.cyc = { cy with onset := none } ∧ t.eng.cues = s.cuesAfter (fun c => counted c fun _ => False)
            ∧ follows fol fol.decisionMade)
      ∧ (∀ c, cy.state = .running → cy.len = some c →
        let beat := c / cy.beats
        let grid := fun p beats => some ({ p := p, len := c, beats := beats } : OnsetGrid)
        let middle := decide (cy.p < c / 2 ∧ c / 2 ≤ p)
        let asks := middle = true ∧ fol.decisionMade = false ∧ fol.state = .tracking
          ∧ fol.spliceThreshold * 65536 ≤ fol.err.natAbs
        (p < c → ¬asks → t.eng.cyc.splice = .idle)
        ∧ (p < c → cy.beats ≤ cy.beat + 1 ∨ p < (cy.beat + 1) * beat →
          t.eng.cyc = { cy with p := p, frac := f, onset := grid p cy.beats, splice := t.eng.cyc.splice }
          ∧ t.eng.cues = s.cuesAfter (fun c => counted c fun _ => False)
          ∧ follows fol (fol.decisionMade || middle))
        ∧ (p < c → cy.beat + 1 < cy.beats → (cy.beat + 1) * beat ≤ p →
          cy.beats ≤ cy.beat + 2 ∨ p < (cy.beat + 2) * beat →
          t.eng.cyc = { cy with
            p := p, frac := f, beat := cy.beat + 1, onset := grid p cy.beats, splice := t.eng.cyc.splice }
          ∧ t.eng.cues = s.cuesAfter (fun c => counted c (· = .beat))
          ∧ follows fol.counted (fol.decisionMade || middle))
        ∧ (c ≤ p →
          let beats := cy.pendingBeats.getD cy.beats
          let m := (cy.m + 1) % 24
          let wraps := fun l : LayerIx => ∃ n, s.eng.layers[l].mult = some n ∧ m % n = 0
          let quot := Int.tdiv fol.err ((fol.span * (c / beats) : Nat) : Int)
          let trimmed : Follower := if cy.pendingBeats.isSome = true ∧ fol.state = .tracking then
            { fol with delta := max (-(fol.deltaMax : Int)) (min fol.deltaMax (-quot)) } else fol
          t.eng.cyc = { cy with
            p := p - c, frac := f, k := (cy.k + 1) % 4294967296, m := m, beats := beats, pendingBeats := none, beat := 0,
            spliceDone := false, captureThisPass := false, onset := grid (p - c) beats }
          ∧ (∀ i : Nat, ∀ d, s.eng.cues.list[i]? = some d →
            (counted d (fun q => q = .cycle ∨ q = .beat ∨ (q = .layer ∧ ∃ l, d.target = .layer l ∧ wraps l)) →
              t.eng.cues.list[i]? = some { d with remaining := d.remaining - 1, wave := 0 })
            ∧ (¬counted d (fun q => q = .cycle ∨ q = .beat ∨ (q = .layer ∧ ∃ l, d.target = .layer l ∧ wraps l)) →
              t.eng.cues.list[i]? = some d))
          ∧ follows trimmed.counted false))
      ∧ t.eng.cues.nextNumber = s.eng.cues.nextNumber ∧ t.eng.cues.list.length = s.eng.cues.list.length
      ∧ t.eng.mix.sending = s.eng.mix.computed ∧ t.eng.mix.master = s.eng.mix.master
      ∧ t.eng.mix.fade = s.eng.mix.fade ∧ t.eng.mix.cross = s.eng.mix.cross
      ∧ t.eng.ped.count = (if s.eng.ped.count = 31 then 0 else s.eng.ped.count + 1)
      ∧ t.eng.layers = s.eng.layers ∧ t.eng.slots = s.eng.slots
      ∧ t.eng.mem = { s.eng.mem with grant := t.eng.mem.grant } ∧ t.eng.clk = s.eng.clk
      ∧ t.eng.xfer = s.eng.xfer ∧ t.link = s.link ∧ t.store = s.store ∧ t.powered = true
      ∧ t.freeCount = s.freeCount
      -- the memory port: a grant in progress, and the choice on an idle one, made once the voices have settled, a voice
      -- whose next frames read as zeros having them at once
      ∧ let rests := fun l : LayerIx =>
          primingDue s.eng l = false ∧ voiceIdleDue s.eng l = false ∧ clearFadeDue s.eng l = false
        let runs := fun g : Grant => { g with left := g.left - 1 }
        ((∀ l : LayerIx, rests l) → ∀ g, s.eng.mem.grant = some g → t.eng.mem.grant = some (runs g))
        ∧ (s.eng.mem.grant = none → ∃ (voices : Vector Voice 16) (o : Option Grant),
          ({ s.eng with voices := voices } : Engine).picks o ∧ t.eng.mem.grant = o.map runs
            ∧ ∀ l : LayerIx, rests l →
              (s.eng.layers[l].written = none → voices[l] = s.eng.voices[l])
              ∧ ∃ (n : Nat) (flag : Bool), voices[l] = { s.eng.voices[l] with
                  flag := flag,
                  main := { s.eng.voices[l].main with frames := s.eng.voices[l].main.frames ++ List.replicate n 0 } })

/-- A CYCLE boundary goes to its receivers in order: the clip-reported flag is cleared; each cue that waits
for CYCLE, BEAT, or LAYER with a layer that wraps now counts it once, in a wave no earlier than those of the due cues older
than it, so that it executes after them (R70); BEAT and then WRAP for each such layer in
ascending order are reported (R15 to R17, R68, R139). That BEAT is reported before the WRAPs is the model's choice
(entry 32), and so are the waves the cues take (entry 28). -/
def Obligations.CycleBoundaryReceived : Prop :=
  ∀ (wave : Nat) (e : Engine),
    let wraps := fun l : LayerIx => ∃ n, e.layers[l].mult = some n ∧ e.cyc.m % n = 0
    (cycleBoundary wave e).mix = { e.mix with clipReported := false }
      ∧ (∀ i : Nat, ∀ c, e.cues.list[i]? = some c →
        (((c.quantum = .cycle ∨ c.quantum = .beat ∨ (c.quantum = .layer ∧ ∃ l, c.target = .layer l ∧ wraps l))
            ∧ 0 < c.remaining →
          (cycleBoundary wave e).cues.list[i]? = some (c.counts wave (e.cues.list.take i)))
        ∧ (¬((c.quantum = .cycle ∨ c.quantum = .beat ∨ (c.quantum = .layer ∧ ∃ l, c.target = .layer l ∧ wraps l))
            ∧ 0 < c.remaining) →
          (cycleBoundary wave e).cues.list[i]? = some c)))
      ∧ ∃ ls : List LayerIx, ls.Pairwise (· < ·) ∧ (∀ l, l ∈ ls ↔ wraps l)
          ∧ (cycleBoundary wave e).evq
            = ls.foldl (fun q l => queueReport (.wrap l) e.cyc.k e.cyc.p q)
                (queueReport (.beat e.cyc.beat) e.cyc.k e.cyc.p e.evq)

/-- The splice. The mid-cycle decision asks for one when the error of a tracking follower reaches the threshold,
and the voices of the PLAYING layers take part, and is dropped with E kept when a jump was made or a slot busy in this pass
or a splice is in progress; SPLICE_WAIT_LIMIT abandons one that has waited 2,400 frames for its
streams; abandoning, for whatever reason, drops every stream and reports the reason; a RECORD that takes a slot abandons
one with reason CAPTURE, but for one asked for on its own frame, which is dropped in silence (entry 29); a FRAME that
carries p to C, or whose jump would, leaves none and reports the reason CYCLE_END; SPLICE_JUMP, once the jump conditions hold, is the
frame that advances the position, moves it back by J, brings the beat index up to what the frame reached, reports SPLICE (J)
and tells the follower, a FRAME doing the same (entry 3), which a detector onset of that frame then moves on from; each participating voice goes on from its new position with up to X frames of
its old stream kept, a READING voice that takes no part reads on at the jump (entry 37), and so does one in its clear fade
(entry 64), and a refill of a voice whose staging is discarded gives nothing (entry 67); CROSSFADE_END leaves each voice its main staging alone (R14, R15, R19 to R23, R34, R35, R132,
R134, R135). The abandonment of a PAUSE is stated in AllLayerCues. -/
def Obligations.SpliceSteps : Prop :=
  (∀ (s : State) (r : SpliceRec), s.powered = true →
    let e := s.eng
    (e.cyc.splice = .fetching r → 2400 ≤ r.count →
      (∃ v ∈ r.voices, e.voices[v].spl.frames.length < r.x ∨ e.voices[v].main.frames.length < r.x) →
      exec .spliceWaitLimit s = .next (s.giving (abandonSplice .waitLimit e)))
    ∧ (e.cyc.splice = .crossfading r → r.x ≤ r.count →
      ∃ voices : Vector Voice 16,
        (∀ v : LayerIx, voices[v] =
          if v ∈ r.voices then { e.voices[v] with spl := Run.nil, store := Run.nil } else e.voices[v])
        ∧ exec .crossfadeEnd s
          = .next (s.giving { e with cyc := { e.cyc with splice := .idle }, voices := voices }))
    ∧ (s.jumpDue = false → exec .spliceJump s = .next s)
    ∧ (s.jumpDue = true → exec .spliceJump s = exec .frame s))
  ∧ (∀ (e : Engine) (r : SpliceRec) (reason : SkipReason), e.cyc.splice = .fetching r →
    ∃ voices : Vector Voice 16,
      (∀ v : LayerIx, voices[v] = if v ∈ r.voices then { e.voices[v] with spl := Run.nil } else e.voices[v])
      ∧ abandonSplice reason e
        = ({ e with cyc := { e.cyc with splice := .idle }, voices := voices } : Engine).reports (.spliceSkipped r.j reason))
  ∧ (∀ (s : State) (c : Cue) (before after : List Cue) (n : Nat) (lane : LaneIx) (l : LayerIx) (sl : SlotIx) (len : Nat)
      (r : SpliceRec), s.Turn c before after → c.action = .record n lane → c.target = .layer l → s.eng.lockedLane lane →
    s.eng.layers[l].state = .armed → s.eng.layers[l].hold = .none → s.eng.firstFree sl → s.eng.cyc.state = .running →
    s.eng.cyc.len = some len → s.eng.cyc.splice = .fetching r →
    let e := s.dequeued before after
    let need := (n * len + 16383) / 16384
    need ≤ e.mem.free.length →
    let layers := upd e.layers l fun r =>
      { r with mult := some n, cur := some (e.mem.free.take need), slot := some sl, state := .capturing,
               lastChange := e.cyc.k }
    let slots := upd e.slots sl fun old =>
      ({ use := .fixed, layer := some l, lane := some lane, start := some ((e.cyc.m % n) * len + e.cyc.p), last := none,
         count := 0, first := none, staging := old.staging, pendingWrites := [] } : Slot)
    ∃ voices : Vector Voice 16,
      (∀ v : LayerIx, voices[v] = if v ∈ r.voices then { e.voices[v] with spl := Run.nil } else e.voices[v])
      ∧ let e1 := ({ e with
            layers := layers, slots := slots, voices := voices,
            cyc := { e.cyc with captureThisPass := true, splice := .idle },
            mem := { e.mem with free := e.mem.free.drop need } } : Engine).reports (.layerState l .capturing .cue c.number)
        (r.count = 0 → exec .record s = .next (s.cueDone c e1))
        ∧ (0 < r.count → exec .record s = .next (s.cueDone c (e1.reports (.spliceSkipped r.j .capture)))))
  ∧ (∀ (s : State) (c : Nat), s.Still → s.eng.cyc.state = .running → s.eng.cyc.len = some c →
    (∀ i : SlotIx, s.eng.slots[i].use = .free) →
    let cy := s.eng.cyc
    let fol := s.eng.fol
    let sum := (cy.frac + (65536 + fol.delta)).toNat
    let q := cy.p + sum / 65536
    -- the beat index of a frame that reaches the position `top`
    let reached := fun (top b : Nat) => cy.beat ≤ b ∧ (b = cy.beat ∨ (b < cy.beats ∧ b * (c / cy.beats) ≤ top))
      ∧ (cy.beats ≤ b + 1 ∨ top < (b + 1) * (c / cy.beats))
    let streamless := fun (t : State) (r : SpliceRec) => ∀ v ∈ r.voices, (t.eng.voices[v]).spl = Run.nil
    -- a report of the frame, with room for it and the `n` that may come before it
    let reported := fun (t : State) (ev : Event) (n k p : Nat) => s.eng.mix.clipping = none → s.tellsOf t ev n k p
    -- over the end of the cycle
    (∀ r : SpliceRec, cy.splice = .fetching r → c ≤ q →
      ∃ t, exec .frame s = .next t ∧ streamless t r
        ∧ (r.count < 2400 → reported t (.spliceSkipped r.j .cycleEnd) 0 ((cy.k + 1) % 4294967296) (q - c))
        ∧ t.eng.cyc = { cy with
            p := q - c, frac := sum % 65536, k := (cy.k + 1) % 4294967296, m := (cy.m + 1) % 24,
            beats := cy.pendingBeats.getD cy.beats, pendingBeats := none, beat := 0, spliceDone := false,
            captureThisPass := false, splice := .idle,
            onset := some { p := q - c, len := c, beats := cy.pendingBeats.getD cy.beats } })
    -- a forward jump that would reach it
    ∧ (∀ (r : SpliceRec) (b : Nat), cy.splice = .fetching r → s.jumpDue = true → fol.decisionMade = true → q < c →
      (c : Int) ≤ q - r.j → reached q b →
      ∃ t, exec .spliceJump s = .next t ∧ streamless t r
        ∧ reported t (.spliceSkipped r.j .cycleEnd) (b - cy.beat) cy.k q
        ∧ t.eng.cyc = { cy with
            p := q, frac := sum % 65536, beat := b, splice := .idle,
            onset := some { p := q, len := c, beats := cy.beats } }
        ∧ (t.eng.heard = none → t.eng.fol.err = fol.err ∧ t.eng.fol.delta = fol.delta))
    -- the jump
    ∧ (∀ (r : SpliceRec) (p b : Nat), cy.splice = .fetching r → s.jumpDue = true → fol.decisionMade = true → q < c →
      (p : Int) = q - r.j → p < c → reached (max q p) b →
      let err := fol.err - r.j * 65536
      let quot := Int.tdiv err ((fol.span * (c / cy.beats) : Nat) : Int)
      ∃ t, exec .spliceJump s = .next t
        ∧ t.eng.cyc = { cy with
            p := p, frac := sum % 65536, beat := b, spliceDone := true, splice := .crossfading { r with count := 0 },
            onset := some { p := p, len := c, beats := cy.beats } }
        ∧ reported t (.splice r.j) (b - cy.beat) cy.k p
        ∧ (fol.state = .tracking → t.eng.heard = none →
          t.eng.fol.err = err ∧ t.eng.fol.delta = max (-(fol.deltaMax : Int)) (min fol.deltaMax (-quot)))
        ∧ (fol.state ≠ .tracking → t.eng.heard = none → t.eng.fol.err = fol.err ∧ t.eng.fol.delta = fol.delta))
    -- the decision, on a frame that reaches the middle with a follower that no beat of the frame takes out of TRACKING
    ∧ (∀ rounded : Int, cy.splice = .idle → cy.spliceDone = false → cy.captureThisPass = false →
      fol.decisionMade = false → fol.state = .tracking → fol.beatCount + cy.beats < fol.coastBeats → q < c →
      cy.p < c / 2 → c / 2 ≤ q → RoundedTo fol.err 65536 rounded →
      let j := max (-(fol.jMax : Int)) (min fol.jMax rounded)
      ∃ t, exec .frame s = .next t ∧ t.eng.fol.decisionMade = true
        ∧ (fol.spliceThreshold * 65536 ≤ fol.err.natAbs → j ≠ 0 →
          t.eng.cyc.splice = .fetching
            { j := j, x := s.eng.mix.cross, voices := layerIxs.filter fun l => s.eng.layers[l].state == .playing,
              count := 0 })
        ∧ (fol.err.natAbs < fol.spliceThreshold * 65536 ∨ j = 0 → t.eng.cyc.splice = .idle))
    -- a request that is dropped: a jump made or a slot busy in this pass, or a splice in progress
    ∧ (fol.decisionMade = false → fol.state = .tracking → fol.beatCount + cy.beats < fol.coastBeats →
      s.jumpDue = false → q < c → cy.p < c / 2 → c / 2 ≤ q →
      ∃ t, exec .frame s = .next t ∧ t.eng.fol.decisionMade = true ∧ (t.eng.heard = none → t.eng.fol.err = fol.err)
        ∧ (cy.splice = .idle → cy.spliceDone = true ∨ cy.captureThisPass = true → t.eng.cyc.splice = .idle)
        ∧ (∀ r : SpliceRec, cy.splice = .fetching r → r.count < 2400 →
          t.eng.cyc.splice = .fetching { r with count := r.count + 1 })
        ∧ (∀ r : SpliceRec, cy.splice = .crossfading r → r.count < r.x →
          t.eng.cyc.splice = .crossfading { r with count := r.count + 1 }))
    ∧ (cy.splice = .idle → fol.decisionMade = false → fol.state ≠ .tracking → q < c → cy.p < c / 2 → c / 2 ≤ q →
      ∃ t, exec .frame s = .next t ∧ t.eng.fol.decisionMade = true ∧ t.eng.cyc.splice = .idle))
  ∧ (∀ (s : State) (c : Nat) (i : SlotIx), s.Still → s.eng.cyc.state = .running → s.eng.cyc.len = some c →
    s.eng.slots[i].use ≠ .free → fixedCompleteDue s.eng i = false → s.eng.cyc.splice = .idle →
    s.eng.fol.decisionMade = false →
    let q := s.eng.cyc.p + (s.eng.cyc.frac + (65536 + s.eng.fol.delta)).toNat / 65536
    q < c → s.eng.cyc.p < c / 2 → c / 2 ≤ q →
    ∃ t, exec .frame s = .next t ∧ t.eng.fol.decisionMade = true ∧ t.eng.cyc.splice = .idle
      ∧ t.eng.cyc.captureThisPass = true)
  ∧ ∀ (e : Engine) (r : SpliceRec) (v : LayerIx),
    let len := e.len v
    let here := e.position v
    let old := e.voices[v]
    let now := (jumpVoice r v e).voices[v]
    let crosses := old.rs = .reading ∧ v ∈ r.voices ∧ old.clearing = false
    (old.rs = .reading → v ∉ r.voices ∨ old.clearing = true → now = old)
    ∧ (∀ (i d n : Nat), crosses → e.layers[v].mult = some n → 0 < len →
      old.pos = some i → old.main.base = i → i < len → d < len → d < old.main.frames.length →
      (((i + d) % len : Nat) : Int) = ((here : Int) + r.j) % len →
      now = { old with
        pos := some here, flag := now.flag,
        store := { base := (i + d) % len, frames := (old.main.frames.drop d).take r.x },
        main := { base := (here + r.x) % len, frames := [] } })
    ∧ (∀ n, old.rs = .starved → e.layers[v].mult = some n →
      now = { old with pos := some here, stall := some here, main := { base := here, frames := [] }, spl := Run.nil,
                       flag := true })
    ∧ (∀ n, old.rs = .priming → e.layers[v].mult = some n → 0 < len → e.cyc.state = .running →
      now = old.primed here ((here + 256) % len))
    ∧ (old.rs = .idle → now = old)
    ∧ (jumpVoice r v e).mem
      = (if crosses ∨ old.rs = .starved ∨ old.rs = .priming then e.mem.without (· == v) else e.mem)
    ∧ ∀ w : LayerIx, w ≠ v → (jumpVoice r v e).voices[w] = e.voices[w]

/-- A FRAME counts the hold-off down, and an armed detector whose lane's magnitude exceeds the threshold is
disarmed with the hold-off begun, what would be without that onset being noted (entry 51); HOLD_OFF_END, once the hold-off has run, has the next frame find the detector
armed (entry 3); COAST returns a follower that missed its beats to WAITING with E and delta 0; CLIP_WINDOW_END
clears the clip-reported flag after Fs frames without a running cycle. An event that is not due changes nothing
(R25, R26, R32, R139; entry 2). -/
def Obligations.TimersEnd : Prop :=
  (∀ (s : State) (l : LaneIx), s.Still → s.eng.cyc.state ≠ .baseCapture → s.eng.fol.source = .lane l →
    s.eng.fol.held = false →
    let fol := s.eng.fol
    ∃ t, exec .frame s = .next t
      ∧ (0 < fol.holdCount →
        t.eng.fol.holdCount = fol.holdCount - 1 ∧ t.eng.fol.armed = (fol.armed || fol.arming))
      ∧ (fol.holdCount = 0 → fol.threshold < t.eng.lanes[l].x.toInt.natAbs →
        t.eng.fol.armed = false ∧ t.eng.fol.holdCount = fol.holdOff
          ∧ (t.eng.heard.map fun h => (h.lane, h.without.armed, h.without.holdCount)) = some (l, true, 0))
      ∧ (fol.holdCount = 0 → t.eng.lanes[l].x.toInt.natAbs ≤ fol.threshold →
        t.eng.fol.armed = true ∧ t.eng.fol.holdCount = 0))
  ∧ ∀ s : State, s.powered = true →
    (s.eng.fol.holdCount = 0 → s.eng.fol.armed = false → s.eng.fol.arming = false →
      exec .holdOffEnd s = .next (s.giving { s.eng with fol := { s.eng.fol with arming := true } }))
    ∧ (0 < s.eng.fol.holdCount ∨ s.eng.fol.armed = true ∨ s.eng.fol.arming = true → exec .holdOffEnd s = .next s)
    ∧ (∀ f : Follower, f.arming = true → f.openFrame.armed = true)
    ∧ (s.eng.fol.coastDue = true → s.eng.fol.state = .tracking →
      let fol : Follower :=
        { s.eng.fol with state := .waiting, err := 0, delta := 0, beatCount := 0, coastDue := false }
      givesButHeard (exec .coast s)
        (s.giving (({ s.eng with fol := fol } : Engine).reports (.followState .waiting .coast))))
    ∧ (s.eng.fol.coastDue = false → givesButHeard (exec .coast s) s)
    ∧ (s.eng.cyc.state ≠ .running → s.eng.clk.rate ≤ s.eng.mix.window →
      let mx : Mixer := { s.eng.mix with clipReported := false, window := 0 }
      exec .clipWindowEnd s = .next (s.giving { s.eng with mix := mx }))
    ∧ (s.eng.cyc.state = .running ∨ s.eng.mix.window < s.eng.clk.rate → exec .clipWindowEnd s = .next s)

/-! ## Cues that act on one layer -/

/-- RECORD on an ARMED layer with a LOCKED lane and a FREE slot: in UNSET it starts the base capture with an
empty chain, while RUNNING a fixed capture of n cycles with its whole chain from the head of the free list, which a splice
that crossfades outlives (R3, R19, R21, R45, R46, R73, R82, R89); one that is being fetched it abandons (SpliceSteps). When the free list is short a reclaim walks the undo age list from its head, frees each
chain it does not skip with UNDO_LOST, and stops once there are pages enough; a RECORD that is then still short fails
NO_SPACE, what was reclaimed staying freed and the layer returning to EMPTY (R44, R106, R108). That a reclaim which ends a
ZERO_FILL leaves the voice that it held back as it is, is the model's choice (entry 72). -/
def Obligations.RecordCue : Prop :=
  ∀ (s : State) (c : Cue) (before after : List Cue) (n : Nat) (lane : LaneIx) (l : LayerIx) (sl : SlotIx),
    s.Turn c before after → c.action = .record n lane → c.target = .layer l → s.eng.lockedLane lane →
    s.eng.layers[l].state = .armed → s.eng.layers[l].hold = .none → s.eng.firstFree sl →
    let e := s.dequeued before after
    let slot := fun (use : SlotUse) (start : Option Nat) => upd e.slots sl fun old =>
      ({ use := use, layer := some l, lane := some lane, start := start, last := none, count := 0, first := none,
         staging := old.staging, pendingWrites := [] } : Slot)
    let started : Event := .layerState l .capturing .cue c.number
    (e.cyc.state = .unset →
      let layers := upd e.layers l fun r =>
        { r with cur := some [], slot := some sl, state := .capturing, lastChange := e.cyc.k }
      let cyc : Cycle := { e.cyc with state := .baseCapture, base := some l, captureThisPass := true }
      exec .record s
        = .next (s.cueDone c (({ e with
            layers := layers, slots := slot .base none, cyc := cyc,
            mix := { e.mix with window := 0 } } : Engine).reports started)))
    ∧ (∀ len : Nat, e.cyc.state = .running → e.cyc.len = some len → (∀ r, e.cyc.splice ≠ .fetching r) →
      let need := (n * len + 16383) / 16384
      need ≤ e.mem.free.length →
      let layers := upd e.layers l fun r =>
        { r with mult := some n, cur := some (e.mem.free.take need), slot := some sl, state := .capturing,
                 lastChange := e.cyc.k }
      let start := (e.cyc.m % n) * len + e.cyc.p
      exec .record s
        = .next (s.cueDone c (({ e with
            layers := layers, slots := slot .fixed (some start), cyc := { e.cyc with captureThisPass := true },
            mem := { e.mem with free := e.mem.free.drop need } } : Engine).reports started)))
    ∧ (∀ len : Nat, e.cyc.state = .running → e.cyc.len = some len →
      let need := (n * len + 16383) / 16384
      let walk := reclaimWalk need 0 none e.mem.age e
      (walk.mem.free.length < need → exec .record s = .next (s.recordFailed c l .noSpace walk))
      ∧ (need ≤ walk.mem.free.length → (∀ r, e.cyc.splice ≠ .fetching r) →
        let layers := upd walk.layers l fun r =>
          { r with mult := some n, cur := some (walk.mem.free.take need), slot := some sl, state := .capturing,
                   lastChange := e.cyc.k }
        let slots := upd walk.slots sl fun old =>
          ({ use := .fixed, layer := some l, lane := some lane, start := some ((e.cyc.m % n) * len + e.cyc.p),
             last := none, count := 0, first := none, staging := old.staging, pendingWrites := [] } : Slot)
        exec .record s
          = .next (s.cueDone c (({ walk with
              layers := layers, slots := slots, cyc := { e.cyc with captureThisPass := true },
              mem := { walk.mem with free := walk.mem.free.drop need } } : Engine).reports started))))
    ∧ ∀ (g : Engine) (need extra : Nat) (own : Option LayerIx), (g.mem.age.map Prod.fst).Nodup →
      let walk := reclaimWalk need extra own g.mem.age g
      let pages := fun k => g.mem.free ++ (g.reclaimed own k).flatMap fun a => (g.keptChain a).getD []
      ∃ k ≤ g.mem.age.length,
        let lost := g.reclaimed own k
        walk.mem.free = pages k ∧ (∀ i < k, (pages i).length + extra < need)
          ∧ (k = g.mem.age.length ∨ need ≤ (pages k).length + extra)
          ∧ walk.mem.age = g.mem.age.filter (fun a => decide (a ∉ lost))
          ∧ walk.evq = lost.foldl (fun q a => queueReport (.undoLost a.1) g.cyc.k g.cyc.p q) g.evq
          ∧ (∀ i : LayerIx, walk.layers[i] =
            if (i, .undo) ∈ lost then { g.layers[i] with undo := none }
            else if (i, .redo) ∈ lost then { g.layers[i] with redo := none } else g.layers[i])
          ∧ (∀ i : SlotIx, (walk.slots[i]).sameButStaging g.slots[i])
          ∧ walk = { g with layers := walk.layers, slots := walk.slots, evq := walk.evq,
                            mem := { walk.mem with cells := g.mem.cells } }

/-- CLOSE, PAUSE and AUTO_CLOSE of the base capture give the cycle its length at position 0 and the layer multiple 1,
a PAUSE leaving the cycle PAUSED; a base capture of under 4,800 frames is discarded, its pages freed, and the cycle
returns to UNSET, a TRACKING follower going to WAITING, with LAYER_STATE (EMPTY, DISCARD), FOLLOW_STATE and the CUE_FAILED
of TOO_SHORT; a CLOSE of a fixed capture leaves its written range, which is empty after the start when nothing has been
written, and queues a FINISH_COPY. A close reports CAPTURE_GAP for an open gap run, LAYER_STATE, BEAT 0 with the WRAP of its
layer, CYCLE_SET and CUE_DONE, in an order that is the model's choice (entry 32) (R4 to R6, R8, R33, R42, R47, R71, R74, R78, R87, R88, R92). No splice stands in
BASE_CAPTURE (StepKeepsRanges). The model's choices: the voice of a capture that a PAUSE closes primes 256 frames ahead
(entry 47), and an onset of the frame of an AUTO_CLOSE is measured against the grid noted anew (entry 31). -/
def Obligations.CloseCues : Prop :=
  ∀ (s : State) (l : LayerIx) (sl : SlotIx), s.eng.layers[l].state = .capturing →
    s.eng.layers[l].slot = some sl →
    let r := s.eng.layers[l]
    let count := s.eng.slots[sl].count
    let rests := fun t : State => (∀ i : LayerIx, i ≠ l → t.eng.layers[i].sameButHold s.eng.layers[i])
      ∧ (∀ i : SlotIx, i ≠ sl → (t.eng.slots[i]).sameButStaging s.eng.slots[i]) ∧ s.cueFrame t
      ∧ t.eng.slots[sl] = (t.eng.slots[sl]).released
    let gap := s.eng.gapOf sl
    let waits := s.eng.fol.rests
    -- the reports of a close of the base capture, `last` after those of the close itself: k and p are 0 from the close on
    let told := fun (t : State) (cause : LayerCause) (number : Nat) (last : List Event) =>
      let wraps := (layerIxs.filter fun i => i == l || s.eng.layers[i].mult.isSome).map Event.wrap
      ∃ granted : List LayerIx,
        t.eng.evq = (s.eng.evq.told s.eng.cyc.k s.eng.cyc.p gap).told 0 0
          ([.layerState l .playing cause number, .beat 0] ++ wraps ++ [.cycleSet count s.eng.cyc.beats] ++ last
            ++ granted.map Event.holdGranted)
    let closed := fun (t : State) (state : CycleState) (onset : Option OnsetGrid) =>
      t.eng.cyc = { s.eng.cyc with
          state := state, len := some count, p := 0, frac := 0, k := 0, m := 0, beat := 0, base := none,
          captureThisPass := false, spliceDone := false, onset := onset }
        ∧ t.eng.layers[l].sameButHold { r with state := .playing, mult := some 1, slot := none, lastChange := 0 }
        ∧ t.eng.mem.free = s.eng.mem.free ∧ rests t
        ∧ (s.eng.voices[l].rs = .idle → t.eng.voices[l] = (s.eng.voices[l]).primed 0 (256 % count))
    let discarded := fun (t : State) (c : Cue) =>
      s.tells t s.eng.cyc.k s.eng.cyc.p
          ([.layerState l .empty .discard c.number]
            ++ waits .cleared ++ [.cueFailed c.number c.target c.action .tooShort])
        ∧ t.eng.cyc = { s.eng.cyc with state := .unset, base := none } ∧ t.eng.layers[l] = r.emptied s.eng.cyc.k
        ∧ t.eng.mem.free = s.eng.mem.free ++ r.cur.getD [] ++ r.undo.getD [] ++ r.redo.getD []
        ∧ t.eng.fol = s.eng.fol.lapsed ∧ rests t
    (∀ c before after, s.Turn c before after → c.action = .close → c.target = .layer l →
      (s.eng.cyc.state = .baseCapture → s.eng.cyc.base = some l → 4800 ≤ count →
        ∃ t, exec .close s = .next t ∧ closed t .running s.eng.cyc.onset
          ∧ told t .cue c.number [.cueDone c.number c.target c.action s.eng.cyc.k])
      ∧ (s.eng.cyc.state = .baseCapture → s.eng.cyc.base = some l → count < 4800 → s.eng.cyc.splice = .idle →
        ∃ t, exec .close s = .next t ∧ discarded t c)
      ∧ (∀ a, s.eng.cyc.base = none → (∀ j ∈ s.eng.mem.jobs, j.layer ≠ l) →
        (s.eng.slots[sl].first = some a
          ∨ ∃ q, s.eng.slots[sl].first = none ∧ s.eng.slots[sl].start = some q ∧ 0 < s.eng.len l
            ∧ a = (q + 1) % s.eng.len l) →
        ∃ t, exec .close s = .next t ∧ t.eng.cyc = s.eng.cyc
          ∧ t.eng.layers[l].sameButHold
              { r with state := .playing, written := some (a, count), slot := none, lastChange := s.eng.cyc.k }
          ∧ t.eng.mem = { s.eng.mem with jobs := s.eng.mem.jobs ++ [s.eng.jobOf l .finishCopy] }
          ∧ s.tells t s.eng.cyc.k s.eng.cyc.p
            (gap ++ [.layerState l .playing .cue c.number, .cueDone c.number c.target c.action s.eng.cyc.k])
          ∧ rests t))
    ∧ (∀ c before after, s.Turn c before after → c.action = .pause → s.eng.cyc.state = .baseCapture →
      s.eng.cyc.base = some l → s.eng.cyc.splice = .idle →
      (4800 ≤ count → ∃ t, exec .pause s = .next t ∧ closed t .paused s.eng.cyc.onset
        ∧ told t .cue c.number (waits .paused ++ [.cueDone c.number c.target c.action s.eng.cyc.k]))
      ∧ (count < 4800 → ∃ t, exec .pause s = .next t ∧ discarded t c))
    ∧ (s.powered = true → s.eng.cyc.state = .baseCapture → s.eng.cyc.base = some l → 2880000 ≤ count →
      ∃ t, exec .autoClose s = .next t
        ∧ closed t .running (some { p := 0, len := count, beats := s.eng.cyc.beats })
        ∧ told t .autoClose 0 [] ∧ t.eng.cues.list.length = s.eng.cues.list.length)

/-- OVERDUB on a PLAYING layer, whatever the splice does: the old chain becomes the undo chain, the older undo and redo chains are freed, a
new chain is taken, after a reclaim that skips the layer's own entry when the free list and those chains are short
(RecordCue says what it does), a shortage left then being NO_SPACE with the layer's chains untouched, and the frame's write at the layer's position is formed, made when the frame ends unless the
overdub ends on it (entries 12, 60); OVERDUB_END returns the layer to PLAYING, reports it after the
gap run, makes no write of the frame and queues a FINISH_COPY while the written range is present, unless the layer has a job (entry 54) (R49, R50, R75, R94,
R96 to R98, R108, R109). An OVERDUB abandons a splice that is being fetched, SPLICE_SKIPPED (CAPTURE) coming after its
LAYER_STATE, but drops one asked for on its own frame in silence (entry 29); from a crossfade the layer's voice leaves with
its new stream alone, from which the stored frame then is, and the other voices crossfade on (R20, R21, R23; the model's
choice in entries 15 and 43). That the stored sample is 0 while the voice still plays out an earlier cleared take is the
model's choice (entry 56). What a FRAME does to an overdub is stated in FixedCaptureComplete. -/
def Obligations.OverdubCues : Prop :=
  ∀ (s : State) (c : Cue) (before after : List Cue) (l : LayerIx) (sl : SlotIx), s.Turn c before after →
    c.target = .layer l →
    let r := s.eng.layers[l]
    let rests := fun (e : Engine) (t : State) => (∀ i : LayerIx, i ≠ l → t.eng.layers[i].sameButHold e.layers[i])
      ∧ (∀ i : SlotIx, i ≠ sl → (t.eng.slots[i]).sameButStaging s.eng.slots[i])
      ∧ s.cueFrame t ∧ t.eng.cues = { s.eng.cues with list := before ++ after }
    (∀ (lane : LaneIx) (level feedback n len key : Nat) (more : List Nat) (old : Sample),
      c.action = .overdub lane level feedback → s.eng.lockedLane lane → s.eng.cyc.state = .running →
      r.state = .playing → r.hold = .none → r.written = none → s.eng.firstFree sl →
      (∀ en ∈ s.eng.slots[sl].staging, en.layer ≠ l) → r.mult = some n → s.eng.cyc.len = some len → 1 < n * len →
      s.eng.cyc.p < len → 1 ≤ n →
      let need := (n * len + 16383) / 16384
      let own := (r.redo.getD []).length + (r.undo.getD []).length
      let walk := reclaimWalk need own (some l) s.eng.mem.age s.eng
      let pool := walk.mem.free ++ r.redo.getD [] ++ r.undo.getD []
      pool.take need = key :: more → need ≤ pool.length →
      let a := (s.eng.cyc.m % n) * len + s.eng.cyc.p
      let v := s.eng.voices[l]
      -- the frames the voice holds from its position on: in a crossfade those of its new stream
      let from' : Run := match s.eng.cyc.splice with
        | .crossfading sp => if l ∈ sp.voices ∧ sp.count < sp.x ∧ v.spl.frames ≠ [] then v.spl else v.main
        | _ => v.main
      (∀ sp, s.eng.cyc.splice = .crossfading sp → l ∉ sp.voices → v.spl.frames = []) →
      (v.rs = .reading ∧ v.clearing = false ∧ from'.base = a ∧ ∃ next held, from'.frames = old :: next :: held)
        ∨ ((v.clearing = true ∨ (v.rs ≠ .reading ∧ from'.frames = [])) ∧ old = 0) →
      let x := s.eng.lanes[lane].x
      let w : SlotWrite :=
        { pos := a, x := x, mixed := some { old := old, level := level, feedback := feedback }, again := false }
      ∃ t, exec .overdub s = .next t
        ∧ t.eng.layers[l].sameButHold
            { r with state := .overdubbing, cur := some (key :: more), undo := r.cur, redo := none,
                     written := some (a, 0), slot := some sl, level := level, feedback := feedback,
                     lastChange := s.eng.cyc.k }
        ∧ t.eng.mem.free = pool.drop need
        ∧ t.eng.mem.age = (walk.mem.age.filter fun g => g.1 != l) ++ [(l, .undo)]
        ∧ t.eng.slots[sl] =
            { use := .overdub, layer := some l, lane := some lane, start := none, last := none, count := 0,
              first := none, staging := walk.slots[sl].staging, pendingWrites := [w] }
        ∧ w.value = sat24 (roundDiv (old.toInt * feedback + x.toInt * level) 32768)
        ∧ t.eng.cyc = { s.eng.cyc with
            captureThisPass := true,
            splice := match s.eng.cyc.splice with
              | .fetching _ => .idle
              | sp => sp.without (· == l) }
        ∧ (∀ i : LayerIx, match s.eng.cyc.splice with
            | .crossfading sp => if i = l then (t.eng.voices[i]).quits s.eng.voices[i] i (.crossfading sp)
              else t.eng.voices[i] = s.eng.voices[i]
            | sp => (t.eng.voices[i]).quits s.eng.voices[i] i sp)
        ∧ (s.giving walk).tells t s.eng.cyc.k s.eng.cyc.p
          ([.layerState l .overdubbing .cue c.number]
            ++ (match s.eng.cyc.splice with
              | .fetching sp => if sp.count = 0 then [] else [.spliceSkipped sp.j .capture]
              | _ => [])
            ++ [.cueDone c.number c.target c.action s.eng.cyc.k])
        ∧ rests walk t)
    ∧ (∀ (lane : LaneIx) (level feedback : Nat), c.action = .overdub lane level feedback → s.eng.lockedLane lane →
      s.eng.cyc.state = .running → r.state = .playing → r.hold = .none → r.written = none → s.eng.firstFree sl →
      let e := s.dequeued before after
      let need := (s.eng.len l + 16383) / 16384
      let own := (r.redo.getD []).length + (r.undo.getD []).length
      let walk := reclaimWalk need own (some l) e.mem.age e
      walk.mem.free.length + own < need → exec .overdub s = .next (s.cueFailed c .noSpace walk))
    ∧ (c.action = .overdubEnd → r.state = .overdubbing → r.slot = some sl →
      let jobs := if r.written.isSome = true ∧ ∀ j ∈ s.eng.mem.jobs, j.layer ≠ l then
        [s.eng.jobOf l .finishCopy] else []
      ∃ t, exec .overdubEnd s = .next t
        ∧ t.eng.layers[l].sameButHold { r with state := .playing, slot := none, lastChange := s.eng.cyc.k }
        ∧ t.eng.mem = { s.eng.mem with jobs := s.eng.mem.jobs ++ jobs } ∧ t.eng.cyc = s.eng.cyc
        ∧ t.eng.slots[sl] = (t.eng.slots[sl]).released
        ∧ s.tells t s.eng.cyc.k s.eng.cyc.p
          (s.eng.gapOf sl ++ [.layerState l .playing .cue c.number, .cueDone c.number c.target c.action s.eng.cyc.k])
        ∧ rests s.eng t)

/-- PLAY, STOP, MUTE and UNMUTE on a layer in a state they accept: PLAYING with its voice priming ahead of the
position, STOPPED with a voice that makes no sound at rest and a refill of it in progress giving nothing, the mute flag
and nothing else. The voice of a layer that a STOP reaches leaves a splice. A STOP of an OVERDUBBING layer ends the
overdub first, its gap run reported, with one LAYER_STATE (R20, R23, R48, R50, R51, R54, R76, R98, R101, R129 to R131;
entries 15, 54, 67). -/
def Obligations.PlayStopMuteCues : Prop :=
  ∀ (s : State) (c : Cue) (before after : List Cue) (l : LayerIx), s.Turn c before after → c.target = .layer l →
    let e := s.dequeued before after
    let turns := fun (st : LayerState) =>
      upd e.layers l fun r => { r with state := st, lastChange := e.cyc.k }
    let said := fun (st : LayerState) (e : Engine) => s.cueDone c (e.reports (.layerState l st .cue c.number))
    let mutes := fun (on : Bool) => s.cueDone c { e with layers := upd e.layers l fun r => { r with mute := on } }
    (∀ n len, c.action = .play → e.layers[l].state = .stopped → e.layers[l].mult = some n →
      e.cyc.len = some len → 0 < n * len →
      let i := (e.cyc.m % n) * len + e.cyc.p
      let start := if e.cyc.state = .running then (i + 256) % (n * len) else i
      let voices := upd e.voices l fun v => if v.rs = .idle then v.primed i start else v
      exec .play s = .next (said .playing { e with layers := turns .playing, voices := voices }))
    ∧ (c.action = .stop →
      let mem := e.mem.without fun v => v == l && e.voices[l].idlesAtStop
      let cyc : Cycle := { e.cyc with splice := e.cyc.splice.without (· == l) }
      ∃ out : Voice, out.quits e.voices[l] l e.cyc.splice ∧
      let voices := upd e.voices l fun v => if v.idlesAtStop then Voice.reset else out
      (e.layers[l].state = .playing →
        exec .stop s
          = .next (said .stopped { e with layers := turns .stopped, cyc := cyc, voices := voices, mem := mem }))
      ∧ ∀ sl, e.layers[l].state = .overdubbing → e.layers[l].slot = some sl →
        ∃ t, exec .stop s = .next t
          ∧ t.eng.layers[l].sameButHold { e.layers[l] with state := .stopped, slot := none, lastChange := e.cyc.k }
          ∧ (∀ i : LayerIx, i ≠ l → t.eng.layers[i].sameButHold e.layers[i])
          ∧ t.eng.slots[sl] = (t.eng.slots[sl]).released ∧ (∀ i : SlotIx, i ≠ sl → t.eng.slots[i] = e.slots[i])
          ∧ t.eng.mem = { mem with
              jobs := mem.jobs ++ if e.leavesCopy l then [e.jobOf l .finishCopy] else [] }
          ∧ s.tells t e.cyc.k e.cyc.p
            (e.gapOf sl ++ [.layerState l .stopped .cue c.number, .cueDone c.number c.target c.action e.cyc.k])
          ∧ t.eng.voices = voices ∧ t.eng.cyc = cyc ∧ t.eng.fol = e.fol ∧ t.eng.cues = e.cues ∧ s.cueFrame t)
    ∧ (c.action = .mute → e.layers[l].state ≠ .empty → exec .mute s = .next (mutes true))
    ∧ (c.action = .unmute → e.layers[l].state ≠ .empty → exec .unmute s = .next (mutes false))

/-- UNDO and REDO on a PLAYING or STOPPED layer that is not held: the current chain and the kept one change
places and so does the kind of the age entry, in its place; an UNDO while the layer has a finish copy
queued or running, or one that waits for its zero fill (entry 54), abandons the copy and frees the incomplete
chain, a ZERO_FILL of another chain of the layer running on (R55, R77, R111, R112, R117). -/
def Obligations.UndoRedoCues : Prop :=
  ∀ (s : State) (c : Cue) (before after : List Cue) (l : LayerIx) (chain : List Nat), s.Turn c before after →
    c.target = .layer l → s.eng.layers[l].state = .playing ∨ s.eng.layers[l].state = .stopped →
    s.eng.layers[l].hold = .none →
    let e := s.dequeued before after
    let age := fun k : AgeKind => { e.mem with age := e.mem.age.map fun g => if g.1 = l then (l, k) else g }
    let copying := (∃ j ∈ e.mem.jobs, j.layer = l ∧ j.kind = .finishCopy)
      ∨ (e.layers[l].written.isSome = true ∧ ∃ j ∈ e.mem.jobs, j.layer = l)
    (c.action = .undo → e.layers[l].undo = some chain → ¬copying →
      let layers := upd e.layers l fun r => { r with cur := some chain, undo := none, redo := r.cur }
      exec .undo s = .next (s.cueDone c { e with layers := layers, mem := age .redo }))
    ∧ (c.action = .undo → e.layers[l].undo = some chain → copying →
      ∃ t, exec .undo s = .next t
        ∧ t.eng.layers[l].sameButHold { s.eng.layers[l] with cur := some chain, undo := none, written := none }
        ∧ t.eng.mem.free = s.eng.mem.free ++ s.eng.layers[l].cur.getD []
        ∧ t.eng.mem.age = s.eng.mem.age.filter (fun g => g.1 != l)
        ∧ t.eng.mem.jobs = s.eng.mem.jobs.filter (fun j =>
            j.layer != l || (j.kind == .zeroFill && (j.key != s.eng.layers[l].cur.bind List.head? || j.key == none)))
        ∧ (∀ i : LayerIx, i ≠ l → t.eng.layers[i].sameButHold s.eng.layers[i])
        ∧ s.tells t s.eng.cyc.k s.eng.cyc.p [.cueDone c.number c.target c.action s.eng.cyc.k]
        ∧ t.eng.cyc = s.eng.cyc ∧ t.eng.voices = s.eng.voices ∧ s.cueFrame t)
    ∧ (c.action = .redo → e.layers[l].redo = some chain →
      let layers := upd e.layers l fun r => { r with cur := some chain, redo := none, undo := r.cur }
      exec .redo s = .next (s.cueDone c { e with layers := layers, mem := age .undo }))

/-! ## Cues that empty layers, cues on all layers, failures and holds -/

/-- CLEAR empties a layer: its slot is released, its chains go to the free list in order and their staged entries
are dropped, its age entry and job go, a READING voice starts its clear fade and any other goes idle; an EMPTY
layer is left as it is; a CLEAR that leaves every layer EMPTY, that of an EMPTY layer too, returns the cycle to UNSET,
and one of the base capture's layer does so from BASE_CAPTURE, a TRACKING follower going to WAITING. A voice that takes
part in a splice leaves it, and the return to UNSET ends the splice. CLEAR_ALL does so to every layer, whatever the splice
does, one with a RECORD waiting ending ARMED. LAYER_STATE of each layer emptied comes first, then SPLICE_SKIPPED (CLEARED),
FOLLOW_STATE and CYCLE_CLEARED of a return to UNSET, with k and p 0, and CUE_DONE, its k that of the frame before (R6, R10,
R20, R21, R23, R33, R56, R57, R77, R79, R83, R102). That CUE_DONE of a CLEAR_ALL carries that k too is the model's choice
(entry 59), and so are the order of the reports of a return to UNSET (entry 32), that the short weight first falls on the
frame after the CLEAR (entry 53), how a voice leaves a crossfade (entry 15) and that one whose envelope is 0 already has
faded out (entry 74). -/
def Obligations.ClearCues : Prop :=
  ∀ (s : State) (c : Cue) (before after : List Cue), s.Turn c before after →
    let unset : Cycle :=
      { s.eng.cyc with
        state := .unset, len := none, p := 0, frac := 0, k := 0, m := 0, beat := 0, base := none, splice := .idle,
        beats := s.eng.cyc.pendingBeats.getD s.eng.cyc.beats, pendingBeats := none, spliceDone := false,
        captureThisPass := false, owedBoundary := false }
    let fades := fun v : Voice =>
      if v.rs = .reading then { v with clearing := true, dir := .falling, flag := false } else Voice.reset
    let released := fun (t : State) (i : SlotIx) => t.eng.slots[i] = (t.eng.slots[i]).released
    let ran := s.eng.cyc.state = .running ∨ s.eng.cyc.state = .paused
    let did : Event := .cueDone c.number c.target c.action s.eng.cyc.k
    let rests := s.eng.fol.rests .cleared
    let unsets := s.eng.cyc.splice.skips .cleared ++ rests ++ [.cycleCleared, did]
    (∀ l : LayerIx, c.action = .clear → c.target = .layer l → s.eng.layers[l].hold = .none →
      s.eng.layers[l].state ≠ .empty →
      let r := s.eng.layers[l]
      let other := s.eng.cyc.base ≠ some l
      let others := ∃ i : LayerIx, i ≠ l ∧ s.eng.layers[i].state ≠ .empty
      let gone := fun en : Entry => en.layer == l
        && (some en.key == chainKey r.cur || some en.key == chainKey r.undo || some en.key == chainKey r.redo)
      ∃ t, exec .clear s = .next t ∧ t.eng.layers[l] = r.emptied s.eng.cyc.k
        ∧ t.eng.mem.free = s.eng.mem.free ++ r.cur.getD [] ++ r.undo.getD [] ++ r.redo.getD []
        ∧ t.eng.mem.age = s.eng.mem.age.filter (fun g => g.1 != l)
        ∧ t.eng.mem.jobs = s.eng.mem.jobs.filter (fun j => j.layer != l)
        ∧ (∀ i : LayerIx, i ≠ l → t.eng.layers[i].sameButHold s.eng.layers[i])
        ∧ (∀ i : SlotIx, t.eng.slots[i].staging = s.eng.slots[i].staging.filter fun en => !gone en)
        ∧ (∀ i : SlotIx, r.slot = some i → released t i)
        ∧ (∀ i : SlotIx, r.slot ≠ some i → (t.eng.slots[i]).sameButStaging s.eng.slots[i])
        ∧ (s.eng.cyc.splice = .idle → t.eng.voices = upd s.eng.voices l fades)
        ∧ (s.eng.cyc.splice = .idle → other → others ∨ ¬ran → t.eng.cyc = s.eng.cyc)
        ∧ (other → ¬others → ran → t.eng.cyc = unset ∧ t.eng.fol = s.eng.fol.lapsed)
        ∧ (other → others ∨ ¬ran → t.eng.fol = s.eng.fol)
        ∧ (s.eng.cyc.base = some l → s.eng.cyc.state = .baseCapture → s.eng.cyc.splice = .idle →
          t.eng.cyc = { s.eng.cyc with state := .unset, base := none } ∧ t.eng.fol = s.eng.fol.lapsed)
        ∧ (∀ sp : SpliceRec, other → others → s.eng.cyc.splice = .fetching sp → l ∈ sp.voices →
          t.eng.cyc = { s.eng.cyc with splice := .fetching { sp with voices := sp.voices.filter (· != l) } }
          ∧ t.eng.voices = upd s.eng.voices l fun v => fades { v with spl := Run.nil })
        ∧ (∀ sp : SpliceRec, other → others → s.eng.cyc.splice = .crossfading sp → l ∈ sp.voices →
          t.eng.cyc = { s.eng.cyc with splice := .crossfading { sp with voices := sp.voices.filter (· != l) } }
          ∧ (∀ i : LayerIx, i ≠ l → t.eng.voices[i] = s.eng.voices[i])
          ∧ t.eng.voices[l].spl = Run.nil ∧ t.eng.voices[l].store = Run.nil
          ∧ (s.eng.voices[l].spl.frames = [] → s.eng.voices[l].rs = .reading →
            t.eng.voices[l].main = s.eng.voices[l].main))
        ∧ (∀ sp : SpliceRec, other → ¬others → ran → s.eng.cyc.splice = .fetching sp →
          ∀ v : LayerIx, v ∈ sp.voices → t.eng.voices[v].spl = Run.nil)
        ∧ (let told := Event.layerState l .empty .cue c.number
          (other → others ∨ ¬ran → s.tells t s.eng.cyc.k s.eng.cyc.p [told, did])
          ∧ (other → ¬others → ran →
            t.eng.evq = (s.eng.evq.told s.eng.cyc.k s.eng.cyc.p [told]).told 0 0 unsets)
          ∧ (s.eng.cyc.base = some l → s.eng.cyc.state = .baseCapture →
            s.tells t s.eng.cyc.k s.eng.cyc.p ([told] ++ rests ++ [did])))
        ∧ t.eng.cues.list = before ++ after ∧ s.cueFrame t)
    ∧ (∀ l : LayerIx, c.action = .clear → c.target = .layer l → s.eng.layers[l].hold = .none →
      s.eng.layers[l].state = .empty → s.eng.cyc.base ≠ some l →
      (∃ i : LayerIx, s.eng.layers[i].state ≠ .empty) ∨ s.eng.cyc.state = .unset →
      exec .clear s = .next (s.cueDone c (s.dequeued before after)))
    ∧ (∀ l : LayerIx, c.action = .clear → c.target = .layer l → s.eng.layers[l].hold = .none →
      s.eng.cyc.base ≠ some l → (∀ i : LayerIx, s.eng.layers[i].state = .empty) → ran →
      ∃ t, exec .clear s = .next t ∧ t.eng.cyc = unset ∧ t.eng.fol = s.eng.fol.lapsed
        ∧ t.eng.layers = s.eng.layers ∧ t.eng.slots = s.eng.slots ∧ t.eng.mem = s.eng.mem
        ∧ (∀ i : LayerIx, (t.eng.voices[i]).quits s.eng.voices[i] i s.eng.cyc.splice)
        ∧ t.eng.evq = s.eng.evq.told 0 0 unsets
        ∧ t.eng.cues.list = before ++ after ∧ s.cueFrame t)
    ∧ (c.action = .clearAll → (∀ i : LayerIx, s.eng.layers[i].hold = .none) →
      let empty := fun i : LayerIx => s.eng.layers[i].state = .empty
      let sp := s.eng.cyc.splice
      let waits := fun i : LayerIx => (before ++ after).any fun d => d.target == .layer i && d.action.records
      let told := (layerIxs.filter fun i => s.eng.layers[i].state != .empty).map fun i =>
        Event.layerState i (if waits i then .armed else .empty) .cue c.number
      ∃ t, exec .clearAll s = .next t
        ∧ (∀ i : LayerIx, empty i → t.eng.layers[i] = s.eng.layers[i]
          ∧ (ran → (t.eng.voices[i]).quits s.eng.voices[i] i sp)
          ∧ (¬ran → t.eng.voices[i] = s.eng.voices[i]))
        ∧ (∀ i : LayerIx, ¬empty i →
          (waits i = true → t.eng.layers[i] = { (s.eng.layers[i]).emptied s.eng.cyc.k with state := .armed })
          ∧ (waits i = false → t.eng.layers[i] = (s.eng.layers[i]).emptied s.eng.cyc.k)
          ∧ ∃ out : Voice, out.quits s.eng.voices[i] i sp ∧ t.eng.voices[i] = fades out)
        ∧ (∀ pg : Nat, t.eng.mem.free.count pg = s.eng.mem.free.count pg
            + ∑ i : LayerIx, if empty i then 0 else (s.eng.layers[i]).pageUses pg)
        ∧ t.eng.mem.age = s.eng.mem.age.filter (fun g => decide (empty g.1))
        ∧ t.eng.mem.jobs = s.eng.mem.jobs.filter (fun j => decide (empty j.layer))
        ∧ (∀ i : SlotIx, (∃ l : LayerIx, ¬empty l ∧ s.eng.layers[l].slot = some i) → released t i)
        ∧ (∀ i : SlotIx, (∀ l : LayerIx, ¬empty l → s.eng.layers[l].slot ≠ some i) →
          (t.eng.slots[i]).sameButStaging s.eng.slots[i])
        ∧ (∀ i : SlotIx, ∀ en ∈ t.eng.slots[i].staging, en ∈ s.eng.slots[i].staging)
        ∧ (ran → t.eng.cyc = unset ∧ t.eng.fol = s.eng.fol.lapsed
          ∧ t.eng.evq = (s.eng.evq.told s.eng.cyc.k s.eng.cyc.p told).told 0 0 unsets)
        ∧ (let without := sp.without fun i => decide ¬empty i
          (s.eng.cyc.state = .baseCapture → t.eng.fol = s.eng.fol.lapsed
            ∧ t.eng.cyc = { s.eng.cyc with state := .unset, base := none, splice := without }
            ∧ t.eng.evq = s.eng.evq.told s.eng.cyc.k s.eng.cyc.p (told ++ rests ++ [did]))
          ∧ (s.eng.cyc.state = .unset → t.eng.fol = s.eng.fol ∧ t.eng.cyc = { s.eng.cyc with splice := without }
            ∧ t.eng.evq = s.eng.evq.told s.eng.cyc.k s.eng.cyc.p (told ++ [did])))
        ∧ t.eng.cues.list = before ++ after ∧ s.cueFrame t)

/-- STOP_ALL and PLAY_ALL act on every PLAYING or OVERDUBBING, or STOPPED, layer, a STOP_ALL ending the overdubs; PAUSE
ends the overdubs and closes the fixed captures early, each in ascending layer order, and PAUSE and RESUME change the
cycle state, the follower leaving TRACKING at a PAUSE, and the clip window starts again. The voices of the layers that a
STOP_ALL reaches leave a splice; a PAUSE abandons one that is being fetched and ends a crossfade, each voice going on with
its new stream. The reports are those of each layer in ascending order, of a STOP_ALL or PAUSE its CAPTURE_GAP before its
LAYER_STATE, then SPLICE_SKIPPED and FOLLOW_STATE of a PAUSE, in an order that is the model's choice (entry 32), and
CUE_DONE. A voice that a PLAY_ALL finds idle primes 256 frames ahead while RUNNING (R8, R9, R20, R21, R23, R33, R50 to R52, R57, R78, R92, R98, R131, R139; entries 15, 54, 67). That the voices of
the captures a PAUSE closes prime 256 frames ahead is the model's choice (entry 47). -/
def Obligations.AllLayerCues : Prop :=
  ∀ (s : State) (c : Cue) (before after : List Cue), s.Turn c before after →
    let e := s.dequeued before after
    let st := fun i : LayerIx => e.layers[i].state
    let now := fun (r : Layer) (st : LayerState) => { r with state := st, slot := none, lastChange := e.cyc.k }
    let named := ∀ i : LayerIx, (st i = .overdubbing ∨ st i = .capturing) → e.layers[i].slot.isSome = true
    let alone := ∀ i j : LayerIx, i ≠ j → e.layers[i].slot ≠ none → e.layers[i].slot ≠ e.layers[j].slot
    let released := fun (t : State) (ends : LayerIx → Prop) =>
      (∀ (i : LayerIx) (sl : SlotIx), ends i → e.layers[i].slot = some sl → t.eng.slots[sl] = (t.eng.slots[sl]).released)
        ∧ ∀ sl : SlotIx, (∀ i : LayerIx, ends i → e.layers[i].slot ≠ some sl) → t.eng.slots[sl] = e.slots[sl]
    let mx : Mixer := { e.mix with window := 0 }
    let waits : Follower := { e.fol with state := .waiting, err := 0, delta := 0, beatCount := 0, coastDue := false }
    let did : Event := .cueDone c.number c.target c.action e.cyc.k
    (c.action = .stopAll →
      let plays := fun i => st i = .playing ∨ st i = .overdubbing
      let idles := fun i => decide (plays i) && e.voices[i].idlesAtStop
      ∃ t, exec .stopAll s = .next t ∧ t.eng.fol = e.fol
        ∧ t.eng.cyc = { e.cyc with splice := e.cyc.splice.without fun i => decide (plays i) }
        ∧ released t (fun i => st i = .overdubbing)
        ∧ t.eng.mem = { e.mem.without idles with
            jobs := e.mem.jobs ++ (layerIxs.filter fun i => st i == .overdubbing && e.leavesCopy i).map
              fun i => e.jobOf i .finishCopy }
        ∧ (alone → s.tells t e.cyc.k e.cyc.p
          ((layerIxs.filter fun i => decide (plays i)).flatMap (e.layerEnds c.number .stopped) ++ [did]))
        ∧ t.eng.cues.list = before ++ after ∧ s.cueFrame t
        ∧ ∀ i : LayerIx, (idles i = true → t.eng.voices[i] = Voice.reset)
          ∧ (idles i = false → plays i → (t.eng.voices[i]).quits e.voices[i] i e.cyc.splice)
          ∧ (¬plays i → t.eng.voices[i] = e.voices[i])
          ∧ (¬plays i → t.eng.layers[i].sameButHold e.layers[i])
          ∧ (st i = .playing → t.eng.layers[i].sameButHold { e.layers[i] with state := .stopped, lastChange := e.cyc.k })
          ∧ (st i = .overdubbing → t.eng.layers[i].sameButHold (now e.layers[i] .stopped)))
    ∧ (c.action = .playAll →
      ∃ t, exec .playAll s = .next t ∧ t.eng.cyc = e.cyc ∧ t.eng.fol = e.fol ∧ t.eng.slots = e.slots
        ∧ t.eng.mem = e.mem ∧ t.eng.cues.list = before ++ after ∧ s.cueFrame t
        ∧ s.tells t e.cyc.k e.cyc.p
          (((layerIxs.filter fun i => st i == .stopped).map fun i => .layerState i .playing .cue c.number) ++ [did])
        ∧ ∀ i : LayerIx,
        (st i ≠ .stopped → t.eng.layers[i].sameButHold e.layers[i] ∧ t.eng.voices[i] = e.voices[i])
        ∧ (st i = .stopped →
          t.eng.layers[i].sameButHold { e.layers[i] with state := .playing, lastChange := e.cyc.k }
          ∧ (e.voices[i].rs ≠ .idle → t.eng.voices[i] = e.voices[i])
          ∧ (e.voices[i].rs = .idle → t.eng.voices[i].rs = .priming ∧ t.eng.voices[i].main.frames = [])
          ∧ (e.voices[i].rs = .idle → e.layers[i].mult.isSome = true → 0 < e.len i →
            let ahead := if e.cyc.state = .running then (e.position i + 256) % e.len i else e.position i
            t.eng.voices[i] = (e.voices[i]).primed (e.position i) ahead)))
    ∧ (c.action = .pause → s.eng.cyc.state = .running →
      (∀ i : LayerIx, st i ≠ .capturing ∧ st i ≠ .overdubbing) →
      (s.eng.cyc.splice = .idle →
        let e1 : Engine := { e with cyc := { e.cyc with state := .paused }, mix := mx }
        (e.fol.state ≠ .tracking → givesButHeard (exec .pause s) (s.cueDone c e1))
        ∧ (e.fol.state = .tracking →
          givesButHeard (exec .pause s)
            (s.cueDone c (({ e1 with fol := waits } : Engine).reports (.followState .waiting .paused)))))
      ∧ (∀ r : SpliceRec, s.eng.cyc.splice = .crossfading r →
        ∃ voices : Vector Voice 16, (∀ v : LayerIx, (voices[v]).quits e.voices[v] v e.cyc.splice)
          ∧ let e1 : Engine :=
              { e with cyc := { e.cyc with state := .paused, splice := .idle }, mix := mx, voices := voices }
            (e.fol.state ≠ .tracking → givesButHeard (exec .pause s) (s.cueDone c e1))
            ∧ (e.fol.state = .tracking →
              givesButHeard (exec .pause s)
                (s.cueDone c (({ e1 with fol := waits } : Engine).reports (.followState .waiting .paused)))))
      ∧ ∀ r : SpliceRec, s.eng.cyc.splice = .fetching r →
        ∃ voices : Vector Voice 16,
          (∀ v : LayerIx, voices[v] = if v ∈ r.voices then { e.voices[v] with spl := Run.nil } else e.voices[v])
          ∧ let e1 := ({ e with cyc := { e.cyc with state := .paused, splice := .idle }, mix := mx, voices := voices }
              : Engine).reports (.spliceSkipped r.j .paused)
            (e.fol.state ≠ .tracking → givesButHeard (exec .pause s) (s.cueDone c e1))
            ∧ (e.fol.state = .tracking →
              givesButHeard (exec .pause s)
                (s.cueDone c (({ e1 with fol := waits } : Engine).reports (.followState .waiting .paused)))))
    ∧ (c.action = .pause → s.eng.cyc.state = .running → named → alone →
      let ends := fun i => st i = .overdubbing ∨ st i = .capturing
      ∃ t, exec .pause s = .next t ∧ t.eng.cyc = { e.cyc with state := .paused, splice := .idle }
        ∧ t.eng.fol = (if e.fol.state = .tracking then waits else e.fol) ∧ released t ends
        ∧ s.tells t e.cyc.k e.cyc.p
          ((layerIxs.filter fun i => decide (ends i)).flatMap (e.layerEnds c.number .playing)
            ++ e.cyc.splice.skips .paused ++ e.fol.rests .paused ++ [did])
        ∧ t.eng.mem = { e.mem with
            jobs := e.mem.jobs ++ (layerIxs.filter fun i =>
              (st i == .capturing && e.mem.jobs.all fun j => j.layer != i)
                || (st i == .overdubbing && e.leavesCopy i)).map fun i => e.jobOf i .finishCopy }
        ∧ t.eng.cues.list = before ++ after ∧ s.cueFrame t
        ∧ ∀ i : LayerIx,
          (¬ends i → t.eng.layers[i].sameButHold e.layers[i])
          ∧ (st i = .overdubbing → t.eng.layers[i].sameButHold (now e.layers[i] .playing))
          ∧ (∀ sl a, st i = .capturing → e.layers[i].slot = some sl →
            (e.slots[sl].first = some a ∨ ∃ q, e.slots[sl].first = none ∧ e.slots[sl].start = some q ∧ 0 < e.len i
              ∧ a = (q + 1) % e.len i) →
            t.eng.layers[i].sameButHold { now e.layers[i] .playing with written := some (a, e.slots[sl].count) })
          ∧ (st i ≠ .capturing ∨ e.voices[i].rs ≠ .idle → (t.eng.voices[i]).quits e.voices[i] i e.cyc.splice)
          ∧ (∀ n, st i = .capturing → e.voices[i].rs = .idle → e.layers[i].mult = some n → 0 < e.len i →
            (t.eng.voices[i]).quits ((e.voices[i]).primed (e.position i) ((e.position i + 256) % e.len i)) i
              e.cyc.splice))
    ∧ (c.action = .resume → s.eng.cyc.state = .paused →
      exec .resume s = .next (s.cueDone c { e with cyc := { e.cyc with state := .running }, mix := mx }))

/-- A due cue whose lane is not LOCKED is put off, up to four times, and then fails; a cue on a layer in a state it does
not accept, held against it, in a cycle state it does not accept, or with no slot free, fails and changes nothing but
that an ARMED layer of a RECORD returns to EMPTY, in the order of the checks. NO_SPACE is stated in RecordCue and
OverdubCues, TOO_SHORT in CloseCues (R44 to R46, R48 to R51, R54 to R57, R71 to R79, R169; entry 28). -/
def Obligations.CuesThatFail : Prop :=
  ∀ (s : State) (c : Cue) (before after : List Cue), s.Turn c before after →
    let e := s.dequeued before after
    let fails := fun (i : Instr) (r : FailReason) => exec i s = .next (s.cueFailed c r e)
    let deferred := s.giving { s.eng with cues := { s.eng.cues with
      list := before ++ { c with deferrals := c.deferrals + 1, remaining := 1, wave := 0 } :: after } }
    let busy := ∀ i : SlotIx, e.slots[i].use ≠ .free
    (∀ n lane l, c.action = .record n lane → c.target = .layer l →
      let st := e.layers[l].state
      let drops := fun r : FailReason => exec .record s = .next (s.recordFailed c l r e)
      let ran := e.cyc.state = .unset ∨ e.cyc.state = .running
      (¬s.eng.lockedLane lane → c.deferrals < 4 → exec .record s = .next deferred)
      ∧ (¬s.eng.lockedLane lane → 4 ≤ c.deferrals → st = .armed → drops .laneNotLocked)
      ∧ (¬s.eng.lockedLane lane → 4 ≤ c.deferrals → st ≠ .armed → fails .record .laneNotLocked)
      ∧ (s.eng.lockedLane lane → st ≠ .armed → fails .record .wrongState)
      ∧ (s.eng.lockedLane lane → st = .armed → ¬ran → drops .wrongState)
      ∧ (s.eng.lockedLane lane → st = .armed → ran → e.layers[l].hold ≠ .none → drops .layerHeld)
      ∧ (s.eng.lockedLane lane → st = .armed → ran → e.layers[l].hold = .none → busy → drops .noSlot))
    ∧ (∀ lane lv fb, c.action = .overdub lane lv fb →
      (¬s.eng.lockedLane lane → c.deferrals < 4 → exec .overdub s = .next deferred)
      ∧ (¬s.eng.lockedLane lane → 4 ≤ c.deferrals → fails .overdub .laneNotLocked)
      ∧ ∀ l, s.eng.lockedLane lane → c.target = .layer l →
        let ready := e.cyc.state = .running ∧ e.layers[l].state = .playing ∧ e.layers[l].written = none
        (¬ready → fails .overdub .wrongState)
        ∧ (ready → e.layers[l].hold ≠ .none → fails .overdub .layerHeld)
        ∧ (ready → e.layers[l].hold = .none → busy → fails .overdub .noSlot))
    ∧ (∀ l, c.target = .layer l →
      let r := s.eng.layers[l]
      let st := r.state
      let settled := st = .playing ∨ st = .stopped
      (c.action = .close → st ≠ .capturing → fails .close .wrongState)
      ∧ (c.action = .overdubEnd → st ≠ .overdubbing → fails .overdubEnd .wrongState)
      ∧ (c.action = .play → st ≠ .stopped → fails .play .wrongState)
      ∧ (c.action = .stop → st ≠ .playing → st ≠ .overdubbing → fails .stop .wrongState)
      ∧ (c.action = .mute → st = .empty → fails .mute .wrongState)
      ∧ (c.action = .unmute → st = .empty → fails .unmute .wrongState)
      ∧ (r.hold ≠ .none →
        (c.action = .undo → fails .undo .layerHeld) ∧ (c.action = .redo → fails .redo .layerHeld)
          ∧ (c.action = .clear → fails .clear .layerHeld))
      ∧ (r.hold = .none →
        (c.action = .undo → ¬settled ∨ r.undo = none → fails .undo .wrongState)
          ∧ (c.action = .redo → ¬settled ∨ r.redo = none → fails .redo .wrongState)))
    ∧ (c.action = .pause → s.eng.cyc.state = .unset ∨ s.eng.cyc.state = .paused → fails .pause .wrongState)
    ∧ (c.action = .resume → s.eng.cyc.state ≠ .paused → fails .resume .wrongState)
    ∧ (c.action = .clearAll → (∃ i : LayerIx, s.eng.layers[i].hold ≠ .none) → fails .clearAll .layerHeld)

/-- Holds that can be granted: a PENDING hold of a PLAYING or STOPPED layer with no writing cue or CLEAR_ALL
pending, no written range and no zero fill becomes HELD, and HOLD_GRANTED is queued for it; every other hold and
everything else is kept (R168). Of several granted on one frame, the layers are taken in ascending order, which is the
model's choice (entry 55). -/
def Obligations.GrantHolds : Prop :=
  ∀ e : Engine,
    let met := fun l : LayerIx =>
      let r := e.layers[l]
      r.hold = .pending ∧ (r.state = .playing ∨ r.state = .stopped) ∧ r.written = none
      ∧ (∀ d ∈ e.cues.list, ¬(d.target = .layer l ∧ d.action.writing = true) ∧ d.action ≠ .clearAll)
      ∧ ∀ j ∈ e.mem.jobs, ¬(j.layer = l ∧ j.kind = .zeroFill)
    ∃ (layers : Vector Layer 16) (granted : List LayerIx),
      granted.Pairwise (· < ·) ∧ (∀ l : LayerIx, l ∈ granted ↔ met l)
      ∧ (∀ l : LayerIx, (met l → layers[l] = { e.layers[l] with hold := .held }) ∧ (¬met l → layers[l] = e.layers[l]))
      ∧ grantHolds e = { e with
          layers := layers, evq := granted.foldl (fun q l => queueReport (.holdGranted l) e.cyc.k e.cyc.p q) e.evq }

/-! ## Captures, memory and voices -/

/-- Captures and overdubs, with each layer and its slot naming each other (StepKeepsPages). A FRAME forms the write of a
base capture at the position its count gives, and of a fixed capture or an overdub at the positions from the one after its
last to the layer's, both when the position moved on by two, an overdub's combining the stored frame its voice holds there
with the lane's sample, and writing its last position again when the position stands; the FRAME after makes a
base capture's write: it is staged, the count moves on, and a new page joins the chain when the old are full. It makes an
overdub's too: it is staged and w rises, the written range becoming absent at L, or replaces the one written last.
FIXED_CAPTURE_COMPLETE: when the frame's write brings the count to the layer's length, the sample is staged,
the slot released, the layer PLAYING and its idle voice priming, the lane noting what was staged of it (entry 51), with
LAYER_STATE (CAPTURE_END) and the CAPTURE_GAP of an open gap run (entry 32); before that nothing happens (R47, R59, R85, R86, R90, R91, R94 to R97, R100, R101; entries 2, 12). -/
def Obligations.FixedCaptureComplete : Prop :=
  (∀ (s : State) (l : LayerIx) (sl : SlotIx) (lane : LaneIx), s.Still → s.eng.cyc.splice = .idle →
    (∀ (k : LayerIx) (i : SlotIx), s.eng.layers[k].slot = some i ↔ s.eng.slots[i].layer = some k) →
    s.eng.slots[sl].layer = some l → s.eng.slots[sl].lane = some lane →
    let old := s.eng.slots[sl]
    let write := fun (t : State) (pos : Nat) (again : Bool) =>
      ({ pos := pos, x := t.eng.lanes[lane].x, mixed := none, again := again } : SlotWrite)
    ∃ t, exec .frame s = .next t
      ∧ (s.eng.cyc.state = .baseCapture → old.use = .base → old.pendingWrites = [] → old.count < 2880000 →
        t.eng.slots[sl] = { old with pendingWrites := [write t old.count false] })
      ∧ (∀ (w : SlotWrite) (chain : List Nat) (pg key : Nat) (more : List Nat), s.eng.cyc.state = .baseCapture →
        old.use = .base → old.pendingWrites = [w] → w.mixed = none → w.again = false → old.count + 1 < 2880000 →
        s.eng.layers[l].slot = some sl → s.eng.layers[l].cur = some chain → s.eng.mem.free = pg :: more →
        let paged := chain.length * 16384 ≤ w.pos
        (if paged then chain ++ [pg] else chain).head? = some key →
        (old.staging.filter Entry.isData).length < 1024 → openGap old = none → (∀ i : SlotIx, i ≠ sl →
          s.eng.slots[i].use = .free ∧ s.eng.slots[i].pendingWrites = []) →
        t.eng.slots[sl] = { old with
            count := old.count + 1, last := some w.pos, pendingWrites := [write t (old.count + 1) false],
            staging := old.staging ++ [{ layer := l, key := key, body := .data w.pos w.x }] }
          ∧ t.eng.layers[l] = { s.eng.layers[l] with cur := some (if paged then chain ++ [pg] else chain) }
          ∧ t.eng.mem.free = if paged then more else pg :: more)
      ∧ (∀ r d : Nat, s.eng.cyc.state = .running → old.use = .fixed → old.pendingWrites = [] →
        let len := s.eng.len l
        old.count < len → (old.last.or old.start) = some r → r < len → d < len → (r + d) % len = t.eng.position l →
        (d = 0 → t.eng.slots[sl] = { old with pendingWrites := [write t r old.last.isSome] })
        ∧ (d = 1 → t.eng.slots[sl] = { old with pendingWrites := [write t ((r + 1) % len) false] })
        ∧ (d = 2 → old.count + 1 = len → t.eng.slots[sl] = { old with pendingWrites := [write t ((r + 1) % len) false] })
        ∧ (d = 2 → old.count + 1 < len →
          t.eng.slots[sl] =
            { old with pendingWrites := [write t ((r + 1) % len) false, write t ((r + 2) % len) false] }))
      -- an overdub: the writes a frame forms, while the voice holds the stored frames it reaches
      ∧ (∀ (r d n : Nat) (x0 x1 x2 : Sample) (held : List Sample), s.eng.cyc.state = .running → old.use = .overdub →
        s.eng.layers[l].state = .overdubbing → old.pendingWrites = [] → old.last = some r →
        s.eng.layers[l].mult = some n →
        let len := s.eng.len l
        let v := s.eng.voices[l]
        r < len → 3 < len → (r + d) % len = t.eng.position l → v.rs = .reading → v.clearing = false →
        v.main.base = r → v.main.frames = x0 :: x1 :: x2 :: held →
        let mixes := fun (pos : Nat) (again : Bool) (stored : Sample) =>
          ({ pos := pos, x := t.eng.lanes[lane].x, again := again,
             mixed := some { old := stored, level := s.eng.layers[l].level, feedback := s.eng.layers[l].feedback } }
            : SlotWrite)
        (d = 0 → t.eng.slots[sl] = { old with pendingWrites := [mixes r true x0] })
        ∧ (d = 1 → t.eng.slots[sl] = { old with pendingWrites := [mixes ((r + 1) % len) false x1] })
        ∧ (d = 2 → held ≠ [] → t.eng.slots[sl] =
          { old with pendingWrites := [mixes ((r + 1) % len) false x1, mixes ((r + 2) % len) false x2] }))
      -- an overdub: the write formed on a frame is made as the frame ends
      ∧ (∀ (w : SlotWrite) (key a n : Nat) (more : List Nat), s.eng.cyc.state ≠ .baseCapture → old.use = .overdub →
        s.eng.layers[l].state = .overdubbing → old.pendingWrites = [w] → s.eng.layers[l].cur = some (key :: more) → s.eng.layers[l].written = some (a, n) →
        (old.staging.filter Entry.isData).length < 1024 → openGap old = none →
        let entry : Entry := { layer := l, key := key, body := .data w.pos w.value }
        let made := fun staging : List Entry =>
          ({ old with last := some w.pos, staging := staging, pendingWrites := t.eng.slots[sl].pendingWrites } : Slot)
        (w.again = false →
          t.eng.slots[sl] = made (old.staging ++ [entry])
            ∧ t.eng.layers[l]
              = { s.eng.layers[l] with written := if s.eng.len l ≤ n + 1 then none else some (a, n + 1) })
        ∧ (∀ (before : List Entry) (x : Sample), w.again = true →
          old.staging = before ++ [{ layer := l, key := key, body := .data w.pos x }] →
          t.eng.slots[sl] = made (before ++ [entry]) ∧ t.eng.layers[l] = s.eng.layers[l])))
  ∧ ∀ (s : State) (l : LayerIx) (sl : SlotIx) (key pos : Nat) (more : List Nat) (x : Sample), s.powered = true →
    let slot := s.eng.slots[sl]
    slot.use = .fixed → slot.layer = some l → s.eng.layers[l].slot = some sl →
    s.eng.layers[l].cur = some (key :: more) →
    slot.pendingWrites = [{ pos := pos, x := x, mixed := none, again := false }] →
    (slot.count + 1 = s.eng.len l → slot.staging = [] →
      ∃ t, exec (.fixedCaptureComplete sl) s = .next t
        ∧ t.eng.layers[l].sameButHold
            { s.eng.layers[l] with state := .playing, slot := none, lastChange := s.eng.cyc.k }
        ∧ t.eng.slots[sl] = { Slot.reset with staging := [{ layer := l, key := key, body := .data pos x }] }
        ∧ (s.eng.voices[l].rs = .idle → t.eng.voices[l].rs = .priming)
        ∧ (∀ i : LayerIx, i ≠ l → t.eng.layers[i].sameButHold s.eng.layers[i] ∧ t.eng.voices[i] = s.eng.voices[i])
        ∧ (∀ i : SlotIx, i ≠ sl → t.eng.slots[i] = s.eng.slots[i])
        ∧ (∀ k : LaneIx, t.eng.lanes[k] = { s.eng.lanes[k] with taken := t.eng.lanes[k].taken })
        ∧ (∀ k : LaneIx, slot.lane = some k → (l, key, pos) ∈ t.eng.lanes[k].taken)
        ∧ t = s.giving { s.eng with layers := t.eng.layers, slots := t.eng.slots, voices := t.eng.voices,
                                    lanes := t.eng.lanes, evq := t.eng.evq }
        ∧ s.tells t s.eng.cyc.k s.eng.cyc.p [.layerState l .playing .captureEnd 0])
    -- its reports, whatever the buffer holds: a gap run that the sample closes comes first, one that it joins last
    ∧ (slot.count + 1 = s.eng.len l →
      let data := (slot.staging.filter Entry.isData).length
      ∃ t, exec (.fixedCaptureComplete sl) s = .next t
        ∧ t.eng.layers[l].sameButHold
            { s.eng.layers[l] with state := .playing, slot := none, lastChange := s.eng.cyc.k }
        ∧ t.eng.slots[sl] = (t.eng.slots[sl]).released ∧ t.eng.cyc = s.eng.cyc ∧ t.eng.mem = s.eng.mem
        ∧ s.tells t s.eng.cyc.k s.eng.cyc.p
          (if data < 1024 then
            (match openGap slot with
              | some n => [.captureGap sl n]
              | none => []) ++ [.layerState l .playing .captureEnd 0]
          else [.layerState l .playing .captureEnd 0, .captureGap sl ((openGap slot).getD 0 + 1)]))
    ∧ (slot.count + 1 < s.eng.len l → exec (.fixedCaptureComplete sl) s = .next s)

/-- GRANT_COMPLETE, a grant whose periods have run: a refill gives its voice, and a splice fill its splice stream,
the frames as any reader of the chain receives them; a drain of one staged frame writes its page and no other
frame; a grant of an AUDIO_READ reads, and one of an AUDIO_WRITE writes, its frames, and the last one completes the
transfer with its reply and a release that waited; the page filler reads a piece of the old chain, writes it or
zeros into the new one, and tells FILL_DONE at the end of its job, a ZERO_FILL's then letting the layer's voice
prime. The arbiter then makes the next grant, of the request that is served before all others, by its class, its level and
its number, with its first position, its count and its ceil(count / 32) periods, or none when no request stands; a cancelled
grant moves no frame (R102 to R104, R113 to R123, R172 to R174). Two things in it are the model's choice: that
GRANT_COMPLETE with periods still to run changes nothing (entry 2), and that a chain is known by its first page
(entry 27). -/
def Obligations.GrantComplete : Prop :=
  (∀ (s : State) (g : Grant), s.powered = true → s.eng.mem.grant = some g → g.left = 0 →
    ∃ t, exec .grantComplete s = .next t ∧ t.eng.picks t.eng.mem.grant)
  ∧ (∀ (s : State) (g : Grant) (j : Job) (jobs : List Job) (a w : Nat), s.powered = true → s.eng.mem.grant = some g →
    g.left = 0 → g.cancelled = false → g.who = .filler → s.eng.mem.jobs = j :: jobs → j.kind = .finishCopy →
    s.eng.layers[j.layer].written = some (a, w) → (∀ i : LayerIx, i ≠ j.layer → s.eng.layers[i].written = none) →
    s.eng.voices[j.layer].rs = .idle → s.eng.cyc.splice = .idle → g.layer = j.layer → g.first < s.eng.len g.layer →
    let e := s.eng
    let len := e.len g.layer
    let position := fun i : Nat => (g.first + i) % len
    ∃ t, exec .grantComplete s = .next t
      ∧ (g.write = false →
        t = s.giving { e with mem := { e.mem with
          grant := t.eng.mem.grant, work := (List.range g.count).map fun i => chainRead e g.layer g.key (position i) } })
      ∧ (g.write = true →
        let xs := if (chainKey e.layers[j.layer].undo).isSome then e.mem.work.take g.count else List.replicate g.count 0
        let e1 : Engine := { e with mem := { e.mem with cells := t.eng.mem.cells, grant := none, work := [] },
                                    slots := t.eng.slots }
        (∀ i : SlotIx, (t.eng.slots[i]).sameButStaging e.slots[i])
        ∧ ((∀ i : SlotIx, e.slots[i].staging = []) → t.eng.slots = e.slots)
        ∧ (e.layers[j.layer].cur.bind List.head? = some g.key → (∀ i : SlotIx, e.slots[i].staging = []) →
          cellsWf e.mem.cells = true → g.count ≤ len → xs.length = g.count →
          (e.layers[j.layer].cur.getD []).Nodup → len ≤ 16384 * (e.layers[j.layer].cur.getD []).length →
          (∀ i < g.count, chainRead t.eng g.layer g.key (position i) = xs.getD i 0))
        ∧ (w + g.count < len →
          t = s.giving { e1 with
            layers := upd e.layers j.layer fun r => { r with written := some (a, w + g.count) },
            mem := { e1.mem with grant := t.eng.mem.grant } })
        ∧ (len ≤ w + g.count →
          let e2 : Engine := { e1 with layers := upd e.layers j.layer fun r => { r with written := none },
                                       mem := { e1.mem with jobs := jobs } }
          let e3 := grantHolds (e2.reports (.fillDone j.layer .finishCopy))
          t = s.giving { e3 with mem := { e3.mem with grant := t.eng.mem.grant } })))
  ∧ ∀ (s : State) (g : Grant), s.powered = true → s.eng.mem.grant = some g →
    (∀ i : LayerIx, s.eng.layers[i].written = none) →
    let e := s.eng
    let len := e.len g.layer
    let reads := (List.range g.count).map fun i => chainRead e g.layer g.key ((g.first + i) % len)
    let next := fun t : State => { e.mem with grant := t.eng.mem.grant }
    (0 < g.left → exec .grantComplete s = .next s)
    ∧ (g.left = 0 → g.cancelled = true → ∃ t, exec .grantComplete s = .next t
        ∧ t = s.giving { e with mem := next t })
    ∧ (∀ v : LayerIx, g.left = 0 → g.cancelled = false → g.who = .voice v → g.layer = v → g.first < len →
      e.voices[v].rs ≠ .idle → e.voices[v].clearing = false →
      g.first = (e.voices[v].main.base + e.voices[v].main.frames.length) % len →
      ∃ t, exec .grantComplete s = .next t
        ∧ t.eng.voices[v].main = { base := e.voices[v].main.base, frames := e.voices[v].main.frames ++ reads }
        ∧ (∀ i : LayerIx, i ≠ v → t.eng.voices[i] = e.voices[i])
        ∧ t = s.giving { e with voices := t.eng.voices, mem := next t })
    ∧ (∀ (sl : SlotIx) (pos pg : Nat) (x : Sample) (rest : List Entry) (pages : List Nat),
      cellsWf e.mem.cells = true → g.left = 0 → g.cancelled = false → g.who = .slot sl → g.count = 1 →
      e.slots[sl].staging = { layer := g.layer, key := g.key, body := .data pos x } :: rest →
      e.layers[g.layer].cur = some pages → pages.head? = some g.key → pages[pos / 16384]? = some pg →
      ∃ t cells, exec .grantComplete s = .next t
        ∧ (∀ a, cellRead cells a = if a = pg * 16384 + pos % 16384 then x else cellRead e.mem.cells a)
        ∧ t = s.giving { e with
            slots := upd e.slots sl (fun old => { old with staging := rest }),
            mem := { next t with cells := cells } })
    ∧ (∀ (sp : SpliceRec) (v : LayerIx), g.left = 0 → g.cancelled = false → g.who = .splice v → g.layer = v →
      g.first < len → e.cyc.splice = .fetching sp → v ∈ sp.voices →
      g.first = (e.voices[v].spl.base + e.voices[v].spl.frames.length) % len →
      let voices := upd e.voices v fun x => { x with spl := { x.spl with frames := x.spl.frames ++ reads } }
      ∃ t, exec .grantComplete s = .next t ∧ t = s.giving { e with voices := voices, mem := next t })
    ∧ (∀ tr : Transfer, g.left = 0 → g.cancelled = false → g.who = .transfer → e.xfer = some tr →
      tr.write = false → g.first < len →
      ∃ t, exec .grantComplete s = .next t
        ∧ (tr.moved + g.count < tr.count →
          let tr1 : Transfer := { tr with moved := tr.moved + g.count, data := tr.data ++ reads }
          t = s.giving { e with xfer := some tr1, mem := next t })
        ∧ (tr.count ≤ tr.moved + g.count →
          let r : Reply := { kind := 147, tag := tr.tag, status := .ok, overrun := s.link.overrun,
                             data := [.raw (sampleBytes (tr.data ++ reads))] }
          let lk : Link := { s.link with replies := s.link.replies ++ [r], overrun := false }
          let layers := if tr.release then upd e.layers tr.layer (fun r => { r with hold := .none }) else e.layers
          t = { s with eng := { e with xfer := none, layers := layers, mem := next t }, link := lk }))
    ∧ (∀ (tr : Transfer) (pages : List Nat), g.left = 0 → g.cancelled = false → g.who = .transfer → e.xfer = some tr →
      tr.write = true → e.layers[g.layer].cur = some pages → pages.head? = some g.key → pages.Nodup →
      len ≤ 16384 * pages.length → g.first + g.count ≤ len → tr.moved + g.count ≤ tr.data.length →
      (∀ i : SlotIx, e.slots[i].staging = []) → cellsWf e.mem.cells = true →
      ∃ t cells, exec .grantComplete s = .next t
        ∧ (∀ pos < len, chainRead t.eng g.layer g.key pos =
          if g.first ≤ pos ∧ pos < g.first + g.count then tr.data.getD (tr.moved + (pos - g.first)) 0
          else chainRead e g.layer g.key pos)
        ∧ (∀ a, a / 16384 ∉ pages → cellRead cells a = cellRead e.mem.cells a)
        ∧ (tr.moved + g.count < tr.count →
          let tr1 : Transfer := { tr with moved := tr.moved + g.count }
          t = s.giving { e with xfer := some tr1, mem := { next t with cells := cells } })
        ∧ (tr.count ≤ tr.moved + g.count →
          let r : Reply := { kind := 148, tag := tr.tag, status := .ok, overrun := s.link.overrun, data := [] }
          let lk : Link := { s.link with replies := s.link.replies ++ [r], overrun := false }
          let layers := if tr.release then upd e.layers tr.layer (fun r => { r with hold := .none }) else e.layers
          t = { s with eng := { e with xfer := none, layers := layers, mem := { next t with cells := cells } },
                       link := lk }))
    ∧ (∀ (j : Job) (jobs : List Job) (pages : List Nat), g.left = 0 → g.cancelled = false → g.who = .filler →
      e.mem.jobs = j :: jobs → j.kind = .zeroFill → j.layer = g.layer → e.layers[g.layer].cur = some pages →
      pages.head? = some g.key → pages.Nodup → len ≤ 16384 * pages.length → g.first + g.count ≤ len →
      (∀ i : SlotIx, e.slots[i].staging = []) → cellsWf e.mem.cells = true →
      ∃ t cells, exec .grantComplete s = .next t
        ∧ (∀ pos < len, chainRead t.eng g.layer g.key pos =
          if g.first ≤ pos ∧ pos < g.first + g.count then 0 else chainRead e g.layer g.key pos)
        ∧ (j.done + g.count < len →
          t = s.giving { e with mem := { next t with
            cells := cells, jobs := { j with done := j.done + g.count } :: jobs } })
        ∧ (len ≤ j.done + g.count →
          let e1 := ({ e with mem := { e.mem with cells := cells, grant := none, jobs := jobs, work := [] } } : Engine)
          let e2 := grantHolds (e1.reports (.fillDone j.layer .zeroFill))
          let i := e.position g.layer
          let start := if e.cyc.state = .running then (i + 256) % len else i
          let voices := upd e.voices g.layer fun v => if v.rs = .priming then v.primed i start else v
          (∃ n, e.layers[g.layer].mult = some n) → 0 < len →
          t = s.giving { e2 with voices := voices, mem := { e2.mem with grant := t.eng.mem.grant } }))

/-- The voices, on a FRAME on which no capture completes or closes by itself (FixedCaptureComplete, CloseCues). While RUNNING a READING voice goes
on to the layer's position, discards what lies behind it and presents the sample between the frames there, or, lacking
one, starves with a falling weight and reports STARVED with the position it stalls at; a STARVED one holds its last sample under the falling weight, a PRIMING one presents
0; while PAUSED the position stands still, a starved weight holds and the target is 0; every envelope takes one step
toward the target of R53. In a crossfade a voice mixes its old and new streams by the crossfade count, and on the frame on
which that reaches X reads its main staging alone. A voice in its clear fade reads what it holds on, or repeats its last
sample, under the falling weight. PRIMING_COMPLETE, RECOVERY, VOICE_IDLE and CLEAR_FADE_END of a voice whose event is due:
it reads from its position, reads again with a rising weight, its starved count reported, the pair of the frame formed
again with the sample it now presents and the overdub writes of the frame with the frames it now holds, or, lacking
them, empties its staging and stays STARVED; or it goes idle, a refill in progress giving nothing, and primes if its layer
is PLAYING or OVERDUBBING again (R95, R127 to R135, R137, R138). The model's choices: the last sample is the value before
the short weight (entry 14), the pair and the writes formed again (entry 13), the weight of the recovery frame falls before
it rises (entry 52), a recovery as soon as the layer is played again when the staging filled while it was STOPPED (entry
66), a refill that comes after its voice went idle (entry 67), a clear fade that ends at once where the envelope is 0 already
(entry 74). -/
def Obligations.VoiceEvents : Prop :=
  (∀ (s : State) (l : LayerIx), s.Still → (∀ i : SlotIx, fixedCompleteDue s.eng i = false) → autoCloseDue s.eng = false →
    let e := s.eng
    let r := e.layers[l]
    let v := e.voices[l]
    let len := e.len l
    let step := (4096 + e.mix.fade - 1) / e.mix.fade
    let target := if (r.state = .playing ∨ r.state = .overdubbing) ∧ v.rs ≠ .priming ∧ r.mute = false
      ∧ e.cyc.state = .running then 4096 else 0
    let rises := fun (u : Voice) => ({ u with
      short := if v.dir = .rising then min 4096 (v.short + 128) else v.short,
      dir := if v.dir = .rising ∧ v.short + 128 < 4096 then .rising else .steady } : Voice)
    -- a voice that presents the value `x` under its short weight
    let presents := fun (u : Voice) (x : Int) => ({ u with sample := sat24 (x * u.short / 4096), last := sat24 x } : Voice)
    let stays := ¬(r.state = .stopped ∧ v.env = 0)
    let apart := ∀ sp, e.cyc.splice = .crossfading sp → l ∈ sp.voices → sp.count + 1 = sp.x
    ∃ t, exec .frame s = .next t ∧
      let now := t.eng.voices[l]
      let here := t.eng.position l
      let frac := if e.cyc.state = .running then t.eng.cyc.frac else e.cyc.frac
      let between := fun a b : Sample => a.toInt + (b.toInt - a.toInt) * frac / 65536
      let mixed := fun (u : Voice) => ({ u with env := now.env, target := target, flag := now.flag, spl := now.spl } : Voice)
      (v.rs ≠ .idle → stays ∨ v.clearing = true → primingDue e l = false →
        (v.clearing = true → 0 < v.short ∧ 0 < v.env) →
        now.target = target ∧ now.env = if v.env < target then min target (v.env + step) else max target (v.env - step))
      -- outside a crossfade and on its last frame
      ∧ (v.clearing = false → v.rs = .reading → now.rs = .starved → e.mix.clipping = none → t.eng.cyc.beat = e.cyc.beat →
        t.eng.cyc.k = e.cyc.k →
        ∃ q, now.stall = some q ∧ s.tellsOf t (.starved l q) (l.val + 3) t.eng.cyc.k t.eng.cyc.p)
      ∧ (∀ n : Nat, v.clearing = false → stays → apart → s.jumpDue = false → r.written = none → r.mult = some n →
        (∀ i d o : Nat, e.cyc.state = .running → v.rs = .reading → v.dir ≠ .falling → v.pos = some i → i < len → 1 < len →
          v.main.base = (i + o) % len → o ≤ d → d < len → (i + d) % len = here →
          (∀ (a b : Sample) (held : List Sample), v.main.frames.drop (d - o) = a :: b :: held →
            now = mixed (presents (rises { v with
              pos := some here, main := { base := here, frames := v.main.frames.drop (d - o) } }) (between a b)))
          ∧ (v.main.frames.length < d - o + 2 →
            now.rs = .starved ∧ now.stall = some here ∧ now.dir = .falling ∧ now.short = v.short - 128
              ∧ now.starvedCount = some 0 ∧ now.last = v.last
              ∧ now.sample = sat24 (v.last.toInt * (v.short - 128 : Nat) / 4096)))
        ∧ (∀ i o : Nat, e.cyc.state = .paused → v.rs = .reading → v.dir ≠ .falling → v.pos = some i → 1 < len → i < len →
          (v.main.base = i → ∀ (a b : Sample) (held : List Sample), v.main.frames = a :: b :: held →
            now = mixed (presents (rises v) (between a b)))
          ∧ (v.main.base = (i + o) % len → o < len → v.main.frames.length < 2 →
            now.rs = .starved ∧ now.stall = some i ∧ now.dir = .falling ∧ now.short = v.short
              ∧ now.starvedCount = some 0 ∧ now.last = v.last
              ∧ now.sample = sat24 (v.last.toInt * v.short / 4096)))
        ∧ (v.rs = .starved → v.dir = .falling →
          let short := if e.cyc.state = .running then v.short - 128 else v.short
          now.rs = .starved ∧ now.short = short ∧ now.last = v.last
            ∧ now.starvedCount = v.starvedCount.map (· + if e.cyc.state = .running then 1 else 0)
            ∧ now.sample = sat24 (v.last.toInt * short / 4096))
        ∧ (v.rs = .priming → primingDue e l = false →
          now.rs = .priming ∧ now.sample = 0 ∧ now.pos = if e.cyc.state = .running then some here else v.pos))
      -- in a crossfade of J over X frames, `w` of 4,096 being the weight of the new stream
      ∧ (∀ (sp : SpliceRec) (i d n : Nat), e.cyc.splice = .crossfading sp → l ∈ sp.voices → sp.count + 1 < sp.x →
        v.clearing = false → stays → r.written = none → r.mult = some n → e.cyc.state = .running → v.rs = .reading →
        v.dir ≠ .falling → v.pos = some i → i < len → 1 < len → v.spl.base = i → d < len → (i + d) % len = here →
        let w := 4096 * (sp.count + 1) / sp.x
        let behind := v.store.frames.getLast?.getD 0
        (∀ (a b : Sample) (held : List Sample) (k : Nat), v.spl.frames.drop d = a :: b :: held → v.store.frames ≠ [] →
          k + 1 < len → (((v.store.base + k) % len : Nat) : Int) = ((here : Int) + sp.j) % len →
          let old := between (v.store.frames.getD k behind) (v.store.frames.getD (k + 1) behind)
          now = mixed (presents (rises { v with
              pos := some here, main := now.main, spl := { base := here, frames := v.spl.frames.drop d } })
            ((old * (4096 - w : Nat) + between a b * w) / 4096))
          ∧ now.spl = { base := here, frames := v.spl.frames.drop d }
          ∧ ∀ o, v.main.base = (i + o) % len → o < len → d ≤ o → now.main = v.main)
        ∧ (v.spl.frames.length < d + 2 → v.main.frames = [] →
          now.rs = .starved ∧ now.stall = some here ∧ now.dir = .falling ∧ now.short = v.short - 128
            ∧ now.starvedCount = some 0 ∧ now.last = v.last ∧ now.spl = Run.nil ∧ now.store = Run.nil
            ∧ now.sample = sat24 (v.last.toInt * (v.short - 128 : Nat) / 4096)))
      -- in its clear fade
      ∧ (∀ i : Nat, v.clearing = true → v.rs = .reading → v.dir = .falling → 0 < v.short → 0 < v.env → v.pos = some i →
        v.main.base = i → (∀ sp, e.cyc.splice = .crossfading sp → l ∈ sp.voices → sp.count < sp.x) →
        let adv := if e.cyc.state = .running then (e.cyc.frac + (65536 + e.fol.delta)).toNat / 65536 else 0
        let on := { v with pos := some (i + adv), main := { base := i + adv, frames := v.main.frames.drop adv },
                           short := v.short - 128 }
        now.flag = false
          ∧ (∀ (a b : Sample) (held : List Sample), v.main.frames.drop adv = a :: b :: held →
            now = mixed (presents on (between a b)))
          ∧ (v.main.frames.length < adv + 2 →
            now = mixed { on with sample := sat24 (v.last.toInt * on.short / 4096) })))
  ∧ ∀ (s : State) (l : LayerIx), s.powered = true →
    let e := s.eng
    let v := e.voices[l]
    let len := e.len l
    let put := fun w : Voice => ({ e with voices := upd e.voices l fun _ => w } : Engine)
    -- the frame's overdub writes on the layer, once its voice holds these frames from `here` on
    let rereads := fun (slots : Vector Slot 2) (here : Nat) (frames : List Sample) =>
      (∀ i : SlotIx, e.layers[l].slot ≠ some i → slots[i] = e.slots[i])
        ∧ ∀ i : SlotIx, e.layers[l].slot = some i →
          slots[i] = { e.slots[i] with pendingWrites := slots[i].pendingWrites }
            ∧ slots[i].pendingWrites.length = e.slots[i].pendingWrites.length
            ∧ ∀ (m k : Nat) (w : SlotWrite), e.slots[i].pendingWrites[m]? = some w → k < len → w.pos = (here + k) % len →
              slots[i].pendingWrites[m]?
                = some { w with mixed := w.mixed.map fun c => { c with old := frames.getD k 0 } }
    (∀ (i : Nat) (a b : Sample) (held : List Sample), v.rs = .priming → v.pos = some i → v.main.base = i →
      v.main.frames = a :: b :: held → i < len → 1 < len →
      (∀ j ∈ e.mem.jobs, ¬(j.layer = l ∧ j.kind = .zeroFill)) →
      let first := a.toInt + (b.toInt - a.toInt) * e.cyc.frac / 65536
      exec (.primingComplete l) s
        = .next (s.giving (put { v with rs := .reading, primeStart := none, last := sat24 first })))
    ∧ (∀ q d : Nat, v.rs = .starved → v.stall = some q → v.main.base = q → 448 ≤ v.main.frames.length →
      e.layers[l].state = .playing ∨ e.layers[l].state = .overdubbing → (∃ n, e.layers[l].mult = some n) → 1 < len →
      q < len → d < len → (q + d) % len = e.position l →
      let here := e.position l
      (∀ (a b : Sample) (held : List Sample), v.main.frames.drop d = a :: b :: held →
        (e.layers[l].slot ≠ none → v.clearing = false ∧ ∀ sp, e.cyc.splice = .crossfading sp → v.spl.frames = []) →
        let x := a.toInt + (b.toInt - a.toInt) * e.cyc.frac / 65536
        let short := min 4096 (v.short + 128)
        let sample := sat24 (x * short / 4096)
        ∃ (flag : Bool) (mx : Mixer) (slots : Vector Slot 2),
          let e1 := (put { v with
            rs := .reading, pos := some here, main := { base := here, frames := v.main.frames.drop d },
            dir := if 4096 ≤ v.short + 128 then .steady else .rising, short := short,
            stall := none, starvedCount := none, flag := flag, sample := sample, last := sat24 x }).reports
              (.recovered l (v.starvedCount.getD 0))
          exec (.recovery l) s = .next (s.giving { e1 with mix := mx, slots := slots })
            ∧ rereads slots here (v.main.frames.drop d)
            ∧ mx = { e.mix with computed := mx.computed, sums := mx.sums, clipping := mx.clipping }
            ∧ (e.mix.computed = none → mx = e.mix)
            ∧ ∀ pair, e.mix.computed = some pair →
                let side := fun (sum : Int) (weight : Nat) (y : Sample) =>
                  ∃ r, RoundedTo ((sum + (sample.toInt - v.sample.toInt) * weight) * e.mix.sums.master) 8796093022208 r
                    ∧ y.toInt = max (-8388608) (min 8388607 r)
                ∃ y z, mx.computed = some (y, z) ∧ side e.mix.sums.left e.mix.sums.weights[l].1 y
                  ∧ side e.mix.sums.right e.mix.sums.weights[l].2 z)
      ∧ (v.main.frames.length < d + 2 →
        ∃ slots : Vector Slot 2, rereads slots here []
          ∧ exec (.recovery l) s = .next (s.giving { put { v with
              pos := some here, main := { base := here, frames := [] }, stall := some here, flag := true } with
            slots := slots })))
    ∧ (e.layers[l].state = .stopped → v.rs ≠ .idle → v.clearing = false → v.env = 0 →
      exec (.voiceIdle l) s = .next (s.giving { put Voice.reset with mem := e.mem.without (· == l) }))
    ∧ (v.clearing = true → v.short = 0 ∨ v.env = 0 → e.layers[l].state ≠ .playing →
      e.layers[l].state ≠ .overdubbing → exec (.clearFadeEnd l) s = .next (s.giving (put Voice.reset)))
    ∧ (v.clearing = true → v.short = 0 ∨ v.env = 0 →
      e.layers[l].state = .playing ∨ e.layers[l].state = .overdubbing → (∃ n, e.layers[l].mult = some n) → 0 < len →
      let i := e.position l
      exec (.clearFadeEnd l) s
        = .next (s.giving (put (Voice.reset.primed i (if e.cyc.state = .running then (i + 256) % len else i)))))

/-! ## Ports, pedals and samples -/

/-- On a FRAME of a part that is still a LOCKED port that is not filling gives one frame, repeats its last one
during an underrun, and ends a recovery at the initial fill; every lane forms its sample and raises its peak. While
PORT0 is the clock source no FRAME occurs until a frame of P0 waits; the oldest makes the FRAME, its words becoming the
last frame, a bad one repeating it and lengthening the bad run, also when INTERNAL has been selected since (entry 18).
PORT_FRAME_ARRIVAL and SILENT_PERIOD on a port with nothing due: a DISABLED port ignores them; while the PLL is
UNLOCKED, and at the first marker, nothing is judged; 48 bits make a good frame, counted while SEARCHING and
joining the buffer while LOCKED, or an overrun when that is full and no recovery is in progress; any other number
makes a bad one, and so does a silent period; frames of P0 as the clock source wait for their engine frames (R148
to R153, R156; entries 18, 19, and 58 for a full buffer during an underrun). -/
def Obligations.PortFrames : Prop :=
  (∀ (s : State), s.Still → ∃ t, exec .frame s = .next t
    ∧ (∀ p : PortIx,
      let q := s.eng.ports[p]
      let now := t.eng.ports[p]
      let on : Port := { q with filling := false }
      (q.lock ≠ .locked → now = q)
      ∧ (q.lock = .locked → q.filling = true → q.buf.length < q.fill → now = q)
      ∧ (q.lock = .locked → q.filling = false ∨ q.fill ≤ q.buf.length →
        (∀ w rest, q.recovery = .none → q.buf = w :: rest → now = { on with buf := rest, last := w })
        ∧ (q.recovery = .none → q.buf = [] → now = { on with recovery := .under, slip := 1 })
        ∧ (q.recovery = .under → q.buf.length < q.fill → now = { on with slip := q.slip + 1 })
        ∧ (∀ w rest, q.recovery = .under → q.fill ≤ q.buf.length → q.buf = w :: rest →
          now = { on with buf := rest, last := w, slipEnds := true })
        ∧ (∀ w rest, q.recovery = .over → q.buf = w :: rest →
          now = { on with buf := rest, last := w, slipEnds := decide (rest.length ≤ q.fill) })))
    ∧ ∀ l : LaneIx,
      let x := laneSample t.eng s.eng.lanes[l]
      t.eng.lanes[l] = { s.eng.lanes[l] with
        x := x, peak := max s.eng.lanes[l].peak x.toInt.natAbs, formed := s.eng.lanes[l].source,
        peakBefore := s.eng.lanes[l].peak, taken := [] })
  ∧ (∀ s : State, s.powered = true → s.eng.clk.starting = false → s.eng.clk.pllLocked = true →
    (∀ p : PortIx, (s.eng.ports[p]).calm) →
    let clk := s.eng.clk
    let q := s.eng.ports[(0 : PortIx)]
    (clk.active = .port0 → clk.p0Frames = [] → exec .frame s = .next s)
    ∧ (∀ w more, clk.active = .port0 ∨ (q.lock = .locked ∧ q.filling = true ∧ q.buf.length < q.fill) →
      clk.p0Frames = w :: more →
      ∃ t, exec .frame s = .next t ∧ t.eng.clk = { clk with p0Frames := more, frameOpen := true }
        ∧ (q.lock ≠ .locked → t.eng.ports[(0 : PortIx)] = q)
        ∧ (∀ words, q.lock = .locked → w = some words → t.eng.ports[(0 : PortIx)] = { q with last := words, bad := 0 })
        ∧ (q.lock = .locked → w = none → t.eng.ports[(0 : PortIx)] = { q with bad := q.bad + 1 })))
  ∧ ∀ (s : State) (p : PortIx) (bits : List Bool), s.powered = true → (s.eng.ports[p]).calm →
    let e := s.eng
    let q := e.ports[p]
    let put := fun q : Port => s.giving { e with ports := upd e.ports p fun _ => q }
    let marked := fun q : Port => ({ q with markerSeen := true, frameLsb := q.lsbFirst } : Port)
    let judged := q.lock ≠ .disabled ∧ q.markerSeen = true ∧ e.clk.pllLocked = true
    let plain := ¬(p = 0 ∧ e.clk.active = .port0)
    let side := fun b : List Bool => msbWord (if q.frameLsb then b.reverse else b)
    let w := (side (bits.take 24), side (bits.drop 24))
    (q.lock = .disabled →
      exec (.portFrameArrival p bits) s = .next s ∧ exec (.silentPeriod p) s = .next s)
    ∧ (q.lock ≠ .disabled → q.markerSeen = false ∨ e.clk.pllLocked = false →
      exec (.portFrameArrival p bits) s = .next (put (marked q)))
    ∧ (e.clk.pllLocked = false → exec (.silentPeriod p) s = .next s)
    -- a good frame
    ∧ (judged → bits.length = 48 → q.lock = .searching →
      exec (.portFrameArrival p bits) s = .next (put (marked { q with good := q.good + 1 })))
    ∧ (judged → bits.length = 48 → q.lock = .locked → plain →
      (q.recovery ≠ .over → q.buf.length < 16 →
        exec (.portFrameArrival p bits) s = .next (put (marked { q with bad := 0, buf := q.buf ++ [w] })))
      ∧ (q.recovery = .under → 16 ≤ q.buf.length →
        exec (.portFrameArrival p bits) s = .next (put (marked { q with bad := 0 })))
      ∧ (q.recovery = .none → 16 ≤ q.buf.length →
        exec (.portFrameArrival p bits) s = .next (put (marked { q with bad := 0, recovery := .over, slip := 1 })))
      ∧ (q.recovery = .over →
        exec (.portFrameArrival p bits) s = .next (put (marked { q with bad := 0, slip := q.slip + 1 }))))
    ∧ (judged → bits.length = 48 → q.lock = .locked → ¬plain →
      exec (.portFrameArrival p bits) s = .next (s.giving { e with
        clk := { e.clk with p0Frames := e.clk.p0Frames ++ [some w] },
        ports := upd e.ports p fun _ => marked q }))
    -- a bad frame
    ∧ (judged → bits.length ≠ 48 → q.lock = .searching →
      exec (.portFrameArrival p bits) s = .next (put (marked { q with good := 0 })))
    ∧ (judged → bits.length ≠ 48 → q.lock = .locked → plain →
      exec (.portFrameArrival p bits) s = .next (put (marked { q with bad := q.bad + 1 })))
    ∧ (judged → bits.length ≠ 48 → q.lock = .locked → ¬plain →
      exec (.portFrameArrival p bits) s = .next (s.giving { e with
        clk := { e.clk with p0Frames := e.clk.p0Frames ++ [none] },
        ports := upd e.ports p fun _ => marked q }))
    -- a silent period
    ∧ (e.clk.pllLocked = true → q.lock = .searching → exec (.silentPeriod p) s = .next (put { q with good := 0 }))
    ∧ (e.clk.pllLocked = true → q.lock = .locked → plain →
      exec (.silentPeriod p) s = .next (put { q with bad := q.bad + 1 }))
    ∧ (e.clk.pllLocked = true → q.lock = .locked → ¬plain →
      exec (.silentPeriod p) s
        = .next (s.giving { e with clk := { e.clk with p0Frames := e.clk.p0Frames ++ [none] } }))

/-- LOCK_ACQUIRED after 8 good frames and LOCK_LOST after 4 bad ones, with P0 becoming and ceasing to be the clock
source, whatever lanes have formed their samples from it; a port that loses its lock ends a recovery in progress with SLIP before LANE_LOCK; the lanes that read from it
are silent on the open frame (entry 51), and the frames of P0 that wait make no
engine frame but count in its good run (entry 18); ELASTIC_FILL_DONE at the
initial fill; UNDERRUN_END and OVERRUN_END with SLIP and its count (R146, R149 to R152; entries 3, 35). LANE_LOCK
before CLOCK_SOURCE (entry 32) and the direction codes of SLIP (entry 20) are the model's choice. -/
def Obligations.PortEvents : Prop :=
  ∀ (s : State) (p : PortIx), s.powered = true →
    let e := s.eng
    let q := e.ports[p]
    let put := fun q : Port => ({ e with ports := upd e.ports p fun _ => q } : Engine)
    let locked : Port := { q with lock := .locked, bad := 0, filling := true, buf := [] }
    let adopted : Port :=
      { locked with filling := false, recovery := .none, slip := 0, slipEnds := false }
    let slipped : Port := { q with recovery := .none, slip := 0, slipEnds := false }
    (q.lock = .searching → 8 ≤ q.good → ¬(p = 0 ∧ e.clk.selected = .port0 ∧ e.clk.pllLocked = true) →
      exec (.lockAcquired p) s = .next (s.giving ((put locked).reports (.laneLock p .locked))))
    ∧ (q.lock = .searching → 8 ≤ q.good → p = 0 → e.clk.selected = .port0 → e.clk.pllLocked = true →
      let e1 := (put adopted).reports (.laneLock p .locked)
      let clk : Clock := { e.clk with active := .port0 }
      exec (.lockAcquired p) s
        = .next (s.giving (({ e1 with clk := clk } : Engine).reports (.clockSource .port0 .lock))))
    ∧ (q.lock = .locked → 4 ≤ q.bad → ∃ t, exec (.lockLost p) s = .next t ∧ t.eng.silent e p)
    ∧ (q.lock = .locked → 4 ≤ q.bad → e.unheard p → ¬(p = 0 ∧ e.clk.active = .port0) →
      (p = 0 → e.clk.p0Frames = []) →
      let e1 := (put (q.drained .searching)).slipEnded p q
      exec (.lockLost p) s = .next (s.giving (e1.reports (.laneLock p .searching))))
    ∧ (q.lock = .locked → 4 ≤ q.bad → e.unheard p → p = 0 → e.clk.active = .port0 →
      e.clk.p0Frames = [] →
      let e1 := ((put (q.drained .searching)).slipEnded p q).reports (.laneLock p .searching)
      exec (.lockLost p) s = .next (s.giving e1.fallenBack))
    ∧ (∀ (before : List (Option (Sample × Sample))) (good : List (Sample × Sample)), q.lock = .locked → 4 ≤ q.bad →
      p = 0 → before = [] ∨ before.getLast? = some none → e.clk.p0Frames = before ++ good.map some →
      ∃ t, exec (.lockLost p) s = .next t ∧ t.eng.clk.p0Frames = []
        ∧ t.eng.ports[p] = { q.drained .searching with good := min 8 good.length })
    ∧ (∀ (before : List (Option (Sample × Sample))) (good : List (Sample × Sample)), q.lock = .locked → 4 ≤ q.bad →
      before = [] ∨ before.getLast? = some none →
      (if p = 0 then e.clk.p0Frames else []) = before ++ good.map some →
      ∃ quiet : Engine, quiet.silences ((put (q.drained .searching)).slipEnded p q) p ∧
      let told := quiet.reports (.laneLock p .searching)
      let out := if p = 0 ∧ e.clk.active = .port0 then told.fallenBack else told.unawaited p
      let ports := upd out.ports p fun q => { q with good := min 8 good.length }
      exec (.lockLost p) s = .next (s.giving { out with ports := ports }))
    ∧ (q.lock = .locked → q.filling = true → q.fill ≤ q.buf.length →
      exec (.elasticFillDone p) s = .next (s.giving (put { q with filling := false })))
    ∧ (q.slipEnds = true → q.recovery = .under →
      exec (.underrunEnd p) s = .next (s.giving ((put slipped).reports (.slip p .under q.slip))))
    ∧ (q.slipEnds = true → q.recovery = .over →
      exec (.overrunEnd p) s = .next (s.giving ((put slipped).reports (.slip p .over q.slip))))

/-- SAMPLING_EVENT: unheld, each channel takes its raw value and a smoothed value by its seed or by a quarter of
the way, and clears its seed, which reset and a release of the sampler set; an entry of the map whose position
has left the deadband writes its target; held, nothing is converted (R159, R160, R164, R165). -/
def Obligations.SamplingEvent : Prop :=
  (∀ s : State, ∃ t, exec .powerOn s = .next t ∧ ∀ i : PedalIx, t.eng.ped.chan[i].seed = true)
    ∧ (∀ (s : State) (m : Message) (rest : List Message), s.Takes 31 m [] rest →
        ∃ t, exec .engineReset s = .next t ∧ ∀ i : PedalIx, t.eng.ped.chan[i].seed = true)
    ∧ (∀ (s : State) (m : Message) (rest : List Message), s.Takes 30 m [5] rest → s.eng.ped.held = true →
        ∃ t, exec .blockRelease s = .next t ∧ ∀ i : PedalIx, t.eng.ped.chan[i].seed = true)
    ∧ ∀ (s : State) (v0 v1 v2 v3 : BitVec 10), s.powered = true → s.eng.ped.due = true →
        let pins := #v[v0, v1, v2, v3]
        let run := exec (.samplingEvent v0 v1 v2 v3) s
        (s.eng.ped.held = true →
          run = .next (s.giving { s.eng with ped := { s.eng.ped with due := false, pins := pins } }))
        ∧ (s.eng.ped.held = false → ∃ t, run = .next t
          ∧ ∀ i : PedalIx,
            let old := s.eng.ped.chan[i]
            let v := pins[i].toNat
            t.eng.ped.chan[i].raw = v ∧ t.eng.ped.chan[i].seed = false
              ∧ (old.seed = true → t.eng.ped.chan[i].smooth = v)
              ∧ (old.seed = false → (t.eng.ped.chan[i].smooth : Int) = old.smooth + ((v : Int) - old.smooth) / 4))
        ∧ (s.eng.ped.held = false → (∀ j : MapIx, s.eng.ped.map[j] = none) → ∃ t, run = .next t
          ∧ t = s.giving { s.eng with ped := { s.eng.ped with due := false, pins := pins, chan := t.eng.ped.chan } })
        ∧ (s.eng.ped.held = false → ∀ (i : MapIx) (mp : Mapping), s.eng.ped.map[i] = some mp →
          (∀ j, j ≠ i → s.eng.ped.map[j] = none) → mp.low ≤ mp.target.top → mp.high ≤ mp.target.top →
          ∃ t, run = .next t ∧
            let v := t.eng.ped.chan[mp.channel].smooth
            let moved := ∀ a, mp.applied = some a → mp.deadband < ((v : Int) - a).natAbs
            (moved → v ≤ 1023 →
              (targetValue t.eng mp.target : Int) = mp.low + ((mp.high : Int) - mp.low) * v / 1023
              ∧ targetValue t.eng mp.target ≤ mp.target.top
              ∧ t.eng.ped.map[i] = some { mp with applied := some v })
            ∧ (¬moved → targetValue t.eng mp.target = targetValue s.eng mp.target ∧ t.eng.ped.map[i] = some mp)
            ∧ ∀ other, other ≠ mp.target → targetValue t.eng other = targetValue s.eng other)

/-- The value an overdub writes at a position: old x feedback + x x level over 32,768, formed exactly, rounded
once to nearest with halves away from zero and then clamped, under the layer's level and feedback of the frame;
every sample lies in the 24-bit range (R96). -/
def Obligations.OverdubValue : Prop :=
  (∀ (e : Engine) (l : LayerIx) (x : Sample) (pos : Nat) (again : Bool),
    let r := e.layers[l]
    let old := storedSample e l pos
    let sum := old.toInt * r.feedback + x.toInt * r.level
    ∃ rounded : Int, RoundedTo sum 32768 rounded
      ∧ (overdubWrite e l x pos again).value.toInt = max (-8388608) (min 8388607 rounded))
    ∧ (∀ e : Engine, e.inRange = true → ∀ l : LayerIx, e.layers[l].level ≤ 32768 ∧ e.layers[l].feedback ≤ 32768)
    ∧ ∀ w : Sample, -8388608 ≤ w.toInt ∧ w.toInt ≤ 8388607

/-- The sample of a lane and the pair of the mixer. A lane of a LOCKED port that is not filling, nor losing its
lock on the frame, gives its channel value, inverted when asked, times the trim over 4,096; any other gives 0. The
pair is the exact sum over voices and lanes of sample x gain x pan weight x envelope, times the master gain,
rounded once over 2^43 and saturated (R137, R138, R156). -/
def Obligations.LaneAndMixSamples : Prop :=
  (∀ (e : Engine) (ln : Lane),
    ((ln.source = none ∨ ∃ p, ln.source = some p ∧ (e.ports[p].lock ≠ .locked ∨ 4 ≤ e.ports[p].bad ∨ e.ports[p].filling = true)) →
      laneSample e ln = 0)
    ∧ ∀ p, ln.source = some p → e.ports[p].lock = .locked → e.ports[p].bad < 4 → e.ports[p].filling = false →
        let lr := e.ports[p].last
        let chan : Int := match ln.channel with
          | .left => lr.1.toInt
          | .right => lr.2.toInt
          | .sum => (lr.1.toInt + lr.2.toInt) / 2
        let value := if ln.invert then min 8388607 (-chan) else chan
        ∃ rounded, RoundedTo (value * ln.trim) 4096 rounded
          ∧ (laneSample e ln).toInt = max (-8388608) (min 8388607 rounded))
    ∧ ∀ e : Engine,
        let env := fun (v : Live) =>
          let step := (4096 + e.mix.fade - 1) / e.mix.fade
          if v.env < v.target then min v.target (v.env + step) else max v.target (v.env - step)
        let sum := fun weight : Nat → Nat =>
          (∑ l : LayerIx, e.voices[l].sample.toInt * e.layers[l].gain * weight e.layers[l].pan * e.voices[l].env)
            + ∑ l : LaneIx, e.lanes[l].x.toInt * e.mix.live[l].gain * weight e.mix.live[l].pan * env e.mix.live[l]
        ∃ left right a b, (mixFrame e).mix.computed = some (a, b)
          ∧ RoundedTo (sum (fun pan => min 128 (2 * (128 - pan))) * e.mix.master) 8796093022208 left
          ∧ RoundedTo (sum (fun pan => min 128 (2 * pan)) * e.mix.master) 8796093022208 right
          ∧ a.toInt = max (-8388608) (min 8388607 left) ∧ b.toInt = max (-8388608) (min 8388607 right)
end

