-- ==== Sys2Proof/Laws/Arbiter.lean ====
section
/-! SUPPORT. What the memory arbiter can do (R118 to R123): which requests stand, and that the grant it makes is served
before all others. -/

namespace Sys2Proof.Machine

/-- A position modulo a length, also where there is none. -/
theorem wrapAt_eq (len x : Nat) : wrapAt len x = x % len := by
  unfold wrapAt
  split
  · simp [*]
  · rfl

theorem layerLen_eq (e : Engine) (l : LayerIx) : layerLen e l = e.len l := rfl

/-- The positions of one source are counted up to the first of another (R95, R120). -/
theorem spanLen_cuts (e : Engine) (l : LayerIx) (src : Option Nat) (n pos : Nat) (hp : pos % e.len l = pos) (m : Nat) :
    spanLen e l src n pos = m ↔ e.cutsAt l src pos n m := by
  induction n generalizing pos m with
  | zero => 
    simp only [spanLen, Engine.cutsAt]
    constructor
    · rintro rfl; simp
    · rintro ⟨h, -, -⟩; omega
  | succ n ih =>
    have hs : ∀ i, ((pos + 1) % e.len l + i) % e.len l = (pos + (i + 1)) % e.len l := by
      intro i; rw [Nat.mod_add_mod]; congr 1; omega
    simp only [spanLen, wrapAt_eq, layerLen_eq]
    split
    · rename_i h0
      cases m with
      | zero =>
        constructor
        · intro h; omega
        · rintro ⟨-, -, h⟩; exact absurd (by simpa [hp] using h0) (h (Nat.succ_pos _))
      | succ m =>
        have := ih ((pos + 1) % e.len l) (Nat.mod_mod _ _) m
        rw [show (1 + spanLen e l src n ((pos + 1) % e.len l) = m + 1)
          ↔ spanLen e l src n ((pos + 1) % e.len l) = m by omega, this]
        simp only [Engine.cutsAt, hs, Nat.add_le_add_iff_right, Nat.add_lt_add_iff_right]
        constructor
        · rintro ⟨a, b, c⟩
          refine ⟨a, fun i hi => ?_, c⟩
          cases i with
          | zero => simpa [hp] using h0
          | succ i => exact b i (by omega)
        · rintro ⟨a, b, c⟩
          exact ⟨a, fun i hi => b (i + 1) (by omega), c⟩
    · rename_i h0
      constructor
      · rintro rfl
        exact ⟨by omega, fun i hi => absurd hi (by omega), fun _ => by simpa [hp] using h0⟩
      · rintro ⟨-, b, -⟩
        cases m with
        | zero => rfl
        | succ m => exact absurd (by simpa [hp] using b 0 (by omega)) h0

/-! ## The requests that stand (R121 to R123) -/

/-- The rank of what a request asks for (R119). -/
def Engine.rankOf (e : Engine) (g : Grant) : Rank := ⟨g.cls, e.requestLevel g.who, g.who.number⟩

theorem newGrant_iff (g : Grant) (who : Requester) (cls : Nat) (l : LayerIx) (key : Nat) (write : Bool) (first n : Nat) :
    g = newGrant who cls l key write first n ↔ g.who = who ∧ g.left = (g.count + 31) / 32 ∧ g.cancelled = false ∧
      g.cls = cls ∧ g.layer = l ∧ g.key = key ∧ g.write = write ∧ g.first = first ∧ g.count = n := by
  constructor
  · rintro rfl; simp [newGrant, ceilDiv]
  · obtain ⟨w, c, l, k, wr, f, n, lf, cn⟩ := g
    rintro ⟨rfl, h, rfl, rfl, rfl, rfl, rfl, rfl, rfl⟩
    simp only at h
    simp [newGrant, ceilDiv, h]

/-- A voice may ask unless it is IDLE, in its clear fade or held back by a ZERO_FILL, once its flag is set. -/
theorem voiceAsks_iff (e : Engine) (l : LayerIx) :
    voiceAsks e l = true ↔ e.voices[l].flag = true ∧ e.voices[l].rs ≠ .idle ∧ e.voices[l].clearing = false
      ∧ ¬e.holdsBack l := by
  unfold voiceAsks Engine.holdsBack
  generalize e.voices[l] = v
  simp [zeroFilling, and_assoc]
  tauto

/-- A voice may ask for frames of a splice stream while the splice fetches with it. -/
theorem spliceAsks_iff (e : Engine) (l : LayerIx) :
    spliceAsks e l = true ↔ e.voices[l].clearing = false ∧ ¬e.holdsBack l ∧ ∃ r, e.cyc.splice = .fetching r ∧ l ∈ r.voices
      ∧ ((heldStream e l).frames.length < r.x ∨ (heldStream e l).frames.length ≤ 224) := by
  unfold spliceAsks
  cases h : e.cyc.splice with
  | fetching r =>
    unfold Engine.holdsBack
    generalize e.voices[l] = v
    simp [zeroFilling, and_assoc]
    tauto
  | _ => simp

/-- The one request a rank and a grant make. -/
theorem mem_one (r a : Rank) (g b : Grant) : (r, g) ∈ [(a, b)] ↔ g = b ∧ r = a := by
  simp [and_comm]

/-- A slot's drain request (R102, R123). -/
theorem slotRequest_iff (e : Engine) (i : SlotIx) (r : Rank) (g : Grant) :
    (r, g) ∈ slotRequest e i ↔ g.who = .slot i ∧ e.asks g ∧ r = e.rankOf g := by
  by_cases hw : g.who = .slot i
  · simp only [hw, Engine.asks, Engine.asksDrain, Engine.rankOf, Engine.requestLevel, Requester.number, true_and, slotRequest, drainClass]
    generalize e.slots[i] = sl
    cases hs : sl.staging with
    | nil => simp
    | cons en more =>
      cases hr : headRun e sl with
      | nil => simp
      | cons q rest =>
        obtain ⟨q, x⟩ := q
        dsimp only
        by_cases h1 : 768 ≤ stagingLevel sl
        · simp only [h1, if_true, Nat.one_ne_zero, if_false, mem_one, newGrant_iff, hw, Nat.not_lt.2 h1]
          constructor
          · rintro ⟨⟨-, a, b, c, d, f, h, k, n⟩, rfl⟩
            exact ⟨⟨a, b, ⟨en, more, rfl, d, f⟩, congrArg some k.symm, n, h, .inl ⟨c, trivial⟩⟩, by rw [c]⟩
          · rintro ⟨⟨a, b, ⟨_, _, hen, d, f⟩, k, n, h, ⟨c, -⟩ | ⟨-, hf, -⟩⟩, rfl⟩
            · cases hen; exact ⟨⟨trivial, a, b, c, d, f, h, (Option.some.inj k).symm, n⟩, by rw [c]⟩
            · exact hf.elim
        · by_cases h2 : 256 ≤ stagingLevel sl ∨ headEnded e sl = true
          · simp only [h1, h2, if_true, OfNat.ofNat_ne_zero, if_false, mem_one, newGrant_iff, hw, Nat.not_le.1 h1]
            constructor
            · rintro ⟨⟨-, a, b, c, d, f, h, k, n⟩, rfl⟩
              exact ⟨⟨a, b, ⟨en, more, rfl, d, f⟩, congrArg some k.symm, n, h, .inr ⟨c, trivial, trivial⟩⟩, by rw [c]⟩
            · rintro ⟨⟨a, b, ⟨_, _, hen, d, f⟩, k, n, h, ⟨-, hf⟩ | ⟨c, -⟩⟩, rfl⟩
              · exact hf.elim
              · cases hen; exact ⟨⟨trivial, a, b, c, d, f, h, (Option.some.inj k).symm, n⟩, by rw [c]⟩
          · simp only [h1, h2, if_true, if_false, List.not_mem_nil, and_false, or_self, false_and]
  · simp only [hw, false_and, iff_false]
    unfold slotRequest
    dsimp only
    split
    · split
      · simp
      · rw [mem_one, newGrant_iff]; exact fun h => hw h.1.1
    · simp

/-- The request for what follows a run of frames held: whom it is for, and the frames up to another source (R120). -/
theorem readRequest_iff (e : Engine) (who : Requester) (cls level wanted : Nat) (l : LayerIx) (held : Run) (r : Rank)
    (g : Grant) :
    (r, g) ∈ readRequest e who cls level wanted l held ↔ g.who = who ∧ g.left = (g.count + 31) / 32 ∧ g.cancelled = false
      ∧ g.cls = cls ∧ g.layer = l ∧ g.write = false ∧ g.first = (held.base + held.frames.length) % e.len l
      ∧ e.cutsAt l (some g.key) g.first wanted g.count ∧ 0 < g.count ∧ r = ⟨cls, level, l.val⟩ := by
  have hp : runNext (layerLen e l) held = (held.base + held.frames.length) % e.len l := by
    rw [runNext, wrapAt_eq, layerLen_eq]
  have hm := Nat.mod_mod (held.base + held.frames.length) (e.len l)
  simp only [readRequest, hp]
  generalize (held.base + held.frames.length) % e.len l = pos at hm
  have hkey : ∀ k n, e.cutsAt l (some k) pos wanted n → 0 < n → readSource e l pos = some k := by
    intro k n hs hn
    have := hs.2.1 0 hn
    rwa [Nat.add_zero, hm] at this
  cases hk : readSource e l pos with
  | none =>
    simp only [List.not_mem_nil, false_iff]
    rintro ⟨-, -, -, -, -, -, rfl, hs, hn, -⟩
    exact nomatch hk.symm.trans (hkey _ _ hs hn)
  | some key =>
    have hcut := fun k n => spanLen_cuts e l (some k) wanted pos hm n
    dsimp only
    constructor
    · intro h
      split at h
      · simp at h
      · rw [mem_one, newGrant_iff] at h
        obtain ⟨⟨a, b, c, d, f, rfl, h, rfl, n⟩, rfl⟩ := h
        exact ⟨a, b, c, d, f, h, rfl, (hcut _ _).1 n.symm, by omega, rfl⟩
    · rintro ⟨a, b, c, d, f, h, rfl, hs, hn, rfl⟩
      cases Option.some.inj (hk.symm.trans (hkey _ _ hs hn))
      have hspan := (hcut _ _).2 hs
      rw [if_neg (by omega), mem_one, newGrant_iff]
      exact ⟨⟨a, b, c, d, f, rfl, h, rfl, hspan.symm⟩, rfl⟩

/-- A voice's refill request (R121). -/
theorem voiceRequest_iff (e : Engine) (l : LayerIx) (r : Rank) (g : Grant) :
    (r, g) ∈ voiceRequest e l ↔ g.who = .voice l ∧ e.asks g ∧ r = e.rankOf g := by
  have hv := voiceAsks_iff e l
  unfold voiceRequest
  by_cases h : voiceAsks e l = true
  · obtain ⟨h1, h2, h3, h4⟩ := hv.1 h
    rw [if_pos h, readRequest_iff]
    constructor
    · rintro ⟨hw, a, b, c, d, f, p, s, n, rfl⟩
      simp only [hw, Engine.asks, Engine.asksRefill, Engine.rankOf, Requester.number]
      exact ⟨trivial, ⟨a, b, d, f, h1, h2, h3, h4, p, s, n, c⟩, by rw [c]; rfl⟩
    · rintro ⟨hw, ha, rfl⟩
      simp only [hw, Engine.asks, Engine.asksRefill] at ha
      obtain ⟨a, b, d, f, -, -, -, -, p, s, n, c⟩ := ha
      simp only [Engine.rankOf, hw, Requester.number]
      exact ⟨trivial, a, b, c, d, f, p, s, n, by rw [c]; rfl⟩
  · rw [if_neg h]
    simp only [List.not_mem_nil, false_iff]
    rintro ⟨hw, ha, -⟩
    simp only [hw, Engine.asks, Engine.asksRefill] at ha
    exact h (hv.2 ⟨ha.2.2.2.2.1, ha.2.2.2.2.2.1, ha.2.2.2.2.2.2.1, ha.2.2.2.2.2.2.2.1⟩)

/-- A request for frames of a splice stream (R122). -/
theorem spliceRequest_iff (e : Engine) (l : LayerIx) (r : Rank) (g : Grant) :
    (r, g) ∈ spliceRequest e l ↔ g.who = .splice l ∧ e.asks g ∧ r = e.rankOf g := by
  have hv := spliceAsks_iff e l
  unfold spliceRequest
  by_cases h : spliceAsks e l = true
  · obtain ⟨h1, h2, h3⟩ := hv.1 h
    rw [if_pos h, readRequest_iff]
    constructor
    · rintro ⟨hw, a, b, c, d, f, p, s, n, rfl⟩
      simp only [hw, Engine.asks, Engine.asksFill, Engine.rankOf, Requester.number]
      exact ⟨trivial, ⟨a, b, d, f, h1, h2, h3, p, s, n, c⟩, by rw [c]; rfl⟩
    · rintro ⟨hw, ha, rfl⟩
      simp only [hw, Engine.asks, Engine.asksFill] at ha
      obtain ⟨a, b, d, f, -, -, -, p, s, n, c⟩ := ha
      simp only [Engine.rankOf, hw, Requester.number]
      exact ⟨trivial, a, b, c, d, f, p, s, n, by rw [c]; rfl⟩
  · rw [if_neg h]
    simp only [List.not_mem_nil, false_iff]
    rintro ⟨hw, ha, -⟩
    simp only [hw, Engine.asks, Engine.asksFill] at ha
    exact h (hv.2 ⟨ha.2.2.2.2.1, ha.2.2.2.2.2.1, ha.2.2.2.2.2.2.1⟩)

/-- The first page of a chain, by its head. -/
theorem chainKey_eq (chain : Option (List Nat)) : chainKey chain = chain.bind List.head? := by
  rcases chain with - | (_ | _) <;> rfl

/-- A transfer's request (R123). -/
theorem transferRequest_iff (e : Engine) (r : Rank) (g : Grant) :
    (r, g) ∈ transferRequest e ↔ g.who = .transfer ∧ e.asks g ∧ r = e.rankOf g := by
  unfold transferRequest
  by_cases hw : g.who = .transfer
  · simp only [hw, Engine.asks, Engine.asksTransfer, Engine.rankOf, Engine.requestLevel, Requester.number, true_and]
    cases hx : e.xfer with
    | none => simp
    | some t =>
      dsimp only
      rw [chainKey_eq]
      cases hk : e.layers[t.layer].cur.bind List.head? with
      | none =>
        simp only [List.not_mem_nil, false_iff]
        rintro ⟨⟨-, -, _, h, -, hk', -⟩, -⟩
        cases h
        exact nomatch hk.symm.trans hk'
      | some key =>
        rw [mem_one, newGrant_iff]
        constructor
        · rintro ⟨⟨-, a, b, c, d, rfl, f, p, n⟩, rfl⟩
          exact ⟨⟨a, b, t, rfl, d, hk, f, p, n, c⟩, by rw [c]⟩
        · rintro ⟨⟨a, b, _, h, d, hk', f, p, n, c⟩, rfl⟩
          cases h
          cases Option.some.inj (hk.symm.trans hk')
          exact ⟨⟨hw, a, b, c, d, rfl, f, p, n⟩, by rw [c]⟩
  · simp only [hw, false_and, iff_false]
    split
    · split
      · rw [mem_one, newGrant_iff]; tauto
      · simp
    · simp

/-- The page filler's request (R115, R116, R123). -/
theorem fillerRequest_iff (e : Engine) (r : Rank) (g : Grant) :
    (r, g) ∈ fillerRequest e ↔ g.who = .filler ∧ e.asks g ∧ r = e.rankOf g := by
  unfold fillerRequest
  by_cases hw : g.who = .filler
  · simp only [hw, Engine.asks, Engine.asksFiller, Engine.rankOf, Engine.requestLevel, Requester.number, true_and]
    cases hj : e.mem.jobs with
    | nil => simp
    | cons j more =>
      obtain ⟨jl, jk, kind, dn⟩ := j
      dsimp only
      cases jk with
      | none =>
        constructor
        · intro h; split at h <;> simp at *
        · rintro ⟨⟨-, -, _, _, _, h, hk, -⟩, -⟩
          cases h; cases hk
      | some new =>
        cases kind with
        | zeroFill =>
          dsimp only
          rw [mem_one, newGrant_iff]
          constructor
          · rintro ⟨⟨-, a, b, c, d, k, f, p, n⟩, rfl⟩
            exact ⟨⟨a, b, _, _, _, rfl, rfl, d, c, k, f, p, n⟩, by rw [c]⟩
          · rintro ⟨⟨a, b, _, _, _, h, hk, d, c, hrest⟩, rfl⟩
            cases h; cases hk
            obtain ⟨k, f, p, n⟩ := hrest
            exact ⟨⟨hw, a, b, c, d, k, f, p, n⟩, by rw [c]⟩
        | finishCopy =>
          cases hwr : e.layers[jl].written with
          | none =>
            simp only [List.not_mem_nil, false_iff]
            rintro ⟨⟨-, -, _, _, _, h, hk, -, -, hrest⟩, -⟩
            cases h; cases hk
            obtain ⟨_, _, hh, -⟩ := hrest
            exact nomatch hwr.symm.trans hh
          | some aw =>
            obtain ⟨x, w⟩ := aw
            simp only [chainKey_eq, wrapAt_eq, layerLen_eq]
            cases hu : e.layers[jl].undo.bind List.head? with
            | none =>
              dsimp only
              rw [mem_one, newGrant_iff]
              constructor
              · rintro ⟨⟨-, a, b, c, d, k, f, p, n⟩, rfl⟩
                refine ⟨⟨a, b, _, _, _, rfl, rfl, d, c, ?_⟩, by rw [c]⟩
                exact ⟨x, w, hwr, p, by simp only [hu]; exact ⟨k, f, by rw [n, p]⟩⟩
              · rintro ⟨⟨a, b, _, _, _, h, hk, d, c, hrest⟩, rfl⟩
                cases h; cases hk
                obtain ⟨_, _, hh, p, hrest⟩ := hrest
                cases hwr.symm.trans hh
                simp only [hu] at hrest
                exact ⟨⟨hw, a, b, c, d, hrest.1, hrest.2.1, p, by rw [hrest.2.2, p]⟩, by rw [c]⟩
            | some old =>
              dsimp only
              by_cases he : e.mem.work = []
              · simp only [he, List.isEmpty_nil, if_true]
                rw [mem_one, newGrant_iff]
                constructor
                · rintro ⟨⟨-, a, b, c, d, k, f, p, n⟩, rfl⟩
                  refine ⟨⟨a, b, _, _, _, rfl, rfl, d, c, ?_⟩, by rw [c]⟩
                  exact ⟨x, w, hwr, p, by simp only [hu]; exact ⟨k, f, by rw [n, p]⟩⟩
                · rintro ⟨⟨a, b, _, _, _, h, hk, d, c, hrest⟩, rfl⟩
                  cases h; cases hk
                  obtain ⟨_, _, hh, p, hrest⟩ := hrest
                  cases hwr.symm.trans hh
                  simp only [hu] at hrest
                  exact ⟨⟨hw, a, b, c, d, hrest.1, hrest.2.1, p, by rw [hrest.2.2, p]⟩, by rw [c]⟩
              · simp only [List.isEmpty_iff, he, if_false]
                rw [mem_one, newGrant_iff]
                constructor
                · rintro ⟨⟨-, a, b, c, d, k, f, p, n⟩, rfl⟩
                  refine ⟨⟨a, b, _, _, _, rfl, rfl, d, c, ?_⟩, by rw [c]⟩
                  exact ⟨x, w, hwr, p, by simp only [hu]; exact ⟨k, f, n⟩⟩
                · rintro ⟨⟨a, b, _, _, _, h, hk, d, c, hrest⟩, rfl⟩
                  cases h; cases hk
                  obtain ⟨_, _, hh, p, hrest⟩ := hrest
                  cases hwr.symm.trans hh
                  simp only [hu] at hrest
                  exact ⟨⟨hw, a, b, c, d, hrest.1, hrest.2.1, p, hrest.2.2⟩, by rw [c]⟩
  · simp only [hw, false_and, iff_false]
    split
    · simp
    · split
      · split
        · split <;> rw [mem_one, newGrant_iff] <;> tauto
        · rw [mem_one, newGrant_iff]; tauto
      · rw [mem_one, newGrant_iff]; tauto
      · simp

/-- The requests that stand, with their ranks (R118). -/
theorem requests_iff (e : Engine) (r : Rank) (g : Grant) : (r, g) ∈ requests e ↔ e.asks g ∧ r = e.rankOf g := by
  have hs : ∀ i : SlotIx, i ∈ slotIxs := by decide
  have hl : ∀ l : LayerIx, l ∈ layerIxs := by decide
  simp only [requests, List.mem_append, List.mem_flatMap, slotRequest_iff, voiceRequest_iff, spliceRequest_iff,
    transferRequest_iff, fillerRequest_iff]
  constructor
  · rintro ((((⟨_, -, -, h⟩ | ⟨_, -, -, h⟩) | ⟨_, -, -, h⟩) | ⟨-, h⟩) | ⟨-, h⟩) <;> exact h
  · intro h
    cases hw : g.who with
    | slot i => exact .inl (.inl (.inl (.inl ⟨i, hs i, rfl, h⟩)))
    | voice l => exact .inl (.inl (.inl (.inr ⟨l, hl l, rfl, h⟩)))
    | splice l => exact .inl (.inl (.inr ⟨l, hl l, rfl, h⟩))
    | transfer => exact .inl (.inr ⟨rfl, h⟩)
    | filler => exact .inr ⟨rfl, h⟩

/-! ## The choice (R119) -/

/-- Ranks are ordered one after another. -/
theorem Rank.before_trans {a b c : Rank} (h : a.before b = true) (g : b.before c = true) : a.before c = true := by
  simp only [Rank.before, decide_eq_true_eq] at *
  omega

theorem Rank.not_before {a b : Rank} (h : a.before b = false) : a = b ∨ b.before a = true := by
  obtain ⟨a1, a2, a3⟩ := a
  obtain ⟨b1, b2, b3⟩ := b
  simp only [Rank.before, decide_eq_true_eq, decide_eq_false_iff_not, Rank.mk.injEq] at *
  omega

/-- None is served when no request stands, and only then. -/
theorem lowest_none {list : List (Rank × Grant)} (h : lowest list = none) : list = [] := by
  cases list with
  | nil => rfl
  | cons c more =>
    simp only [lowest] at h
    split at h
    · split at h <;> simp at h
    · simp at h

/-- One of the requests is served first, and none stands before it. -/
theorem lowest_some {list : List (Rank × Grant)} {b : Rank × Grant} (h : lowest list = some b) :
    b ∈ list ∧ ∀ r ∈ list, r.1 = b.1 ∨ b.1.before r.1 = true := by
  induction list generalizing b with
  | nil => simp [lowest] at h
  | cons a rest ih =>
    simp only [lowest] at h
    split at h
    · rename_i c hc
      obtain ⟨hb, hmin⟩ := ih hc
      split at h <;> cases h
      · rename_i hlt
        refine ⟨List.mem_cons_of_mem _ hb, fun r hr => ?_⟩
        rcases List.mem_cons.1 hr with rfl | hr
        · exact .inr hlt
        · exact hmin r hr
      · rename_i hge
        refine ⟨List.mem_cons_self, fun r hr => ?_⟩
        rcases List.mem_cons.1 hr with rfl | hr
        · exact .inl rfl
        · rcases Rank.not_before (Bool.not_eq_true _ ▸ hge) with hab | hab <;> rcases hmin r hr with hr | hr
          · exact .inl (hr.trans hab)
          · exact .inr (hab ▸ hr)
          · exact .inr (hr ▸ hab)
          · exact .inr (Rank.before_trans hab hr)
    · rename_i hn
      cases h
      simp [lowest_none hn]

/-- A requester has at most one request (R118). -/
theorem readRequest_one (e : Engine) (who : Requester) (cls level wanted : Nat) (l : LayerIx) (held : Run) :
    (readRequest e who cls level wanted l held).length ≤ 1 := by
  simp only [readRequest]
  split
  · split <;> simp
  · simp

/-- Two requests of one requester are one. -/
theorem asks_who {e : Engine} {a b : Grant} (ha : e.asks a) (hb : e.asks b) (h : a.who = b.who) : a = b := by
  have one : ∀ list : List (Rank × Grant), list.length ≤ 1 → (e.rankOf a, a) ∈ list → (e.rankOf b, b) ∈ list → a = b := by
    intro list hl h1 h2
    match list, hl with
    | [], _ => simp at h1
    | [x], _ => exact (Prod.mk.inj ((List.mem_singleton.1 h1).trans (List.mem_singleton.1 h2).symm)).2
  cases hw : a.who with
  | slot i =>
    refine one (slotRequest e i) ?_ ((slotRequest_iff ..).2 ⟨hw, ha, rfl⟩) ((slotRequest_iff ..).2 ⟨h ▸ hw, hb, rfl⟩)
    unfold slotRequest
    dsimp only
    (repeat' split) <;> first | exact Nat.le_refl 1 | exact Nat.zero_le 1
  | voice l =>
    refine one (voiceRequest e l) ?_ ((voiceRequest_iff ..).2 ⟨hw, ha, rfl⟩) ((voiceRequest_iff ..).2 ⟨h ▸ hw, hb, rfl⟩)
    unfold voiceRequest
    split
    · exact readRequest_one ..
    · simp
  | splice l =>
    refine one (spliceRequest e l) ?_ ((spliceRequest_iff ..).2 ⟨hw, ha, rfl⟩) ((spliceRequest_iff ..).2 ⟨h ▸ hw, hb, rfl⟩)
    unfold spliceRequest
    split
    · exact readRequest_one ..
    · simp
  | transfer =>
    refine one (transferRequest e) ?_ ((transferRequest_iff ..).2 ⟨hw, ha, rfl⟩)
      ((transferRequest_iff ..).2 ⟨h ▸ hw, hb, rfl⟩)
    unfold transferRequest
    split
    · split <;> simp
    · simp
  | filler =>
    refine one (fillerRequest e) ?_ ((fillerRequest_iff ..).2 ⟨hw, ha, rfl⟩) ((fillerRequest_iff ..).2 ⟨h ▸ hw, hb, rfl⟩)
    unfold fillerRequest
    (repeat' first | split | dsimp only) <;> first | exact Nat.le_refl 1 | exact Nat.zero_le 1

/-- Two requests of one rank are one request: the classes keep the kinds of requester apart, the number those of one kind. -/
theorem asks_unique {e : Engine} {a b : Grant} (ha : e.asks a) (hb : e.asks b) (h : e.rankOf a = e.rankOf b) : a = b := by
  refine asks_who ha hb ?_
  simp only [Engine.rankOf, Rank.mk.injEq] at h
  obtain ⟨hc, -, hn⟩ := h
  have cls : ∀ g : Grant, e.asks g → match g.who with
      | .slot _ => g.cls = 1 ∨ g.cls = 4
      | .voice _ => g.cls = 2 ∨ g.cls = 5
      | .splice _ => g.cls = 3
      | .transfer => g.cls = 6
      | .filler => g.cls = 7 := by
    rintro g ⟨-, -, hg⟩
    cases hw : g.who <;> simp only [hw] at hg ⊢
    · obtain ⟨-, -, -, -, ⟨h, -⟩ | ⟨h, -⟩⟩ := hg <;> simp [h]
    · obtain ⟨-, -, -, -, -, -, -, -, -, h⟩ := hg
      split at h <;> simp [h]
    · exact hg.2.2.2.2.2.2.2.2
    · obtain ⟨_, -, -, -, -, -, -, h⟩ := hg; exact h
    · obtain ⟨_, _, _, -, -, -, h, -⟩ := hg; exact h
  have h1 := cls a ha
  have h2 := cls b hb
  cases hwa : a.who <;> cases hwb : b.who <;> simp only [hwa, hwb, Requester.number] at h1 h2 hn ⊢ <;>
    first | (exact congrArg _ (Fin.ext hn)) | rfl | omega

/-- The arbiter makes the grant that is served before all others (R118, R119). -/
theorem lowest_picks (e : Engine) : e.picks ((lowest (requests e)).map (·.2)) := by
  cases h : lowest (requests e) with
  | none =>
    intro g hg
    have := (requests_iff e _ g).2 ⟨hg, rfl⟩
    rw [lowest_none h] at this
    simp at this
  | some b =>
    obtain ⟨r, g⟩ := b
    obtain ⟨hb, hmin⟩ := lowest_some h
    obtain ⟨hg, rfl⟩ := (requests_iff ..).1 hb
    refine ⟨hg, fun g' hg' hne => ?_⟩
    rcases hmin _ ((requests_iff ..).2 ⟨hg', rfl⟩) with he | he
    · exact absurd (asks_unique hg' hg he) hne
    · simp only [Rank.before, decide_eq_true_eq] at he
      exact he

/-- What the arbiter picks does not depend on the grant in progress. -/
theorem picks_grant {e : Engine} {o : Option Grant} (h : e.picks o) (p : Option Grant) :
    Engine.picks { e with mem := { e.mem with grant := p } } o := by
  cases o <;> exact h

/-- The grant made is that of the request served before all others, in the state in which it is made (R118, R119). -/
theorem grantNext_picks {e made : Engine} (h : made = grantNext e) : made.picks made.mem.grant :=
  h ▸ picks_grant (lowest_picks e) _

/-- On an idle port the arbiter makes that grant. -/
theorem arbitrate_picks {e : Engine} (h : e.mem.grant = none) : (arbitrate e).picks (arbitrate e).mem.grant :=
  grantNext_picks (by simp only [arbitrate, h] : arbitrate e = grantNext (eachLayer zeroFeed e))

end Sys2Proof.Machine
end

