-- ==== Sys2Proof/Laws/Arithmetic.lean ====
section
/-! SUPPORT. What the arithmetic of the spec gives: rounding, saturation (R1), positions counted forward modulo
a length (R127), the words of a port frame (R148), and sums over the voices and lanes (R137). -/

namespace Sys2Proof.Machine

/-! ## Rounding and saturation (R1) -/

/-- `roundDiv` is the quotient rounded to nearest, halves away from zero. -/
theorem roundDiv_rounded (n : Int) (d : Nat) (hd : 0 < d) : RoundedTo n d (roundDiv n d) := by
  unfold RoundedTo roundDiv
  have h0 : (0 : Int) < 2 * d := by omega
  split_ifs with a b b
  · omega
  · have h1 := Int.mul_ediv_self_le (x := 2 * n + d) (k := 2 * (d : Int)) (by omega)
    have h2 := Int.lt_mul_ediv_self_add (x := 2 * n + d) (k := 2 * (d : Int)) h0
    exact ⟨by linarith, by linarith⟩
  · have h1 := Int.mul_ediv_self_le (x := 2 * (-n) + d) (k := 2 * (d : Int)) (by omega)
    have h2 := Int.lt_mul_ediv_self_add (x := 2 * (-n) + d) (k := 2 * (d : Int)) h0
    simp only [neg_neg]
    exact ⟨by linarith, by linarith⟩
  · omega

/-- `sat24` clamps to the range of a sample. -/
theorem sat24_toInt (x : Int) : (sat24 x).toInt = max (-8388608) (min 8388607 x) := by
  simp only [sat24, BitVec.toInt_ofInt, clampInt]
  rw [Int.bmod_eq_of_le (by split_ifs <;> omega) (by split_ifs <;> omega)]
  split_ifs <;> omega

/-- A sample lies in the range of a sample. -/
theorem sample_range (x : Sample) : -8388608 ≤ x.toInt ∧ x.toInt ≤ 8388607 := by
  have h1 := BitVec.le_toInt x
  have h2 := BitVec.toInt_lt (x := x)
  norm_num at h1 h2
  omega

/-- `clampInt` is the clamp of R1. -/
theorem clampInt_eq {lo hi : Int} (h : lo ≤ hi) (x : Int) : clampInt lo hi x = max lo (min hi x) := by
  unfold clampInt; split_ifs <;> omega

/-- `clampNat` is the clamp of R1. -/
theorem clampNat_eq {lo hi : Nat} (h : lo ≤ hi) (x : Nat) : clampNat lo hi x = within lo hi x := by
  unfold clampNat within; split_ifs <;> omega

/-- A clamped count lies in its range. -/
theorem clampNat_range {lo hi : Nat} (h : lo ≤ hi) (x : Nat) : lo ≤ clampNat lo hi x ∧ clampNat lo hi x ≤ hi := by
  unfold clampNat; split_ifs <;> omega

/-! ## Positions modulo a length (R127) -/

/-- A position lies 0 ahead of itself. -/
theorem ahead_self {len q : Nat} (h : q < len) : ahead len q q = 0 := by
  unfold ahead; rw [if_neg (by omega), Nat.mod_eq_of_lt h]; simp

/-- The next position, modulo the length, lies 1 ahead. -/
theorem ahead_next {len q : Nat} (h : q < len) (h1 : 1 < len) : ahead len q (wrapAt len (q + 1)) = 1 := by
  unfold ahead wrapAt
  rw [if_neg (by omega), if_neg (by omega), Nat.mod_eq_of_lt h]
  by_cases h2 : q + 1 = len
  · rw [h2, Nat.mod_self, show 0 + len - q = 1 by omega, Nat.mod_eq_of_lt h1]
  · rw [Nat.mod_eq_of_lt (show q + 1 < len by omega), show q + 1 + len - q = 1 + len by omega, Nat.add_mod_right,
      Nat.mod_eq_of_lt h1]

/-- A position further on, short of the length, lies as far ahead as it is further. -/
theorem ahead_add {len q d : Nat} (h : q + d < len) : ahead len q (q + d) = d := by
  unfold ahead
  rw [if_neg (by omega), Nat.mod_eq_of_lt (show q < len by omega), show q + d + len - q = d + len by omega,
    Nat.add_mod_right, Nat.mod_eq_of_lt (by omega)]

/-- A run that begins at the position read gives its first frame there and its second one next. -/
theorem runGet_first {len i : Nat} {a b : Sample} {held : List Sample} {r : Run} (hb : r.base = i)
    (hf : r.frames = a :: b :: held) (h : i < len) (h1 : 1 < len) :
    runGet len r i = some a ∧ runGet len r (wrapAt len (i + 1)) = some b := by
  simp [runGet, hb, hf, ahead_self h, ahead_next h h1]

/-- The read position moves on by `d` within the length: the first `d` frames of a run are discarded. -/
theorem runAdvance_drop {len q d : Nat} {r : Run} (hb : r.base = q) (h : q + d < len) (hd : d < r.frames.length) :
    runAdvance len q (q + d) r = { base := q + d, frames := r.frames.drop d } := by
  unfold runAdvance
  simp only [hb, ahead_add h, ahead_self (show q < len by omega)]
  by_cases hz : d = 0
  · subst hz; simp [← hb]
  · rw [if_neg (by omega), if_neg (by omega)]
    simp [wrapAt]; intro _; exact Nat.mod_eq_of_lt h

/-- The integer position of a layer with a multiple. -/
theorem layerPos_position {e : Engine} {l : LayerIx} {n : Nat} (h : e.layers[l].mult = some n) :
    (layerPos e l).getD 0 = e.position l := by
  simp only [Fin.getElem_fin] at h
  simp [layerPos, Engine.position, h, Cycle.c]

/-! ## Port frames (R148) -/

/-- Reading bits from the least significant one is reading their reverse from the most significant one. -/
theorem foldl_bitsNat (l : List Bool) (k : Nat) :
    l.foldl (fun n b => 2 * n + (if b then 1 else 0)) k = bitsNat l.reverse + k * 2 ^ l.length := by
  induction l using List.reverseRecOn with
  | nil => simp [bitsNat]
  | append_singleton l b ih => simp [bitsNat, ih, pow_succ]; ring

/-- A data word by the bit order of its port. -/
theorem wordOf_eq (lsb : Bool) (b : List Bool) : wordOf lsb b = msbWord (if lsb then b.reverse else b) := by
  cases lsb <;> simp only [wordOf, msbWord, foldl_bitsNat] <;> simp

/-! ## Sums over the sources of the mix (R137) -/

/-- A sum over the voices. -/
theorem layerIxs_sum (f : LayerIx → Int) : (layerIxs.map f).sum = ∑ l, f l := by
  simp [layerIxs, Fin.sum_univ_succ]

/-- A sum over the lanes. -/
theorem quadIxs_sum (f : LaneIx → Int) : (quadIxs.map f).sum = ∑ l, f l := by
  simp [quadIxs, Fin.sum_univ_succ]

end Sys2Proof.Machine
end

