-- ==== Sys2Proof/Laws/State.lean ====
section
/-! SUPPORT. Field lemmas of the record updates, one per field per update (all true by rfl), and the lemmas
of `upd`, so that no proof unfolds an update. -/

namespace Sys2Proof.Machine

/-! ## One unit of a vector -/

/-- The changed unit. -/
@[simp] theorem upd_self {α : Type} {n : Nat} (v : Vector α n) (i : Fin n) (f : α → α) :
    (upd v i f)[i.val] = f v[i.val] := by
  simp [upd]

/-- Every other unit keeps its value. -/
theorem upd_other {α : Type} {n : Nat} (v : Vector α n) (i j : Fin n) (f : α → α) (h : i ≠ j) :
    (upd v i f)[j.val] = v[j.val] := by
  have hv : i.val ≠ j.val := fun hv => h (Fin.ext hv)
  simp [upd, hv]

/-- What a unit holds after a change of one unit. -/
theorem upd_get {α : Type} {n : Nat} (v : Vector α n) (i j : Fin n) (f : α → α) :
    (upd v i f)[j.val] = if i = j then f v[j.val] else v[j.val] := by
  by_cases h : i = j
  · subst h; simp
  · simp [upd_other v i j f h, h]

/-- Two changes of a unit agree when they give its present value the same result. -/
theorem upd_congr {α : Type} {n : Nat} (v : Vector α n) (i : Fin n) (f g : α → α) (h : f v[i.val] = g v[i.val]) :
    upd v i f = upd v i g := by
  simp only [upd, Fin.getElem_fin, h]

/-- Two changes of one unit are one change. -/
theorem upd_upd {α : Type} {n : Nat} (v : Vector α n) (i : Fin n) (f g : α → α) :
    upd (upd v i f) i g = upd v i (g ∘ f) := by
  simp [upd, Vector.set_set]

/-! ## Changes of one unit of the engine -/

@[simp] theorem modLayer_clk (l : LayerIx) (f : Layer → Layer) (e : Engine) :
    (modLayer l f e).clk = e.clk := rfl
@[simp] theorem modLayer_cyc (l : LayerIx) (f : Layer → Layer) (e : Engine) :
    (modLayer l f e).cyc = e.cyc := rfl
@[simp] theorem modLayer_fol (l : LayerIx) (f : Layer → Layer) (e : Engine) :
    (modLayer l f e).fol = e.fol := rfl
@[simp] theorem modLayer_cues (l : LayerIx) (f : Layer → Layer) (e : Engine) :
    (modLayer l f e).cues = e.cues := rfl
@[simp] theorem modLayer_slots (l : LayerIx) (f : Layer → Layer) (e : Engine) :
    (modLayer l f e).slots = e.slots := rfl
@[simp] theorem modLayer_mem (l : LayerIx) (f : Layer → Layer) (e : Engine) :
    (modLayer l f e).mem = e.mem := rfl
@[simp] theorem modLayer_voices (l : LayerIx) (f : Layer → Layer) (e : Engine) :
    (modLayer l f e).voices = e.voices := rfl
@[simp] theorem modLayer_mix (l : LayerIx) (f : Layer → Layer) (e : Engine) :
    (modLayer l f e).mix = e.mix := rfl
@[simp] theorem modLayer_ports (l : LayerIx) (f : Layer → Layer) (e : Engine) :
    (modLayer l f e).ports = e.ports := rfl
@[simp] theorem modLayer_lanes (l : LayerIx) (f : Layer → Layer) (e : Engine) :
    (modLayer l f e).lanes = e.lanes := rfl
@[simp] theorem modLayer_ped (l : LayerIx) (f : Layer → Layer) (e : Engine) :
    (modLayer l f e).ped = e.ped := rfl
@[simp] theorem modLayer_xfer (l : LayerIx) (f : Layer → Layer) (e : Engine) :
    (modLayer l f e).xfer = e.xfer := rfl
@[simp] theorem modLayer_evq (l : LayerIx) (f : Layer → Layer) (e : Engine) :
    (modLayer l f e).evq = e.evq := rfl
@[simp] theorem modLayer_heard (l : LayerIx) (f : Layer → Layer) (e : Engine) :
    (modLayer l f e).heard = e.heard := rfl
@[simp] theorem modLayer_layers (l : LayerIx) (f : Layer → Layer) (e : Engine) :
    (modLayer l f e).layers = upd e.layers l f := rfl
@[simp] theorem modVoice_clk (l : LayerIx) (f : Voice → Voice) (e : Engine) :
    (modVoice l f e).clk = e.clk := rfl
@[simp] theorem modVoice_cyc (l : LayerIx) (f : Voice → Voice) (e : Engine) :
    (modVoice l f e).cyc = e.cyc := rfl
@[simp] theorem modVoice_fol (l : LayerIx) (f : Voice → Voice) (e : Engine) :
    (modVoice l f e).fol = e.fol := rfl
@[simp] theorem modVoice_layers (l : LayerIx) (f : Voice → Voice) (e : Engine) :
    (modVoice l f e).layers = e.layers := rfl
@[simp] theorem modVoice_cues (l : LayerIx) (f : Voice → Voice) (e : Engine) :
    (modVoice l f e).cues = e.cues := rfl
@[simp] theorem modVoice_slots (l : LayerIx) (f : Voice → Voice) (e : Engine) :
    (modVoice l f e).slots = e.slots := rfl
@[simp] theorem modVoice_mem (l : LayerIx) (f : Voice → Voice) (e : Engine) :
    (modVoice l f e).mem = e.mem := rfl
@[simp] theorem modVoice_mix (l : LayerIx) (f : Voice → Voice) (e : Engine) :
    (modVoice l f e).mix = e.mix := rfl
@[simp] theorem modVoice_ports (l : LayerIx) (f : Voice → Voice) (e : Engine) :
    (modVoice l f e).ports = e.ports := rfl
@[simp] theorem modVoice_lanes (l : LayerIx) (f : Voice → Voice) (e : Engine) :
    (modVoice l f e).lanes = e.lanes := rfl
@[simp] theorem modVoice_ped (l : LayerIx) (f : Voice → Voice) (e : Engine) :
    (modVoice l f e).ped = e.ped := rfl
@[simp] theorem modVoice_xfer (l : LayerIx) (f : Voice → Voice) (e : Engine) :
    (modVoice l f e).xfer = e.xfer := rfl
@[simp] theorem modVoice_evq (l : LayerIx) (f : Voice → Voice) (e : Engine) :
    (modVoice l f e).evq = e.evq := rfl
@[simp] theorem modVoice_heard (l : LayerIx) (f : Voice → Voice) (e : Engine) :
    (modVoice l f e).heard = e.heard := rfl
@[simp] theorem modVoice_voices (l : LayerIx) (f : Voice → Voice) (e : Engine) :
    (modVoice l f e).voices = upd e.voices l f := rfl
@[simp] theorem modSlot_clk (i : SlotIx) (f : Slot → Slot) (e : Engine) : (modSlot i f e).clk = e.clk := rfl
@[simp] theorem modSlot_cyc (i : SlotIx) (f : Slot → Slot) (e : Engine) : (modSlot i f e).cyc = e.cyc := rfl
@[simp] theorem modSlot_fol (i : SlotIx) (f : Slot → Slot) (e : Engine) : (modSlot i f e).fol = e.fol := rfl
@[simp] theorem modSlot_layers (i : SlotIx) (f : Slot → Slot) (e : Engine) :
    (modSlot i f e).layers = e.layers := rfl
@[simp] theorem modSlot_cues (i : SlotIx) (f : Slot → Slot) (e : Engine) :
    (modSlot i f e).cues = e.cues := rfl
@[simp] theorem modSlot_mem (i : SlotIx) (f : Slot → Slot) (e : Engine) : (modSlot i f e).mem = e.mem := rfl
@[simp] theorem modSlot_voices (i : SlotIx) (f : Slot → Slot) (e : Engine) :
    (modSlot i f e).voices = e.voices := rfl
@[simp] theorem modSlot_mix (i : SlotIx) (f : Slot → Slot) (e : Engine) : (modSlot i f e).mix = e.mix := rfl
@[simp] theorem modSlot_ports (i : SlotIx) (f : Slot → Slot) (e : Engine) :
    (modSlot i f e).ports = e.ports := rfl
@[simp] theorem modSlot_lanes (i : SlotIx) (f : Slot → Slot) (e : Engine) :
    (modSlot i f e).lanes = e.lanes := rfl
@[simp] theorem modSlot_ped (i : SlotIx) (f : Slot → Slot) (e : Engine) : (modSlot i f e).ped = e.ped := rfl
@[simp] theorem modSlot_xfer (i : SlotIx) (f : Slot → Slot) (e : Engine) :
    (modSlot i f e).xfer = e.xfer := rfl
@[simp] theorem modSlot_evq (i : SlotIx) (f : Slot → Slot) (e : Engine) : (modSlot i f e).evq = e.evq := rfl
@[simp] theorem modSlot_heard (i : SlotIx) (f : Slot → Slot) (e : Engine) : (modSlot i f e).heard = e.heard := rfl
@[simp] theorem modSlot_slots (i : SlotIx) (f : Slot → Slot) (e : Engine) :
    (modSlot i f e).slots = upd e.slots i f := rfl
@[simp] theorem modPort_clk (p : PortIx) (f : Port → Port) (e : Engine) : (modPort p f e).clk = e.clk := rfl
@[simp] theorem modPort_cyc (p : PortIx) (f : Port → Port) (e : Engine) : (modPort p f e).cyc = e.cyc := rfl
@[simp] theorem modPort_fol (p : PortIx) (f : Port → Port) (e : Engine) : (modPort p f e).fol = e.fol := rfl
@[simp] theorem modPort_layers (p : PortIx) (f : Port → Port) (e : Engine) :
    (modPort p f e).layers = e.layers := rfl
@[simp] theorem modPort_cues (p : PortIx) (f : Port → Port) (e : Engine) :
    (modPort p f e).cues = e.cues := rfl
@[simp] theorem modPort_slots (p : PortIx) (f : Port → Port) (e : Engine) :
    (modPort p f e).slots = e.slots := rfl
@[simp] theorem modPort_mem (p : PortIx) (f : Port → Port) (e : Engine) : (modPort p f e).mem = e.mem := rfl
@[simp] theorem modPort_voices (p : PortIx) (f : Port → Port) (e : Engine) :
    (modPort p f e).voices = e.voices := rfl
@[simp] theorem modPort_mix (p : PortIx) (f : Port → Port) (e : Engine) : (modPort p f e).mix = e.mix := rfl
@[simp] theorem modPort_lanes (p : PortIx) (f : Port → Port) (e : Engine) :
    (modPort p f e).lanes = e.lanes := rfl
@[simp] theorem modPort_ped (p : PortIx) (f : Port → Port) (e : Engine) : (modPort p f e).ped = e.ped := rfl
@[simp] theorem modPort_xfer (p : PortIx) (f : Port → Port) (e : Engine) :
    (modPort p f e).xfer = e.xfer := rfl
@[simp] theorem modPort_evq (p : PortIx) (f : Port → Port) (e : Engine) : (modPort p f e).evq = e.evq := rfl
@[simp] theorem modPort_heard (p : PortIx) (f : Port → Port) (e : Engine) : (modPort p f e).heard = e.heard := rfl
@[simp] theorem modPort_ports (p : PortIx) (f : Port → Port) (e : Engine) :
    (modPort p f e).ports = upd e.ports p f := rfl
@[simp] theorem modLane_clk (l : LaneIx) (f : Lane → Lane) (e : Engine) : (modLane l f e).clk = e.clk := rfl
@[simp] theorem modLane_cyc (l : LaneIx) (f : Lane → Lane) (e : Engine) : (modLane l f e).cyc = e.cyc := rfl
@[simp] theorem modLane_fol (l : LaneIx) (f : Lane → Lane) (e : Engine) : (modLane l f e).fol = e.fol := rfl
@[simp] theorem modLane_layers (l : LaneIx) (f : Lane → Lane) (e : Engine) :
    (modLane l f e).layers = e.layers := rfl
@[simp] theorem modLane_cues (l : LaneIx) (f : Lane → Lane) (e : Engine) :
    (modLane l f e).cues = e.cues := rfl
@[simp] theorem modLane_slots (l : LaneIx) (f : Lane → Lane) (e : Engine) :
    (modLane l f e).slots = e.slots := rfl
@[simp] theorem modLane_mem (l : LaneIx) (f : Lane → Lane) (e : Engine) : (modLane l f e).mem = e.mem := rfl
@[simp] theorem modLane_voices (l : LaneIx) (f : Lane → Lane) (e : Engine) :
    (modLane l f e).voices = e.voices := rfl
@[simp] theorem modLane_mix (l : LaneIx) (f : Lane → Lane) (e : Engine) : (modLane l f e).mix = e.mix := rfl
@[simp] theorem modLane_ports (l : LaneIx) (f : Lane → Lane) (e : Engine) :
    (modLane l f e).ports = e.ports := rfl
@[simp] theorem modLane_ped (l : LaneIx) (f : Lane → Lane) (e : Engine) : (modLane l f e).ped = e.ped := rfl
@[simp] theorem modLane_xfer (l : LaneIx) (f : Lane → Lane) (e : Engine) :
    (modLane l f e).xfer = e.xfer := rfl
@[simp] theorem modLane_evq (l : LaneIx) (f : Lane → Lane) (e : Engine) : (modLane l f e).evq = e.evq := rfl
@[simp] theorem modLane_heard (l : LaneIx) (f : Lane → Lane) (e : Engine) : (modLane l f e).heard = e.heard := rfl
@[simp] theorem modLane_lanes (l : LaneIx) (f : Lane → Lane) (e : Engine) :
    (modLane l f e).lanes = upd e.lanes l f := rfl
@[simp] theorem modLive_clk (l : LaneIx) (f : Live → Live) (e : Engine) : (modLive l f e).clk = e.clk := rfl
@[simp] theorem modLive_cyc (l : LaneIx) (f : Live → Live) (e : Engine) : (modLive l f e).cyc = e.cyc := rfl
@[simp] theorem modLive_fol (l : LaneIx) (f : Live → Live) (e : Engine) : (modLive l f e).fol = e.fol := rfl
@[simp] theorem modLive_layers (l : LaneIx) (f : Live → Live) (e : Engine) :
    (modLive l f e).layers = e.layers := rfl
@[simp] theorem modLive_cues (l : LaneIx) (f : Live → Live) (e : Engine) :
    (modLive l f e).cues = e.cues := rfl
@[simp] theorem modLive_slots (l : LaneIx) (f : Live → Live) (e : Engine) :
    (modLive l f e).slots = e.slots := rfl
@[simp] theorem modLive_mem (l : LaneIx) (f : Live → Live) (e : Engine) : (modLive l f e).mem = e.mem := rfl
@[simp] theorem modLive_voices (l : LaneIx) (f : Live → Live) (e : Engine) :
    (modLive l f e).voices = e.voices := rfl
@[simp] theorem modLive_ports (l : LaneIx) (f : Live → Live) (e : Engine) :
    (modLive l f e).ports = e.ports := rfl
@[simp] theorem modLive_lanes (l : LaneIx) (f : Live → Live) (e : Engine) :
    (modLive l f e).lanes = e.lanes := rfl
@[simp] theorem modLive_ped (l : LaneIx) (f : Live → Live) (e : Engine) : (modLive l f e).ped = e.ped := rfl
@[simp] theorem modLive_xfer (l : LaneIx) (f : Live → Live) (e : Engine) :
    (modLive l f e).xfer = e.xfer := rfl
@[simp] theorem modLive_evq (l : LaneIx) (f : Live → Live) (e : Engine) : (modLive l f e).evq = e.evq := rfl
@[simp] theorem modLive_heard (l : LaneIx) (f : Live → Live) (e : Engine) : (modLive l f e).heard = e.heard := rfl
@[simp] theorem modMap_clk (i : MapIx) (f : Option Mapping → Option Mapping) (e : Engine) :
    (modMap i f e).clk = e.clk := rfl
@[simp] theorem modMap_cyc (i : MapIx) (f : Option Mapping → Option Mapping) (e : Engine) :
    (modMap i f e).cyc = e.cyc := rfl
@[simp] theorem modMap_fol (i : MapIx) (f : Option Mapping → Option Mapping) (e : Engine) :
    (modMap i f e).fol = e.fol := rfl
@[simp] theorem modMap_layers (i : MapIx) (f : Option Mapping → Option Mapping) (e : Engine) :
    (modMap i f e).layers = e.layers := rfl
@[simp] theorem modMap_cues (i : MapIx) (f : Option Mapping → Option Mapping) (e : Engine) :
    (modMap i f e).cues = e.cues := rfl
@[simp] theorem modMap_slots (i : MapIx) (f : Option Mapping → Option Mapping) (e : Engine) :
    (modMap i f e).slots = e.slots := rfl
@[simp] theorem modMap_mem (i : MapIx) (f : Option Mapping → Option Mapping) (e : Engine) :
    (modMap i f e).mem = e.mem := rfl
@[simp] theorem modMap_voices (i : MapIx) (f : Option Mapping → Option Mapping) (e : Engine) :
    (modMap i f e).voices = e.voices := rfl
@[simp] theorem modMap_mix (i : MapIx) (f : Option Mapping → Option Mapping) (e : Engine) :
    (modMap i f e).mix = e.mix := rfl
@[simp] theorem modMap_ports (i : MapIx) (f : Option Mapping → Option Mapping) (e : Engine) :
    (modMap i f e).ports = e.ports := rfl
@[simp] theorem modMap_lanes (i : MapIx) (f : Option Mapping → Option Mapping) (e : Engine) :
    (modMap i f e).lanes = e.lanes := rfl
@[simp] theorem modMap_xfer (i : MapIx) (f : Option Mapping → Option Mapping) (e : Engine) :
    (modMap i f e).xfer = e.xfer := rfl
@[simp] theorem modMap_evq (i : MapIx) (f : Option Mapping → Option Mapping) (e : Engine) :
    (modMap i f e).evq = e.evq := rfl
@[simp] theorem modMap_heard (i : MapIx) (f : Option Mapping → Option Mapping) (e : Engine) :
    (modMap i f e).heard = e.heard := rfl

/-! ## Reports -/

@[simp] theorem post_clk (ev : Event) (e : Engine) : (post ev e).clk = e.clk := rfl
@[simp] theorem post_cyc (ev : Event) (e : Engine) : (post ev e).cyc = e.cyc := rfl
@[simp] theorem post_fol (ev : Event) (e : Engine) : (post ev e).fol = e.fol := rfl
@[simp] theorem post_layers (ev : Event) (e : Engine) : (post ev e).layers = e.layers := rfl
@[simp] theorem post_cues (ev : Event) (e : Engine) : (post ev e).cues = e.cues := rfl
@[simp] theorem post_slots (ev : Event) (e : Engine) : (post ev e).slots = e.slots := rfl
@[simp] theorem post_mem (ev : Event) (e : Engine) : (post ev e).mem = e.mem := rfl
@[simp] theorem post_voices (ev : Event) (e : Engine) : (post ev e).voices = e.voices := rfl
@[simp] theorem post_mix (ev : Event) (e : Engine) : (post ev e).mix = e.mix := rfl
@[simp] theorem post_ports (ev : Event) (e : Engine) : (post ev e).ports = e.ports := rfl
@[simp] theorem post_lanes (ev : Event) (e : Engine) : (post ev e).lanes = e.lanes := rfl
@[simp] theorem post_ped (ev : Event) (e : Engine) : (post ev e).ped = e.ped := rfl
@[simp] theorem post_xfer (ev : Event) (e : Engine) : (post ev e).xfer = e.xfer := rfl
@[simp] theorem post_evq (ev : Event) (e : Engine) :
    (post ev e).evq = queueReport ev e.cyc.k e.cyc.p e.evq := rfl
@[simp] theorem post_heard (ev : Event) (e : Engine) : (post ev e).heard = e.heard := rfl

/-! ## Changes of state that report themselves -/

@[simp] theorem setLayerState_clk (l : LayerIx) (x : LayerState) (c : LayerCause) (n : Nat) (e : Engine) :
    (setLayerState l x c n e).clk = e.clk := rfl
@[simp] theorem setLayerState_cyc (l : LayerIx) (x : LayerState) (c : LayerCause) (n : Nat) (e : Engine) :
    (setLayerState l x c n e).cyc = e.cyc := rfl
@[simp] theorem setLayerState_fol (l : LayerIx) (x : LayerState) (c : LayerCause) (n : Nat) (e : Engine) :
    (setLayerState l x c n e).fol = e.fol := rfl
@[simp] theorem setLayerState_cues (l : LayerIx) (x : LayerState) (c : LayerCause) (n : Nat) (e : Engine) :
    (setLayerState l x c n e).cues = e.cues := rfl
@[simp] theorem setLayerState_slots (l : LayerIx) (x : LayerState) (c : LayerCause) (n : Nat) (e : Engine) :
    (setLayerState l x c n e).slots = e.slots := rfl
@[simp] theorem setLayerState_mem (l : LayerIx) (x : LayerState) (c : LayerCause) (n : Nat) (e : Engine) :
    (setLayerState l x c n e).mem = e.mem := rfl
@[simp] theorem setLayerState_voices (l : LayerIx) (x : LayerState) (c : LayerCause) (n : Nat) (e : Engine) :
    (setLayerState l x c n e).voices = e.voices := rfl
@[simp] theorem setLayerState_mix (l : LayerIx) (x : LayerState) (c : LayerCause) (n : Nat) (e : Engine) :
    (setLayerState l x c n e).mix = e.mix := rfl
@[simp] theorem setLayerState_ports (l : LayerIx) (x : LayerState) (c : LayerCause) (n : Nat) (e : Engine) :
    (setLayerState l x c n e).ports = e.ports := rfl
@[simp] theorem setLayerState_lanes (l : LayerIx) (x : LayerState) (c : LayerCause) (n : Nat) (e : Engine) :
    (setLayerState l x c n e).lanes = e.lanes := rfl
@[simp] theorem setLayerState_ped (l : LayerIx) (x : LayerState) (c : LayerCause) (n : Nat) (e : Engine) :
    (setLayerState l x c n e).ped = e.ped := rfl
@[simp] theorem setLayerState_xfer (l : LayerIx) (x : LayerState) (c : LayerCause) (n : Nat) (e : Engine) :
    (setLayerState l x c n e).xfer = e.xfer := rfl
@[simp] theorem setLayerState_layers (l : LayerIx) (x : LayerState) (c : LayerCause) (n : Nat) (e : Engine) :
    (setLayerState l x c n e).layers = upd e.layers l fun r => { r with state := x, lastChange := e.cyc.k } := rfl
@[simp] theorem setCycleState_clk (x : CycleState) (e : Engine) : (setCycleState x e).clk = e.clk := rfl
@[simp] theorem setCycleState_fol (x : CycleState) (e : Engine) : (setCycleState x e).fol = e.fol := rfl
@[simp] theorem setCycleState_layers (x : CycleState) (e : Engine) :
    (setCycleState x e).layers = e.layers := rfl
@[simp] theorem setCycleState_cues (x : CycleState) (e : Engine) : (setCycleState x e).cues = e.cues := rfl
@[simp] theorem setCycleState_slots (x : CycleState) (e : Engine) : (setCycleState x e).slots = e.slots := rfl
@[simp] theorem setCycleState_mem (x : CycleState) (e : Engine) : (setCycleState x e).mem = e.mem := rfl
@[simp] theorem setCycleState_voices (x : CycleState) (e : Engine) :
    (setCycleState x e).voices = e.voices := rfl
@[simp] theorem setCycleState_ports (x : CycleState) (e : Engine) : (setCycleState x e).ports = e.ports := rfl
@[simp] theorem setCycleState_lanes (x : CycleState) (e : Engine) : (setCycleState x e).lanes = e.lanes := rfl
@[simp] theorem setCycleState_ped (x : CycleState) (e : Engine) : (setCycleState x e).ped = e.ped := rfl
@[simp] theorem setCycleState_xfer (x : CycleState) (e : Engine) : (setCycleState x e).xfer = e.xfer := rfl
@[simp] theorem setCycleState_evq (x : CycleState) (e : Engine) : (setCycleState x e).evq = e.evq := rfl
@[simp] theorem setCycleState_heard (x : CycleState) (e : Engine) : (setCycleState x e).heard = e.heard := rfl
@[simp] theorem setCycleState_cyc (x : CycleState) (e : Engine) :
    (setCycleState x e).cyc = { e.cyc with state := x } := rfl

/-! ## The cue queue -/

@[simp] theorem countCues_clk (b : Boundary) (w : Nat) (e : Engine) : (countCues b w e).clk = e.clk := rfl
@[simp] theorem countCues_cyc (b : Boundary) (w : Nat) (e : Engine) : (countCues b w e).cyc = e.cyc := rfl
@[simp] theorem countCues_fol (b : Boundary) (w : Nat) (e : Engine) : (countCues b w e).fol = e.fol := rfl
@[simp] theorem countCues_layers (b : Boundary) (w : Nat) (e : Engine) :
    (countCues b w e).layers = e.layers := rfl
@[simp] theorem countCues_slots (b : Boundary) (w : Nat) (e : Engine) :
    (countCues b w e).slots = e.slots := rfl
@[simp] theorem countCues_mem (b : Boundary) (w : Nat) (e : Engine) : (countCues b w e).mem = e.mem := rfl
@[simp] theorem countCues_voices (b : Boundary) (w : Nat) (e : Engine) :
    (countCues b w e).voices = e.voices := rfl
@[simp] theorem countCues_mix (b : Boundary) (w : Nat) (e : Engine) : (countCues b w e).mix = e.mix := rfl
@[simp] theorem countCues_ports (b : Boundary) (w : Nat) (e : Engine) :
    (countCues b w e).ports = e.ports := rfl
@[simp] theorem countCues_lanes (b : Boundary) (w : Nat) (e : Engine) :
    (countCues b w e).lanes = e.lanes := rfl
@[simp] theorem countCues_ped (b : Boundary) (w : Nat) (e : Engine) : (countCues b w e).ped = e.ped := rfl
@[simp] theorem countCues_xfer (b : Boundary) (w : Nat) (e : Engine) : (countCues b w e).xfer = e.xfer := rfl
@[simp] theorem countCues_evq (b : Boundary) (w : Nat) (e : Engine) : (countCues b w e).evq = e.evq := rfl
@[simp] theorem countCues_heard (b : Boundary) (w : Nat) (e : Engine) :
    (countCues b w e).heard = e.heard.map fun h => { h with cues := countList b w h.cues } := rfl
@[simp] theorem removeCue_clk (n : Nat) (e : Engine) : (removeCue n e).clk = e.clk := rfl
@[simp] theorem removeCue_cyc (n : Nat) (e : Engine) : (removeCue n e).cyc = e.cyc := rfl
@[simp] theorem removeCue_fol (n : Nat) (e : Engine) : (removeCue n e).fol = e.fol := rfl
@[simp] theorem removeCue_layers (n : Nat) (e : Engine) : (removeCue n e).layers = e.layers := rfl
@[simp] theorem removeCue_slots (n : Nat) (e : Engine) : (removeCue n e).slots = e.slots := rfl
@[simp] theorem removeCue_mem (n : Nat) (e : Engine) : (removeCue n e).mem = e.mem := rfl
@[simp] theorem removeCue_voices (n : Nat) (e : Engine) : (removeCue n e).voices = e.voices := rfl
@[simp] theorem removeCue_mix (n : Nat) (e : Engine) : (removeCue n e).mix = e.mix := rfl
@[simp] theorem removeCue_ports (n : Nat) (e : Engine) : (removeCue n e).ports = e.ports := rfl
@[simp] theorem removeCue_lanes (n : Nat) (e : Engine) : (removeCue n e).lanes = e.lanes := rfl
@[simp] theorem removeCue_ped (n : Nat) (e : Engine) : (removeCue n e).ped = e.ped := rfl
@[simp] theorem removeCue_xfer (n : Nat) (e : Engine) : (removeCue n e).xfer = e.xfer := rfl
@[simp] theorem removeCue_evq (n : Nat) (e : Engine) : (removeCue n e).evq = e.evq := rfl
@[simp] theorem removeCue_heard (n : Nat) (e : Engine) : (removeCue n e).heard = e.heard := rfl
@[simp] theorem appendCue_clk (a : CueAsk) (n : Nat) (e : Engine) : (appendCue a n e).clk = e.clk := rfl
@[simp] theorem appendCue_cyc (a : CueAsk) (n : Nat) (e : Engine) : (appendCue a n e).cyc = e.cyc := rfl
@[simp] theorem appendCue_fol (a : CueAsk) (n : Nat) (e : Engine) : (appendCue a n e).fol = e.fol := rfl
@[simp] theorem appendCue_layers (a : CueAsk) (n : Nat) (e : Engine) :
    (appendCue a n e).layers = e.layers := rfl
@[simp] theorem appendCue_slots (a : CueAsk) (n : Nat) (e : Engine) : (appendCue a n e).slots = e.slots := rfl
@[simp] theorem appendCue_mem (a : CueAsk) (n : Nat) (e : Engine) : (appendCue a n e).mem = e.mem := rfl
@[simp] theorem appendCue_voices (a : CueAsk) (n : Nat) (e : Engine) :
    (appendCue a n e).voices = e.voices := rfl
@[simp] theorem appendCue_mix (a : CueAsk) (n : Nat) (e : Engine) : (appendCue a n e).mix = e.mix := rfl
@[simp] theorem appendCue_ports (a : CueAsk) (n : Nat) (e : Engine) : (appendCue a n e).ports = e.ports := rfl
@[simp] theorem appendCue_lanes (a : CueAsk) (n : Nat) (e : Engine) : (appendCue a n e).lanes = e.lanes := rfl
@[simp] theorem appendCue_ped (a : CueAsk) (n : Nat) (e : Engine) : (appendCue a n e).ped = e.ped := rfl
@[simp] theorem appendCue_xfer (a : CueAsk) (n : Nat) (e : Engine) : (appendCue a n e).xfer = e.xfer := rfl
@[simp] theorem appendCue_evq (a : CueAsk) (n : Nat) (e : Engine) : (appendCue a n e).evq = e.evq := rfl
@[simp] theorem appendCue_heard (a : CueAsk) (n : Nat) (e : Engine) : (appendCue a n e).heard = e.heard := rfl
@[simp] theorem deferCue_clk (n : Nat) (e : Engine) : (deferCue n e).clk = e.clk := rfl
@[simp] theorem deferCue_cyc (n : Nat) (e : Engine) : (deferCue n e).cyc = e.cyc := rfl
@[simp] theorem deferCue_fol (n : Nat) (e : Engine) : (deferCue n e).fol = e.fol := rfl
@[simp] theorem deferCue_layers (n : Nat) (e : Engine) : (deferCue n e).layers = e.layers := rfl
@[simp] theorem deferCue_slots (n : Nat) (e : Engine) : (deferCue n e).slots = e.slots := rfl
@[simp] theorem deferCue_mem (n : Nat) (e : Engine) : (deferCue n e).mem = e.mem := rfl
@[simp] theorem deferCue_voices (n : Nat) (e : Engine) : (deferCue n e).voices = e.voices := rfl
@[simp] theorem deferCue_mix (n : Nat) (e : Engine) : (deferCue n e).mix = e.mix := rfl
@[simp] theorem deferCue_ports (n : Nat) (e : Engine) : (deferCue n e).ports = e.ports := rfl
@[simp] theorem deferCue_lanes (n : Nat) (e : Engine) : (deferCue n e).lanes = e.lanes := rfl
@[simp] theorem deferCue_ped (n : Nat) (e : Engine) : (deferCue n e).ped = e.ped := rfl
@[simp] theorem deferCue_xfer (n : Nat) (e : Engine) : (deferCue n e).xfer = e.xfer := rfl
@[simp] theorem deferCue_evq (n : Nat) (e : Engine) : (deferCue n e).evq = e.evq := rfl
@[simp] theorem deferCue_heard (n : Nat) (e : Engine) : (deferCue n e).heard = e.heard := rfl

/-! ## Loop memory -/

@[simp] theorem addJob_clk (l : LayerIx) (k : FillKind) (e : Engine) : (addJob l k e).clk = e.clk := rfl
@[simp] theorem addJob_cyc (l : LayerIx) (k : FillKind) (e : Engine) : (addJob l k e).cyc = e.cyc := rfl
@[simp] theorem addJob_fol (l : LayerIx) (k : FillKind) (e : Engine) : (addJob l k e).fol = e.fol := rfl
@[simp] theorem addJob_layers (l : LayerIx) (k : FillKind) (e : Engine) :
    (addJob l k e).layers = e.layers := rfl
@[simp] theorem addJob_cues (l : LayerIx) (k : FillKind) (e : Engine) : (addJob l k e).cues = e.cues := rfl
@[simp] theorem addJob_slots (l : LayerIx) (k : FillKind) (e : Engine) : (addJob l k e).slots = e.slots := rfl
@[simp] theorem addJob_voices (l : LayerIx) (k : FillKind) (e : Engine) :
    (addJob l k e).voices = e.voices := rfl
@[simp] theorem addJob_mix (l : LayerIx) (k : FillKind) (e : Engine) : (addJob l k e).mix = e.mix := rfl
@[simp] theorem addJob_ports (l : LayerIx) (k : FillKind) (e : Engine) : (addJob l k e).ports = e.ports := rfl
@[simp] theorem addJob_lanes (l : LayerIx) (k : FillKind) (e : Engine) : (addJob l k e).lanes = e.lanes := rfl
@[simp] theorem addJob_ped (l : LayerIx) (k : FillKind) (e : Engine) : (addJob l k e).ped = e.ped := rfl
@[simp] theorem addJob_xfer (l : LayerIx) (k : FillKind) (e : Engine) : (addJob l k e).xfer = e.xfer := rfl
@[simp] theorem addJob_evq (l : LayerIx) (k : FillKind) (e : Engine) : (addJob l k e).evq = e.evq := rfl
@[simp] theorem addJob_heard (l : LayerIx) (k : FillKind) (e : Engine) : (addJob l k e).heard = e.heard := rfl
@[simp] theorem cancelGrant_clk (p : Grant → Bool) (e : Engine) : (cancelGrant p e).clk = e.clk := rfl
@[simp] theorem cancelGrant_cyc (p : Grant → Bool) (e : Engine) : (cancelGrant p e).cyc = e.cyc := rfl
@[simp] theorem cancelGrant_fol (p : Grant → Bool) (e : Engine) : (cancelGrant p e).fol = e.fol := rfl
@[simp] theorem cancelGrant_layers (p : Grant → Bool) (e : Engine) : (cancelGrant p e).layers = e.layers := rfl
@[simp] theorem cancelGrant_cues (p : Grant → Bool) (e : Engine) : (cancelGrant p e).cues = e.cues := rfl
@[simp] theorem cancelGrant_slots (p : Grant → Bool) (e : Engine) : (cancelGrant p e).slots = e.slots := rfl
@[simp] theorem cancelGrant_voices (p : Grant → Bool) (e : Engine) : (cancelGrant p e).voices = e.voices := rfl
@[simp] theorem cancelGrant_mix (p : Grant → Bool) (e : Engine) : (cancelGrant p e).mix = e.mix := rfl
@[simp] theorem cancelGrant_ports (p : Grant → Bool) (e : Engine) : (cancelGrant p e).ports = e.ports := rfl
@[simp] theorem cancelGrant_lanes (p : Grant → Bool) (e : Engine) : (cancelGrant p e).lanes = e.lanes := rfl
@[simp] theorem cancelGrant_ped (p : Grant → Bool) (e : Engine) : (cancelGrant p e).ped = e.ped := rfl
@[simp] theorem cancelGrant_xfer (p : Grant → Bool) (e : Engine) : (cancelGrant p e).xfer = e.xfer := rfl
@[simp] theorem cancelGrant_evq (p : Grant → Bool) (e : Engine) : (cancelGrant p e).evq = e.evq := rfl
@[simp] theorem cancelGrant_heard (p : Grant → Bool) (e : Engine) : (cancelGrant p e).heard = e.heard := rfl
@[simp] theorem cancelGrant_cells (p : Grant → Bool) (e : Engine) :
    (cancelGrant p e).mem.cells = e.mem.cells := rfl
@[simp] theorem cancelGrant_free (p : Grant → Bool) (e : Engine) :
    (cancelGrant p e).mem.free = e.mem.free := rfl
@[simp] theorem cancelGrant_age (p : Grant → Bool) (e : Engine) :
    (cancelGrant p e).mem.age = e.mem.age := rfl
@[simp] theorem cancelGrant_jobs (p : Grant → Bool) (e : Engine) :
    (cancelGrant p e).mem.jobs = e.mem.jobs := rfl
@[simp] theorem cancelGrant_work (p : Grant → Bool) (e : Engine) :
    (cancelGrant p e).mem.work = e.mem.work := rfl
@[simp] theorem dropJobs_clk (p : Job → Bool) (e : Engine) : (dropJobs p e).clk = e.clk := rfl
@[simp] theorem dropJobs_cyc (p : Job → Bool) (e : Engine) : (dropJobs p e).cyc = e.cyc := rfl
@[simp] theorem dropJobs_fol (p : Job → Bool) (e : Engine) : (dropJobs p e).fol = e.fol := rfl
@[simp] theorem dropJobs_layers (p : Job → Bool) (e : Engine) : (dropJobs p e).layers = e.layers := rfl
@[simp] theorem dropJobs_cues (p : Job → Bool) (e : Engine) : (dropJobs p e).cues = e.cues := rfl
@[simp] theorem dropJobs_slots (p : Job → Bool) (e : Engine) : (dropJobs p e).slots = e.slots := rfl
@[simp] theorem dropJobs_voices (p : Job → Bool) (e : Engine) : (dropJobs p e).voices = e.voices := rfl
@[simp] theorem dropJobs_mix (p : Job → Bool) (e : Engine) : (dropJobs p e).mix = e.mix := rfl
@[simp] theorem dropJobs_ports (p : Job → Bool) (e : Engine) : (dropJobs p e).ports = e.ports := rfl
@[simp] theorem dropJobs_lanes (p : Job → Bool) (e : Engine) : (dropJobs p e).lanes = e.lanes := rfl
@[simp] theorem dropJobs_ped (p : Job → Bool) (e : Engine) : (dropJobs p e).ped = e.ped := rfl
@[simp] theorem dropJobs_xfer (p : Job → Bool) (e : Engine) : (dropJobs p e).xfer = e.xfer := rfl
@[simp] theorem dropJobs_evq (p : Job → Bool) (e : Engine) : (dropJobs p e).evq = e.evq := rfl
@[simp] theorem dropJobs_heard (p : Job → Bool) (e : Engine) : (dropJobs p e).heard = e.heard := rfl
@[simp] theorem dropJobs_cells (p : Job → Bool) (e : Engine) : (dropJobs p e).mem.cells = e.mem.cells := rfl
@[simp] theorem dropJobs_free (p : Job → Bool) (e : Engine) : (dropJobs p e).mem.free = e.mem.free := rfl
@[simp] theorem dropJobs_age (p : Job → Bool) (e : Engine) : (dropJobs p e).mem.age = e.mem.age := rfl
@[simp] theorem dropJobs_jobs (p : Job → Bool) (e : Engine) :
    (dropJobs p e).mem.jobs = e.mem.jobs.filter fun j => !p j := rfl
@[simp] theorem dropAge_clk (l : LayerIx) (e : Engine) : (dropAge l e).clk = e.clk := rfl
@[simp] theorem dropAge_cyc (l : LayerIx) (e : Engine) : (dropAge l e).cyc = e.cyc := rfl
@[simp] theorem dropAge_fol (l : LayerIx) (e : Engine) : (dropAge l e).fol = e.fol := rfl
@[simp] theorem dropAge_layers (l : LayerIx) (e : Engine) : (dropAge l e).layers = e.layers := rfl
@[simp] theorem dropAge_cues (l : LayerIx) (e : Engine) : (dropAge l e).cues = e.cues := rfl
@[simp] theorem dropAge_slots (l : LayerIx) (e : Engine) : (dropAge l e).slots = e.slots := rfl
@[simp] theorem dropAge_voices (l : LayerIx) (e : Engine) : (dropAge l e).voices = e.voices := rfl
@[simp] theorem dropAge_mix (l : LayerIx) (e : Engine) : (dropAge l e).mix = e.mix := rfl
@[simp] theorem dropAge_ports (l : LayerIx) (e : Engine) : (dropAge l e).ports = e.ports := rfl
@[simp] theorem dropAge_lanes (l : LayerIx) (e : Engine) : (dropAge l e).lanes = e.lanes := rfl
@[simp] theorem dropAge_ped (l : LayerIx) (e : Engine) : (dropAge l e).ped = e.ped := rfl
@[simp] theorem dropAge_xfer (l : LayerIx) (e : Engine) : (dropAge l e).xfer = e.xfer := rfl
@[simp] theorem dropAge_evq (l : LayerIx) (e : Engine) : (dropAge l e).evq = e.evq := rfl
@[simp] theorem dropAge_heard (l : LayerIx) (e : Engine) : (dropAge l e).heard = e.heard := rfl
@[simp] theorem setAgeKind_clk (l : LayerIx) (k : AgeKind) (e : Engine) :
    (setAgeKind l k e).clk = e.clk := rfl
@[simp] theorem setAgeKind_cyc (l : LayerIx) (k : AgeKind) (e : Engine) :
    (setAgeKind l k e).cyc = e.cyc := rfl
@[simp] theorem setAgeKind_fol (l : LayerIx) (k : AgeKind) (e : Engine) :
    (setAgeKind l k e).fol = e.fol := rfl
@[simp] theorem setAgeKind_layers (l : LayerIx) (k : AgeKind) (e : Engine) :
    (setAgeKind l k e).layers = e.layers := rfl
@[simp] theorem setAgeKind_cues (l : LayerIx) (k : AgeKind) (e : Engine) :
    (setAgeKind l k e).cues = e.cues := rfl
@[simp] theorem setAgeKind_slots (l : LayerIx) (k : AgeKind) (e : Engine) :
    (setAgeKind l k e).slots = e.slots := rfl
@[simp] theorem setAgeKind_voices (l : LayerIx) (k : AgeKind) (e : Engine) :
    (setAgeKind l k e).voices = e.voices := rfl
@[simp] theorem setAgeKind_mix (l : LayerIx) (k : AgeKind) (e : Engine) :
    (setAgeKind l k e).mix = e.mix := rfl
@[simp] theorem setAgeKind_ports (l : LayerIx) (k : AgeKind) (e : Engine) :
    (setAgeKind l k e).ports = e.ports := rfl
@[simp] theorem setAgeKind_lanes (l : LayerIx) (k : AgeKind) (e : Engine) :
    (setAgeKind l k e).lanes = e.lanes := rfl
@[simp] theorem setAgeKind_ped (l : LayerIx) (k : AgeKind) (e : Engine) :
    (setAgeKind l k e).ped = e.ped := rfl
@[simp] theorem setAgeKind_xfer (l : LayerIx) (k : AgeKind) (e : Engine) :
    (setAgeKind l k e).xfer = e.xfer := rfl
@[simp] theorem setAgeKind_evq (l : LayerIx) (k : AgeKind) (e : Engine) :
    (setAgeKind l k e).evq = e.evq := rfl
@[simp] theorem setAgeKind_heard (l : LayerIx) (k : AgeKind) (e : Engine) :
    (setAgeKind l k e).heard = e.heard := rfl
@[simp] theorem takePages_clk (n : Nat) (e : Engine) : ((takePages n e).2).clk = e.clk := rfl
@[simp] theorem takePages_cyc (n : Nat) (e : Engine) : ((takePages n e).2).cyc = e.cyc := rfl
@[simp] theorem takePages_fol (n : Nat) (e : Engine) : ((takePages n e).2).fol = e.fol := rfl
@[simp] theorem takePages_layers (n : Nat) (e : Engine) : ((takePages n e).2).layers = e.layers := rfl
@[simp] theorem takePages_cues (n : Nat) (e : Engine) : ((takePages n e).2).cues = e.cues := rfl
@[simp] theorem takePages_slots (n : Nat) (e : Engine) : ((takePages n e).2).slots = e.slots := rfl
@[simp] theorem takePages_voices (n : Nat) (e : Engine) : ((takePages n e).2).voices = e.voices := rfl
@[simp] theorem takePages_mix (n : Nat) (e : Engine) : ((takePages n e).2).mix = e.mix := rfl
@[simp] theorem takePages_ports (n : Nat) (e : Engine) : ((takePages n e).2).ports = e.ports := rfl
@[simp] theorem takePages_lanes (n : Nat) (e : Engine) : ((takePages n e).2).lanes = e.lanes := rfl
@[simp] theorem takePages_ped (n : Nat) (e : Engine) : ((takePages n e).2).ped = e.ped := rfl
@[simp] theorem takePages_xfer (n : Nat) (e : Engine) : ((takePages n e).2).xfer = e.xfer := rfl
@[simp] theorem takePages_evq (n : Nat) (e : Engine) : ((takePages n e).2).evq = e.evq := rfl
@[simp] theorem takePages_heard (n : Nat) (e : Engine) : ((takePages n e).2).heard = e.heard := rfl
@[simp] theorem tickGrant_clk (e : Engine) : (tickGrant e).clk = e.clk := rfl
@[simp] theorem tickGrant_cyc (e : Engine) : (tickGrant e).cyc = e.cyc := rfl
@[simp] theorem tickGrant_fol (e : Engine) : (tickGrant e).fol = e.fol := rfl
@[simp] theorem tickGrant_layers (e : Engine) : (tickGrant e).layers = e.layers := rfl
@[simp] theorem tickGrant_cues (e : Engine) : (tickGrant e).cues = e.cues := rfl
@[simp] theorem tickGrant_slots (e : Engine) : (tickGrant e).slots = e.slots := rfl
@[simp] theorem tickGrant_voices (e : Engine) : (tickGrant e).voices = e.voices := rfl
@[simp] theorem tickGrant_mix (e : Engine) : (tickGrant e).mix = e.mix := rfl
@[simp] theorem tickGrant_ports (e : Engine) : (tickGrant e).ports = e.ports := rfl
@[simp] theorem tickGrant_lanes (e : Engine) : (tickGrant e).lanes = e.lanes := rfl
@[simp] theorem tickGrant_ped (e : Engine) : (tickGrant e).ped = e.ped := rfl
@[simp] theorem tickGrant_xfer (e : Engine) : (tickGrant e).xfer = e.xfer := rfl
@[simp] theorem tickGrant_evq (e : Engine) : (tickGrant e).evq = e.evq := rfl
@[simp] theorem tickGrant_heard (e : Engine) : (tickGrant e).heard = e.heard := rfl

/-! ## Ports and mixer -/

@[simp] theorem queueP0_cyc (w : Option (Sample × Sample)) (e : Engine) : (queueP0 w e).cyc = e.cyc := rfl
@[simp] theorem queueP0_fol (w : Option (Sample × Sample)) (e : Engine) : (queueP0 w e).fol = e.fol := rfl
@[simp] theorem queueP0_layers (w : Option (Sample × Sample)) (e : Engine) :
    (queueP0 w e).layers = e.layers := rfl
@[simp] theorem queueP0_cues (w : Option (Sample × Sample)) (e : Engine) : (queueP0 w e).cues = e.cues := rfl
@[simp] theorem queueP0_slots (w : Option (Sample × Sample)) (e : Engine) :
    (queueP0 w e).slots = e.slots := rfl
@[simp] theorem queueP0_mem (w : Option (Sample × Sample)) (e : Engine) : (queueP0 w e).mem = e.mem := rfl
@[simp] theorem queueP0_voices (w : Option (Sample × Sample)) (e : Engine) :
    (queueP0 w e).voices = e.voices := rfl
@[simp] theorem queueP0_mix (w : Option (Sample × Sample)) (e : Engine) : (queueP0 w e).mix = e.mix := rfl
@[simp] theorem queueP0_ports (w : Option (Sample × Sample)) (e : Engine) :
    (queueP0 w e).ports = e.ports := rfl
@[simp] theorem queueP0_lanes (w : Option (Sample × Sample)) (e : Engine) :
    (queueP0 w e).lanes = e.lanes := rfl
@[simp] theorem queueP0_ped (w : Option (Sample × Sample)) (e : Engine) : (queueP0 w e).ped = e.ped := rfl
@[simp] theorem queueP0_xfer (w : Option (Sample × Sample)) (e : Engine) : (queueP0 w e).xfer = e.xfer := rfl
@[simp] theorem queueP0_evq (w : Option (Sample × Sample)) (e : Engine) : (queueP0 w e).evq = e.evq := rfl
@[simp] theorem queueP0_heard (w : Option (Sample × Sample)) (e : Engine) : (queueP0 w e).heard = e.heard := rfl
@[simp] theorem shiftOutput_clk (e : Engine) : (shiftOutput e).clk = e.clk := rfl
@[simp] theorem shiftOutput_cyc (e : Engine) : (shiftOutput e).cyc = e.cyc := rfl
@[simp] theorem shiftOutput_fol (e : Engine) : (shiftOutput e).fol = e.fol := rfl
@[simp] theorem shiftOutput_layers (e : Engine) : (shiftOutput e).layers = e.layers := rfl
@[simp] theorem shiftOutput_cues (e : Engine) : (shiftOutput e).cues = e.cues := rfl
@[simp] theorem shiftOutput_slots (e : Engine) : (shiftOutput e).slots = e.slots := rfl
@[simp] theorem shiftOutput_mem (e : Engine) : (shiftOutput e).mem = e.mem := rfl
@[simp] theorem shiftOutput_voices (e : Engine) : (shiftOutput e).voices = e.voices := rfl
@[simp] theorem shiftOutput_ports (e : Engine) : (shiftOutput e).ports = e.ports := rfl
@[simp] theorem shiftOutput_lanes (e : Engine) : (shiftOutput e).lanes = e.lanes := rfl
@[simp] theorem shiftOutput_ped (e : Engine) : (shiftOutput e).ped = e.ped := rfl
@[simp] theorem shiftOutput_xfer (e : Engine) : (shiftOutput e).xfer = e.xfer := rfl
@[simp] theorem shiftOutput_evq (e : Engine) : (shiftOutput e).evq = e.evq := rfl
@[simp] theorem shiftOutput_heard (e : Engine) : (shiftOutput e).heard = e.heard := rfl
@[simp] theorem stepLive_clk (e : Engine) : (stepLive e).clk = e.clk := rfl
@[simp] theorem stepLive_cyc (e : Engine) : (stepLive e).cyc = e.cyc := rfl
@[simp] theorem stepLive_fol (e : Engine) : (stepLive e).fol = e.fol := rfl
@[simp] theorem stepLive_layers (e : Engine) : (stepLive e).layers = e.layers := rfl
@[simp] theorem stepLive_cues (e : Engine) : (stepLive e).cues = e.cues := rfl
@[simp] theorem stepLive_slots (e : Engine) : (stepLive e).slots = e.slots := rfl
@[simp] theorem stepLive_mem (e : Engine) : (stepLive e).mem = e.mem := rfl
@[simp] theorem stepLive_voices (e : Engine) : (stepLive e).voices = e.voices := rfl
@[simp] theorem stepLive_ports (e : Engine) : (stepLive e).ports = e.ports := rfl
@[simp] theorem stepLive_lanes (e : Engine) : (stepLive e).lanes = e.lanes := rfl
@[simp] theorem stepLive_ped (e : Engine) : (stepLive e).ped = e.ped := rfl
@[simp] theorem stepLive_xfer (e : Engine) : (stepLive e).xfer = e.xfer := rfl
@[simp] theorem stepLive_evq (e : Engine) : (stepLive e).evq = e.evq := rfl
@[simp] theorem stepLive_heard (e : Engine) : (stepLive e).heard = e.heard := rfl

/-! ## Follower -/

@[simp] theorem endHoldOff_clk (e : Engine) : (endHoldOff e).clk = e.clk := rfl
@[simp] theorem endHoldOff_cyc (e : Engine) : (endHoldOff e).cyc = e.cyc := rfl
@[simp] theorem endHoldOff_layers (e : Engine) : (endHoldOff e).layers = e.layers := rfl
@[simp] theorem endHoldOff_cues (e : Engine) : (endHoldOff e).cues = e.cues := rfl
@[simp] theorem endHoldOff_slots (e : Engine) : (endHoldOff e).slots = e.slots := rfl
@[simp] theorem endHoldOff_mem (e : Engine) : (endHoldOff e).mem = e.mem := rfl
@[simp] theorem endHoldOff_voices (e : Engine) : (endHoldOff e).voices = e.voices := rfl
@[simp] theorem endHoldOff_mix (e : Engine) : (endHoldOff e).mix = e.mix := rfl
@[simp] theorem endHoldOff_ports (e : Engine) : (endHoldOff e).ports = e.ports := rfl
@[simp] theorem endHoldOff_lanes (e : Engine) : (endHoldOff e).lanes = e.lanes := rfl
@[simp] theorem endHoldOff_ped (e : Engine) : (endHoldOff e).ped = e.ped := rfl
@[simp] theorem endHoldOff_xfer (e : Engine) : (endHoldOff e).xfer = e.xfer := rfl
@[simp] theorem endHoldOff_evq (e : Engine) : (endHoldOff e).evq = e.evq := rfl
@[simp] theorem endHoldOff_heard (e : Engine) : (endHoldOff e).heard = e.heard := rfl

/-- An operation of the follower does what it does, and notes what it would do without the onset (entry 51). -/
theorem onFollower_only (f : Engine → Engine) (e : Engine) : ∃ h, onFollower f e = { f e with heard := h } := by
  unfold onFollower
  split
  · exact ⟨_, rfl⟩
  · exact ⟨_, rfl⟩

/-- On a frame without a detector onset it does what it does. -/
theorem onFollower_unheard {e : Engine} (h : e.heard = none) (f : Engine → Engine) : onFollower f e = f e := by
  simp only [onFollower, h]

@[simp] theorem onFollower_clk (f : Engine → Engine) (e : Engine) : (onFollower f e).clk = (f e).clk := by
  obtain ⟨_, h⟩ := onFollower_only f e; rw [h]
@[simp] theorem onFollower_cyc (f : Engine → Engine) (e : Engine) : (onFollower f e).cyc = (f e).cyc := by
  obtain ⟨_, h⟩ := onFollower_only f e; rw [h]
@[simp] theorem onFollower_fol (f : Engine → Engine) (e : Engine) : (onFollower f e).fol = (f e).fol := by
  obtain ⟨_, h⟩ := onFollower_only f e; rw [h]
@[simp] theorem onFollower_layers (f : Engine → Engine) (e : Engine) : (onFollower f e).layers = (f e).layers := by
  obtain ⟨_, h⟩ := onFollower_only f e; rw [h]
@[simp] theorem onFollower_cues (f : Engine → Engine) (e : Engine) : (onFollower f e).cues = (f e).cues := by
  obtain ⟨_, h⟩ := onFollower_only f e; rw [h]
@[simp] theorem onFollower_slots (f : Engine → Engine) (e : Engine) : (onFollower f e).slots = (f e).slots := by
  obtain ⟨_, h⟩ := onFollower_only f e; rw [h]
@[simp] theorem onFollower_mem (f : Engine → Engine) (e : Engine) : (onFollower f e).mem = (f e).mem := by
  obtain ⟨_, h⟩ := onFollower_only f e; rw [h]
@[simp] theorem onFollower_voices (f : Engine → Engine) (e : Engine) : (onFollower f e).voices = (f e).voices := by
  obtain ⟨_, h⟩ := onFollower_only f e; rw [h]
@[simp] theorem onFollower_mix (f : Engine → Engine) (e : Engine) : (onFollower f e).mix = (f e).mix := by
  obtain ⟨_, h⟩ := onFollower_only f e; rw [h]
@[simp] theorem onFollower_ports (f : Engine → Engine) (e : Engine) : (onFollower f e).ports = (f e).ports := by
  obtain ⟨_, h⟩ := onFollower_only f e; rw [h]
@[simp] theorem onFollower_lanes (f : Engine → Engine) (e : Engine) : (onFollower f e).lanes = (f e).lanes := by
  obtain ⟨_, h⟩ := onFollower_only f e; rw [h]
@[simp] theorem onFollower_ped (f : Engine → Engine) (e : Engine) : (onFollower f e).ped = (f e).ped := by
  obtain ⟨_, h⟩ := onFollower_only f e; rw [h]
@[simp] theorem onFollower_xfer (f : Engine → Engine) (e : Engine) : (onFollower f e).xfer = (f e).xfer := by
  obtain ⟨_, h⟩ := onFollower_only f e; rw [h]
@[simp] theorem onFollower_evq (f : Engine → Engine) (e : Engine) : (onFollower f e).evq = (f e).evq := by
  obtain ⟨_, h⟩ := onFollower_only f e; rw [h]

@[simp] theorem clearDecision_clk (e : Engine) : (clearDecision e).clk = e.clk := by simp [clearDecision]
@[simp] theorem clearDecision_cyc (e : Engine) : (clearDecision e).cyc = e.cyc := by simp [clearDecision]
@[simp] theorem clearDecision_layers (e : Engine) : (clearDecision e).layers = e.layers := by simp [clearDecision]
@[simp] theorem clearDecision_cues (e : Engine) : (clearDecision e).cues = e.cues := by simp [clearDecision]
@[simp] theorem clearDecision_slots (e : Engine) : (clearDecision e).slots = e.slots := by simp [clearDecision]
@[simp] theorem clearDecision_mem (e : Engine) : (clearDecision e).mem = e.mem := by simp [clearDecision]
@[simp] theorem clearDecision_voices (e : Engine) : (clearDecision e).voices = e.voices := by simp [clearDecision]
@[simp] theorem clearDecision_mix (e : Engine) : (clearDecision e).mix = e.mix := by simp [clearDecision]
@[simp] theorem clearDecision_ports (e : Engine) : (clearDecision e).ports = e.ports := by simp [clearDecision]
@[simp] theorem clearDecision_lanes (e : Engine) : (clearDecision e).lanes = e.lanes := by simp [clearDecision]
@[simp] theorem clearDecision_ped (e : Engine) : (clearDecision e).ped = e.ped := by simp [clearDecision]
@[simp] theorem clearDecision_xfer (e : Engine) : (clearDecision e).xfer = e.xfer := by simp [clearDecision]
@[simp] theorem clearDecision_evq (e : Engine) : (clearDecision e).evq = e.evq := by simp [clearDecision]
@[simp] theorem clearDecision_fol (e : Engine) : (clearDecision e).fol = { e.fol with decisionMade := false } := by
  simp [clearDecision]
@[simp] theorem lowerHoldOff_clk (e : Engine) : (lowerHoldOff e).clk = e.clk := rfl
@[simp] theorem lowerHoldOff_cyc (e : Engine) : (lowerHoldOff e).cyc = e.cyc := rfl
@[simp] theorem lowerHoldOff_layers (e : Engine) : (lowerHoldOff e).layers = e.layers := rfl
@[simp] theorem lowerHoldOff_cues (e : Engine) : (lowerHoldOff e).cues = e.cues := rfl
@[simp] theorem lowerHoldOff_slots (e : Engine) : (lowerHoldOff e).slots = e.slots := rfl
@[simp] theorem lowerHoldOff_mem (e : Engine) : (lowerHoldOff e).mem = e.mem := rfl
@[simp] theorem lowerHoldOff_voices (e : Engine) : (lowerHoldOff e).voices = e.voices := rfl
@[simp] theorem lowerHoldOff_mix (e : Engine) : (lowerHoldOff e).mix = e.mix := rfl
@[simp] theorem lowerHoldOff_ports (e : Engine) : (lowerHoldOff e).ports = e.ports := rfl
@[simp] theorem lowerHoldOff_lanes (e : Engine) : (lowerHoldOff e).lanes = e.lanes := rfl
@[simp] theorem lowerHoldOff_ped (e : Engine) : (lowerHoldOff e).ped = e.ped := rfl
@[simp] theorem lowerHoldOff_xfer (e : Engine) : (lowerHoldOff e).xfer = e.xfer := rfl
@[simp] theorem lowerHoldOff_evq (e : Engine) : (lowerHoldOff e).evq = e.evq := rfl
@[simp] theorem lowerHoldOff_heard (e : Engine) : (lowerHoldOff e).heard = e.heard := rfl

/-! ## Transfer -/

@[simp] theorem setRelease_clk (l : LayerIx) (on : Bool) (e : Engine) : (setRelease l on e).clk = e.clk := rfl
@[simp] theorem setRelease_cyc (l : LayerIx) (on : Bool) (e : Engine) : (setRelease l on e).cyc = e.cyc := rfl
@[simp] theorem setRelease_fol (l : LayerIx) (on : Bool) (e : Engine) : (setRelease l on e).fol = e.fol := rfl
@[simp] theorem setRelease_layers (l : LayerIx) (on : Bool) (e : Engine) :
    (setRelease l on e).layers = e.layers := rfl
@[simp] theorem setRelease_cues (l : LayerIx) (on : Bool) (e : Engine) :
    (setRelease l on e).cues = e.cues := rfl
@[simp] theorem setRelease_slots (l : LayerIx) (on : Bool) (e : Engine) :
    (setRelease l on e).slots = e.slots := rfl
@[simp] theorem setRelease_mem (l : LayerIx) (on : Bool) (e : Engine) : (setRelease l on e).mem = e.mem := rfl
@[simp] theorem setRelease_voices (l : LayerIx) (on : Bool) (e : Engine) :
    (setRelease l on e).voices = e.voices := rfl
@[simp] theorem setRelease_mix (l : LayerIx) (on : Bool) (e : Engine) : (setRelease l on e).mix = e.mix := rfl
@[simp] theorem setRelease_ports (l : LayerIx) (on : Bool) (e : Engine) :
    (setRelease l on e).ports = e.ports := rfl
@[simp] theorem setRelease_lanes (l : LayerIx) (on : Bool) (e : Engine) :
    (setRelease l on e).lanes = e.lanes := rfl
@[simp] theorem setRelease_ped (l : LayerIx) (on : Bool) (e : Engine) : (setRelease l on e).ped = e.ped := rfl
@[simp] theorem setRelease_evq (l : LayerIx) (on : Bool) (e : Engine) : (setRelease l on e).evq = e.evq := rfl
@[simp] theorem setRelease_heard (l : LayerIx) (on : Bool) (e : Engine) : (setRelease l on e).heard = e.heard := rfl

/-! ## The state -/

@[simp] theorem State.onEng_pending (f : Engine → Engine) (s : State) : (s.onEng f).pending = s.pending := rfl
@[simp] theorem State.onEng_powered (f : Engine → Engine) (s : State) : (s.onEng f).powered = s.powered := rfl
@[simp] theorem State.onEng_freeCount (f : Engine → Engine) (s : State) :
    (s.onEng f).freeCount = s.freeCount := rfl
@[simp] theorem State.onEng_link (f : Engine → Engine) (s : State) : (s.onEng f).link = s.link := rfl
@[simp] theorem State.onEng_store (f : Engine → Engine) (s : State) : (s.onEng f).store = s.store := rfl
@[simp] theorem State.onEng_eng (f : Engine → Engine) (s : State) : (s.onEng f).eng = f s.eng := rfl
@[simp] theorem State.reply_pending (k t : Byte) (a : Answer) (s : State) :
    (s.reply k t a).pending = s.pending := rfl
@[simp] theorem State.reply_powered (k t : Byte) (a : Answer) (s : State) :
    (s.reply k t a).powered = s.powered := rfl
@[simp] theorem State.reply_freeCount (k t : Byte) (a : Answer) (s : State) :
    (s.reply k t a).freeCount = s.freeCount := rfl
@[simp] theorem State.reply_eng (k t : Byte) (a : Answer) (s : State) : (s.reply k t a).eng = s.eng := rfl
@[simp] theorem State.reply_store (k t : Byte) (a : Answer) (s : State) :
    (s.reply k t a).store = s.store := rfl
@[simp] theorem State.reply_link (k t : Byte) (a : Answer) (s : State) :
    (s.reply k t a).link = queueReply k t a.status a.data s.link := rfl
@[simp] theorem State.sends_pending (b : List Byte) (s : State) : (s.sends b).pending = s.pending := rfl
@[simp] theorem State.sends_powered (b : List Byte) (s : State) : (s.sends b).powered = s.powered := rfl
@[simp] theorem State.sends_freeCount (b : List Byte) (s : State) : (s.sends b).freeCount = s.freeCount := rfl
@[simp] theorem State.sends_eng (b : List Byte) (s : State) : (s.sends b).eng = s.eng := rfl
@[simp] theorem State.sends_store (b : List Byte) (s : State) : (s.sends b).store = s.store := rfl

/-! ## The link -/

@[simp] theorem queueReply_inbound (k t : Byte) (x : Status) (d : List ReplyItem) (lk : Link) :
    (queueReply k t x d lk).inbound = lk.inbound := rfl
@[simp] theorem queueReply_unanswered (k t : Byte) (x : Status) (d : List ReplyItem) (lk : Link) :
    (queueReply k t x d lk).unanswered = lk.unanswered := rfl
@[simp] theorem queueReply_miso (k t : Byte) (x : Status) (d : List ReplyItem) (lk : Link) :
    (queueReply k t x d lk).miso = lk.miso := rfl
@[simp] theorem queueReply_overrun (k t : Byte) (x : Status) (d : List ReplyItem) (lk : Link) :
    (queueReply k t x d lk).overrun = false := rfl

end Sys2Proof.Machine
end

