-- ==== Sys2Proof/Laws/Link.lean ====
section
/-! SUPPORT. What the operations of the link can do: taking the head of the inbound queue, the answer of a
command, a report joining the event queue, a message offered and one collected. -/

namespace Sys2Proof.Machine

/-! ## The command processor (R179) -/

/-- A row takes the head of its kind. -/
theorem take_ready {s : State} {m : Message} {rest : List Message} (h : s.Ready m rest)
    {want : Byte → Bool} (hw : want m.kind = true) (f : Message → State → State) :
    s.take want f = f m { s with link := { s.link with inbound := rest } } := by
  simp [State.take, h.head, h.started, hw]

/-- A row leaves alone a head of another kind. -/
theorem take_other {s : State} {want : Byte → Bool} (h : ∀ m ∈ s.link.inbound.head?, want m.kind = false)
    (f : Message → State → State) : s.take want f = s := by
  unfold State.take
  split
  · rfl
  · rename_i m rest hh
    have := h m (by simp [hh])
    simp [this]

/-- A known kind's reply bears the kind + 128 (R180). -/
theorem replyKind_known {kind : Byte} (h : kind.toNat < 32) : replyKind kind = kind + 128 := by
  simp [replyKind, h]

/-- The reply to a command of a known kind that has left the inbound queue. -/
theorem reply_answered {s : State} {m : Message} {rest : List Message} (hk : m.kind.toNat < 32) (a : Answer)
    (e : Engine) :
    ({ s with eng := e, link := { s.link with inbound := rest } } : State).reply m.kind m.tag a
      = s.answered m rest a.status a.data e := by
  simp [State.reply, queueReply, State.answered, replyKind_known hk]

/-- A command of the engine that is whole answers what the engine's command answers. -/
theorem commandRow_takes {s : State} {kind : Nat} {m : Message} {payload : List Byte} {rest : List Message}
    (h : s.Takes kind m payload rest) (hk : kind < 32) (cmd : List Byte → Engine → Engine × Answer) :
    commandRow kind cmd s
      = .next (s.answered m rest (cmd payload s.eng).2.status (cmd payload s.eng).2.data (cmd payload s.eng).1) := by
  have hm : isKind kind m.kind = true := by simp [isKind, h.kind]
  simp only [commandRow, runCommand, State.whenOn, h.powered, if_true]
  rw [take_ready h.toReady hm]
  simp only [answerWith, h.whole, h.payload]
  simpa using reply_answered (s := s) (rest := rest) (by simpa [h.kind] using hk) _ _

/-- An oversize command of the engine is answered BAD_LENGTH and changes nothing else (R175). -/
theorem commandRow_oversize {s : State} {kind : Nat} {m : Message} {rest : List Message}
    (h : s.Ready m rest) (hm : m.kind.toNat = kind) (hk : kind < 32) (ho : m.oversize = true)
    (cmd : List Byte → Engine → Engine × Answer) :
    commandRow kind cmd s = .next (s.refused m rest .badLength) := by
  have hw : isKind kind m.kind = true := by simp [isKind, hm]
  simp only [commandRow, runCommand, State.whenOn, h.powered, if_true]
  rw [take_ready h hw]
  simp only [answerWith, ho, if_true]
  exact congrArg _ (reply_answered (s := s) (rest := rest) (by omega) { status := .badLength, data := [] } s.eng)

/-- A row outside the engine's commands that takes the head runs its own meaning. -/
theorem stateRow_takes {s : State} {kind : Nat} {m : Message} {payload : List Byte} {rest : List Message}
    (h : s.Takes kind m payload rest) (f : Message → State → State) :
    stateRow (State.take (isKind kind) f) s = .next (f m { s with link := { s.link with inbound := rest } }) := by
  simp only [stateRow, State.whenOn, if_pos h.powered]
  rw [take_ready h.toReady (by simp [isKind, h.kind])]

/-- A command that may be in flight: its reply, or the state that has started it (R179). -/
theorem startWith_takes {s : State} {kind : Nat} {m : Message} {payload : List Byte} {rest : List Message}
    (h : s.Takes kind m payload rest) (hk : kind < 32)
    (cmd : Byte → List Byte → Engine → Engine × Option Answer) :
    stateRow (State.take (isKind kind) (startWith cmd)) s
      = .next (match (cmd m.tag payload s.eng).2 with
          | some a => s.answered m rest a.status a.data (cmd m.tag payload s.eng).1
          | none => s.started rest (cmd m.tag payload s.eng).1 s.store) := by
  rw [stateRow_takes h]
  have hm : m.kind.toNat < 32 := h.kind ▸ hk
  simp only [startWith, h.whole, h.payload, Bool.false_eq_true, if_false]
  cases ha : (cmd m.tag payload s.eng).2 with
  | some a => exact congrArg _ (reply_answered (s := s) (rest := rest) hm a _)
  | none => rfl

/-! ## The event queue (R181, R182) -/

/-- A report of a disabled kind leaves the queue alone. -/
theorem queueReport_disabled {ev : Event} {q : EventQueue} (h : q.enables ev = false) (k p : Nat) :
    queueReport ev k p q = q := by simp [queueReport, h]

/-- An enabled report joins a queue that is not full, and carries and clears the events-lost flag. -/
theorem queueReport_joins {ev : Event} {q : EventQueue} (h : q.enables ev = true) (hl : q.list.length < 24)
    (k p : Nat) :
    queueReport ev k p q = { q with list := q.list ++ [{ event := ev, lost := q.lost, k := k, p := p }], lost := false } := by
  simp [queueReport, h, Config.maxReports, hl]

/-- An enabled report is lost when the queue is full. -/
theorem queueReport_full {ev : Event} {q : EventQueue} (h : q.enables ev = true) (hl : 24 ≤ q.list.length)
    (k p : Nat) : queueReport ev k p q = { q with lost := true } := by
  simp [queueReport, h, Config.maxReports, Nat.not_lt.2 hl]

/-- No report changes the mask. -/
@[simp] theorem queueReport_mask (ev : Event) (k p : Nat) (q : EventQueue) : (queueReport ev k p q).mask = q.mask := by
  unfold queueReport; split <;> [split; skip] <;> rfl

/-- Without a report the queue stands. -/
@[simp] theorem told_nil (q : EventQueue) (k p : Nat) : q.told k p [] = q := rfl

/-- The first report joins first. -/
@[simp] theorem told_cons (q : EventQueue) (k p : Nat) (ev : Event) (rest : List Event) :
    q.told k p (ev :: rest) = (queueReport ev k p q).told k p rest := rfl

/-- Reports told in two parts are told in a row. -/
theorem told_append (q : EventQueue) (k p : Nat) (xs ys : List Event) :
    q.told k p (xs ++ ys) = (q.told k p xs).told k p ys := by simp [EventQueue.told]

/-- Queueing a report never takes the queue beyond its size (R181). -/
theorem queueReport_length {q : EventQueue} (h : q.list.length ≤ Config.maxReports) (ev : Event) (k p : Nat) :
    (queueReport ev k p q).list.length ≤ Config.maxReports := by
  unfold queueReport
  split
  · split
    · simp; omega
    · simpa using h
  · exact h

/-- A report changes only the event queue. -/
theorem post_eq (ev : Event) (e : Engine) :
    post ev e = { e with evq := queueReport ev e.cyc.k e.cyc.p e.evq } := rfl

/-- A block's report, in the words of the statements. -/
theorem post_reports (ev : Event) (e : Engine) : post ev e = e.reports ev := rfl

/-! ## Acceptance and collection (R177, R178) -/

/-- A message offered while fewer than 8 commands are unanswered joins the inbound queue. -/
theorem offer_accepted {s : State} (h : s.link.unanswered < 8) (m : Message) :
    s.offer m = { s with link := { s.link with inbound := s.link.inbound ++ [m], unanswered := s.link.unanswered + 1 } } := by
  simp [State.offer, Config.maxUnanswered, h]

/-- A message offered while 8 are unanswered is discarded and sets the overrun flag. -/
theorem offer_discarded {s : State} (h : 8 ≤ s.link.unanswered) (m : Message) :
    s.offer m = { s with link := { s.link with overrun := true } } := by
  simp [State.offer, Config.maxUnanswered, Nat.not_lt.2 h]

/-- A collected reply leaves its queue and answers its command. -/
theorem collected_reply {s : State} {r : Reply} {rest : List Reply} (h : s.link.replies = r :: rest) :
    s.collected = { s with link := { s.link with replies := rest, unanswered := s.link.unanswered - 1 } } := by
  simp [State.collected, h]

/-- With no reply waiting a collected report leaves the event queue. -/
theorem collected_report {s : State} {r : Report} {rest : List Report} (h : s.link.replies = [])
    (he : s.eng.evq.list = r :: rest) :
    s.collected = { s with eng := { s.eng with evq := { s.eng.evq with list := rest } } } := by
  simp [State.collected, h, he]

/-! ## Setups (R192) -/

/-- A setup's value holds its messages, and what follows them is read on. -/
theorem embedded_setup (msgs : List (Byte × List Byte)) (h : ∀ m ∈ msgs, m.2.length ≤ 255) (more : List Byte)
    (fuel : Nat) (hf : msgs.length ≤ fuel) :
    embedded fuel (setupValue msgs ++ more) = (embedded (fuel - msgs.length) more).map (msgs ++ ·) := by
  induction msgs generalizing fuel with
  | nil => simp [setupValue, Option.map_id']
  | cons m rest ih =>
    obtain ⟨kind, payload⟩ := m
    obtain ⟨f, rfl⟩ : ∃ f, fuel = f + 1 := ⟨fuel - 1, by simp at hf; omega⟩
    have hl : (byte payload.length).toNat = payload.length := by
      have : payload.length ≤ 255 := h _ (List.mem_cons_self ..)
      simp only [byte, BitVec.toNat_ofNat]; omega
    have hr := ih (fun m hm => h m (List.mem_cons_of_mem _ hm)) f (by simpa using hf)
    simp only [setupValue, List.flatMap_cons, List.cons_append, List.append_assoc, embedded, hl]
    simp only [setupValue] at hr
    simp [List.length_append, hr, Option.map_map, Function.comp_def]

/-- Messages answered OK one after another are all executed. -/
theorem runEmbedded_all (msgs : List (Byte × List Byte)) (i : Nat) (through : Nat → Engine)
    (h : ∀ j m, msgs[j]? = some m → (configCommand m.1.toNat m.2 (through (i + j))).1 = through (i + j + 1)
      ∧ (configCommand m.1.toNat m.2 (through (i + j))).2.status = .ok) :
    runEmbedded i msgs (through i) = (through (i + msgs.length), .ok, -1) := by
  induction msgs generalizing i with
  | nil => rfl
  | cons m rest ih =>
    obtain ⟨kind, payload⟩ := m
    have h0 := h 0 _ rfl
    simp only [Nat.add_zero] at h0
    have hr := ih (i + 1) fun j m hm => by
      have hj : i + 1 + j = i + (j + 1) := by omega
      simpa only [hj] using h (j + 1) m (by simpa using hm)
    have hn : i + 1 + rest.length = i + (rest.length + 1) := by omega
    simp only [runEmbedded, h0.2, if_true, h0.1, hr, List.length_cons, hn]

end Sys2Proof.Machine
end

