-- ==== Sys2Proof/Laws/Units.lean ====
section
/-! SUPPORT. What the shared operations on the units can do: changes of a layer's state, slots, chains and
pages, holds, the splice, ports, and the rows that run an operation of the engine. -/

namespace Sys2Proof.Machine

/-! ## Rows -/

/-- A row of the engine while the part has power. -/
theorem engineRow_on {s : State} (h : s.powered = true) (f : Engine → Engine) :
    engineRow f s = .next (s.giving (f s.eng)) := by
  simp [engineRow, State.whenOn, h, State.onEng, State.giving]

/-- A row whose event is due runs its operation. -/
theorem whenDue_due {due : Engine → Bool} {e : Engine} (h : due e = true) (f : Engine → Engine) :
    whenDue due f e = f e := by simp [whenDue, h]

/-- A row whose event is not due leaves the engine as it is. -/
theorem whenDue_not {due : Engine → Bool} {e : Engine} (h : due e = false) (f : Engine → Engine) :
    whenDue due f e = e := by simp [whenDue, h]

/-! ## Layers and slots -/

/-- A change of a layer's state: state and last change, then LAYER_STATE (R42). -/
theorem setLayerState_eq (l : LayerIx) (st : LayerState) (cause : LayerCause) (n : Nat) (e : Engine) :
    setLayerState l st cause n e
      = (modLayer l (fun r => { r with state := st, lastChange := e.cyc.k }) e).reports (.layerState l st cause n) :=
  rfl

/-- Releasing the slot of a layer: the slot keeps only its staging, the layer names none (R83). -/
theorem releaseSlot_eq {e : Engine} {l : LayerIx} {s : SlotIx} (h : e.layers[l].slot = some s) :
    releaseSlot l e
      = { e with layers := upd e.layers l fun r => { r with slot := none },
                 slots := upd e.slots s Slot.released } := by
  simp only [Fin.getElem_fin] at h
  simp only [releaseSlot, Fin.getElem_fin, h, modLayer, modSlot]
  rfl

/-- A layer without a slot has none to release. -/
theorem releaseSlot_none {e : Engine} {l : LayerIx} (h : e.layers[l].slot = none) : releaseSlot l e = e := by
  simp only [Fin.getElem_fin] at h
  simp [releaseSlot, h]

/-- A slot with no open gap run closes none (R101). -/
theorem closeGap_none {e : Engine} {s : SlotIx} (h : openGap e.slots[s] = none) : closeGap s e = e := by
  simp only [closeGap, h]

/-- Slots in which a chain has no entries are left as they are when it is freed (R102). -/
theorem dropEntries_none {l : LayerIx} {key : Nat} {sl : Slot}
    (h : ∀ en ∈ sl.staging, ¬(en.layer = l ∧ en.key = key)) : dropEntries l key sl = sl := by
  have : sl.staging.filter (fun en => !(en.layer == l && en.key == key)) = sl.staging :=
    List.filter_eq_self.2 fun en hen => by simpa [imp_iff_not_or] using h en hen
  simp only [dropEntries, this]

/-! ## Chains and pages -/

/-- An absent chain frees nothing. -/
@[simp] theorem freeChain_none (l : LayerIx) (e : Engine) : freeChain l none e = e := rfl

/-- A freed chain: its pages join the tail of the free list in chain order (R105). -/
theorem freeChain_free (l : LayerIx) (chain : Option (List Nat)) (e : Engine) :
    (freeChain l chain e).mem.free = e.mem.free ++ chain.getD [] := by
  match chain with
  | none => simp
  | some [] => simp [freeChain]
  | some (k :: rest) => rfl

/-- Freeing a chain touches the free list, the grant, the job that fills it and the slots' staging, and nothing else
(R102, R117, R120). -/
theorem freeChain_frame (l : LayerIx) (chain : Option (List Nat)) (e : Engine) :
    let t := freeChain l chain e
    t = { e with mem := { e.mem with free := t.mem.free, grant := t.mem.grant, jobs := t.mem.jobs, work := t.mem.work },
                 slots := t.slots } := by
  match chain with
  | none => rfl
  | some [] => rfl
  | some (k :: rest) => rfl

/-- The jobs of a layer that fill the freed chain leave the list (R117). -/
theorem freeChain_jobs (l : LayerIx) (key : Nat) (rest : List Nat) (e : Engine) :
    (freeChain l (some (key :: rest)) e).mem.jobs
      = e.mem.jobs.filter fun j => !(j.layer == l && j.key == some key) := rfl

/-- A grant that is not one of those is not cancelled (R120). -/
theorem cancelGrant_none {e : Engine} {p : Grant → Bool} (h : ∀ g, e.mem.grant = some g → p g = false) :
    cancelGrant p e = e := by
  have hg : (e.mem.grant.map fun g => if p g then { g with cancelled := true } else g) = e.mem.grant := by
    cases hm : e.mem.grant with
    | none => rfl
    | some g => simp [h g hm]
  simp only [cancelGrant, hg]

/-- With the port idle no grant is cancelled (R120). -/
theorem cancelGrant_idle {e : Engine} (h : e.mem.grant = none) (p : Grant → Bool) : cancelGrant p e = e :=
  cancelGrant_none fun g hg => by simp [h] at hg

/-- Where no job is one of those, the page filler goes on as it was (R117). -/
theorem dropJobs_none {e : Engine} {p : Job → Bool} (h : ∀ j ∈ e.mem.jobs, p j = false) : dropJobs p e = e := by
  have hf : e.mem.jobs.filter (fun j => !p j) = e.mem.jobs := List.filter_eq_self.2 fun j hj => by simp [h j hj]
  have hr : runsJob p e = false := by
    cases hj : e.mem.jobs with
    | nil => simp [runsJob, hj]
    | cons j rest => simp [runsJob, hj, h j (by simp [hj])]
  unfold dropJobs
  rw [hr, hf, cancelGrant_none (fun _ _ => by simp)]
  simp

/-- The walk stops at once when enough pages are at hand (R108). -/
theorem reclaimWalk_enough {need extra : Nat} {e : Engine} (h : need ≤ e.mem.free.length + extra)
    (own : Option LayerIx) (list : List (LayerIx × AgeKind)) : reclaimWalk need extra own list e = e := by
  cases list with
  | nil => rfl
  | cons a rest => obtain ⟨l, k⟩ := a; simp [reclaimWalk, h]

/-- With enough free pages an allocation takes the first `n` and reclaims nothing (R106). -/
theorem allocChain_enough {n : Nat} {e : Engine} (h : n ≤ e.mem.free.length) :
    allocChain n e
      = (some (e.mem.free.take n), { e with mem := { e.mem with free := e.mem.free.drop n } }) := by
  simp [allocChain, reclaimWalk_enough (extra := 0) (by omega : n ≤ e.mem.free.length + 0), h, takePages]

/-- An allocation that answers gives the first `n` pages of the free list the walk has left (R106, R108). -/
theorem allocChain_some {n : Nat} {e e1 : Engine} {pages : List Nat} (h : allocChain n e = (some pages, e1)) :
    pages.length = n ∧ pages ++ e1.mem.free = (reclaimWalk n 0 none e.mem.age e).mem.free := by
  simp only [allocChain, takePages] at h
  split at h
  · cases h; exact ⟨by simp; omega, List.take_append_drop _ _⟩
  · cases h

/-- An allocation answered NO_SPACE leaves the walk's engine, short of pages (R106). -/
theorem allocChain_short {n : Nat} {e e1 : Engine} (h : allocChain n e = (none, e1)) :
    e1 = reclaimWalk n 0 none e.mem.age e ∧ e1.mem.free.length < n := by
  simp only [allocChain, takePages] at h
  split at h
  · cases h
  · cases h; exact ⟨rfl, by omega⟩

/-- A layer without a job keeps the job list (R117). -/
theorem dropJob_none {e : Engine} {l : LayerIx} (h : ∀ j ∈ e.mem.jobs, j.layer ≠ l) : dropJob l e = e :=
  dropJobs_none fun j hj => by simpa using h j hj

/-! ## Holds (R168) -/

/-- A hold that is not PENDING, or whose conditions do not hold, stays as it is. -/
theorem grantHold_none {e : Engine} {l : LayerIx} (h : ¬(e.layers[l].hold = .pending ∧ holdConditions e l = true)) :
    grantHold l e = e := by simp only [grantHold, if_neg h]

/-- When no PENDING hold can be granted, none is. -/
theorem grantHolds_none {e : Engine} (h : ∀ l : LayerIx, e.layers[l].hold ≠ .pending) : grantHolds e = e := by
  have hg : ∀ l : LayerIx, grantHold l e = e := fun l => grantHold_none fun hp => h l hp.1
  simp [grantHolds, eachLayer, layerIxs, hg]

/-- A granted hold: HELD, and HOLD_GRANTED is queued. -/
theorem grantHold_grants {e : Engine} {l : LayerIx} (h : e.layers[l].hold = .pending ∧ holdConditions e l = true) :
    grantHold l e = (modLayer l (fun r => { r with hold := .held }) e).reports (.holdGranted l) := by
  simp only [grantHold, if_pos h]; rfl

/-! ## The splice -/

/-- With no splice there is none to abandon, end, leave, align or jump. -/
theorem splice_idle {e : Engine} (h : e.cyc.splice = .idle) :
    (∀ reason, abandonSplice reason e = e) ∧ endCrossfade e = e ∧ captureStops e = e
      ∧ alignStreams e = e ∧ readyToJump e = false ∧ ∀ v, leaveSplice v e = e := by
  simp [abandonSplice, endCrossfade, captureStops, alignStreams, readyToJump, leaveSplice, h]

/-- A splice in FETCHING does not end a crossfade. -/
theorem endCrossfade_fetching {e : Engine} {r : SpliceRec} (h : e.cyc.splice = .fetching r) : endCrossfade e = e := by
  simp only [endCrossfade, h]

/-- The arbiter finds the stream of a splice in FETCHING from its start on, and any other as it stands (R20; entry 49). -/
theorem heldStream_cases (e : Engine) (l : LayerIx) :
    (∃ r, e.cyc.splice = .fetching r ∧ heldStream e l = streamFrom e r.j l)
      ∨ ((∀ r, e.cyc.splice ≠ .fetching r) ∧ heldStream e l = e.voices[l].spl) := by
  unfold heldStream
  split
  · exact .inl ⟨_, ‹_›, rfl⟩
  · exact .inr ⟨by assumption, rfl⟩

/-- A run that moves on gains no frame. -/
theorem runAdvance_length (len old new : Nat) (r : Run) : (runAdvance len old new r).frames.length ≤ r.frames.length := by
  unfold runAdvance
  dsimp only
  split_ifs <;> simp

/-- A stream read from its start on gains no frame (R20). -/
theorem alignStream_length (len start : Nat) (r : Run) : (alignStream len start r).frames.length ≤ r.frames.length := by
  unfold alignStream
  split_ifs
  · exact runAdvance_length ..
  · simp

/-- A voice that leaves a crossfade is changed in its staging alone: it keeps the new stream while the count is below
X, its main staging from then on (R23, R132). -/
theorem Voice.leaves_cases (len : Nat) (r : SpliceRec) (v : Voice) :
    (r.count < r.x ∧ v.leaves len r = mergeStreams len v) ∨ (r.x ≤ r.count ∧ v.leaves len r = v.unspliced) := by
  by_cases h : r.count < r.x
  · exact .inl ⟨h, if_pos h⟩
  · exact .inr ⟨by omega, if_neg h⟩

/-- Without a splice a stopped layer's voice goes idle at once or is left to fade (R48, R131). -/
theorem stopVoice_cases {e : Engine} (h : e.cyc.splice = .idle) (l : LayerIx) :
    stopVoice l e = if e.voices[l].stopsAtOnce then idleVoice l e else e := by
  simp only [stopVoice, (splice_idle h).2.2.2.2.2 l]

/-- A CYCLE boundary on which no layer wraps is one of no layer (R7, R16). -/
theorem cycleBoundary_bare {e : Engine} {wave : Nat}
    (h : ∀ l : LayerIx, wrapsNow (bareBoundary wave e) l = false) : cycleBoundary wave e = bareBoundary wave e := by
  unfold cycleBoundary eachLayer
  generalize bareBoundary wave e = b at h ⊢
  induction layerIxs with
  | nil => rfl
  | cons l ls ih => simpa [h l] using ih

/-- Where no sampling event is due none occurs (R159). -/
theorem samplingEvent_not_due {e : Engine} (h : e.ped.due = false) (pins : Vector (BitVec 10) 4) :
    samplingEvent pins e = e := by simp [samplingEvent, h]

/-- A follower with no coast due does not coast (R32). -/
theorem coast_not_due {e : Engine} (h : e.fol.coastDue = false) (hn : e.heard = none) : coast e = e := by
  simp [coast, onFollower_unheard hn, h]

/-- A base capture that has not reached its longest does not close by itself (R4). -/
theorem autoClose_not_due {e : Engine} (h : autoCloseDue e = false) : autoClose e = e := by simp [autoClose, h]

/-! ## The frame's pair (R138, R139) -/

/-- A pair that does not saturate is not reported. -/
theorem reportClip_none {e : Engine} (h : e.mix.clipping = none) : reportClip e = e := by simp [reportClip, h]

/-- The first saturation of a window: the flag is set and OUTPUT_CLIP queued. -/
theorem reportClip_first {e : Engine} {sides : ClipSides} (h : e.mix.clipping = some sides)
    (hc : e.mix.clipReported = false) :
    reportClip e = ({ e with mix := { e.mix with clipping := none, clipReported := true } } : Engine).reports
      (.outputClip sides) := by
  simp only [reportClip, h, hc]; rfl

/-- A later saturation of a window is not reported. -/
theorem reportClip_again {e : Engine} (hc : e.mix.clipReported = true) :
    reportClip e = { e with mix := { e.mix with clipping := none } } := by
  unfold reportClip
  split
  · rename_i h; rw [← h]
  · simp only [hc, if_true]

/-- While no pair is formed there is none to form again. -/
theorem Mixer.shift_none {mx : Mixer} (h : mx.computed = none) (d : Int) (w : Nat × Nat) : mx.shift d w = mx := by
  simp [Mixer.shift, h]

/-- Forming a pair again touches the pair, its sums and the sides that saturate, and nothing else. -/
theorem Mixer.shift_frame (mx : Mixer) (d : Int) (w : Nat × Nat) :
    mx.shift d w = { mx with computed := (mx.shift d w).computed, sums := (mx.shift d w).sums,
                             clipping := (mx.shift d w).clipping } := by
  unfold Mixer.shift
  split <;> rfl

/-! ## Ports -/

/-- A port with nothing due is left as it is. -/
theorem settlePort_calm {e : Engine} {p : PortIx} (h : (e.ports[p]).calm) : settlePort p e = e := by
  obtain ⟨a, b, c⟩ := h
  simp only [Fin.getElem_fin] at a b c
  have h1 : lockDue e.ports[p] = false := by simp [lockDue]; exact fun h => a h
  have h2 : lockLostDue e.ports[p] = false := by simp [lockLostDue]; exact fun h => b h
  simp only [Fin.getElem_fin] at h1 h2
  simp [settlePort, acquireLock, loseLock, slipEnd, h1, h2, c]

/-- Noting what a completing capture staged changes the lanes alone (entry 51). -/
theorem noteTaken_only (s : SlotIx) (l : LayerIx) (e : Engine) : ∃ lanes, noteTaken s l e = { e with lanes := lanes } := by
  simp only [noteTaken]
  split
  · exact ⟨_, rfl⟩
  · exact ⟨e.lanes, rfl⟩

/-- Taking an onset back changes the follower, the pending cues and the event queue, and ends what was noted of it
(R156; entry 51). -/
theorem unhear_only (h : Heard) (e : Engine) : ∃ cues evq,
    unhear h e = { e with heard := none, fol := h.without, cues := cues, evq := evq } := ⟨_, _, rfl⟩

/-- A port no lane has formed its sample from silences none (R156; entry 51). -/
theorem silenceLanes_unheard {e : Engine} {p : PortIx} (h : e.unheard p) : silenceLanes p e = e := by
  have hl : ∀ ls : List LaneIx,
      ls.foldl (fun e l => if e.lanes[l].formed = some p then silenceLane l e else e) e = e := by
    intro ls
    induction ls with
    | nil => rfl
    | cons l rest ih => simp only [List.foldl_cons, if_neg (h l), ih]
  exact hl quadIxs

/-- What a port does as it leaves a lock state: the SLIP of a recovery in progress, and it is emptied (R149). -/
theorem leaveLock_eq (p : PortIx) (k : Lock) (e : Engine) :
    modPort p (fun q => { q.emptied with lock := k, markerSeen := q.markerSeen && q.lock != .disabled }) (endRecovery p e)
      = (modPort p (fun q => { q.emptied with lock := k, markerSeen := q.markerSeen && q.lock != .disabled }) e).slipEnded p
          e.ports[p] := by
  simp only [endRecovery, Engine.slipEnded]
  split
  · rfl
  · simp only [modPort, post, Engine.reports, upd_upd]
    rfl

/-- A SEARCHING port that is disabled: emptied, with LANE_LOCK after the SLIP of a recovery in progress (R149). -/
theorem dropLock_searching {e : Engine} {p : PortIx} {k : Lock} (h : e.ports[p].lock = .searching)
    (hk : k ≠ .searching) :
    dropLock p k e = ((modPort p (fun q =>
      { q.emptied with lock := k, markerSeen := q.markerSeen && q.lock != .disabled }) e).slipEnded p e.ports[p]).reports
        (.laneLock p k) := by
  simp only [dropLock, h, if_neg (Ne.symm hk), leaveLock_eq]
  rfl

/-- An unheard LOCKED port, not the clock source, that leaves LOCKED: emptied, with LANE_LOCK after the SLIP of a
recovery in progress (R149, R153). -/
theorem dropLock_locked {e : Engine} {p : PortIx} {k : Lock} (h : e.ports[p].lock = .locked) (hk : k ≠ .locked)
    (hu : e.unheard p) (hb : bypassed e p = false) :
    dropLock p k e = (((modPort p (fun q =>
      { q.emptied with lock := k, markerSeen := q.markerSeen && q.lock != .disabled }) e).slipEnded p e.ports[p]).unawaited
        p).reports (.laneLock p k) := by
  have hl : ((modPort p (fun q => { q.emptied with lock := k, markerSeen := q.markerSeen && q.lock != .disabled }) e).slipEnded
      p e.ports[p]).unheard p := by
    unfold Engine.slipEnded
    split <;> exact hu
  simp only [dropLock, h, if_neg (Ne.symm hk), leaveLock_eq, hb, silenceLanes_unheard hl]
  rfl

/-- A port already in a lock state keeps it with no report (R149). -/
theorem dropLock_same {e : Engine} {p : PortIx} {k : Lock} (h : e.ports[p].lock = k) : dropLock p k e = e := by
  simp only [dropLock, if_pos h]

end Sys2Proof.Machine
end

