-- ==== Sys2Proof/Laws/Cues.lean ====
section
/-! SUPPORT. What executing a cue can do: how cues count a boundary (R68), which cue is next (R70), how it leaves the
queue, the shape of its execution (R71, R72), and what is still due on a frame that ends (entry 3). -/

namespace Sys2Proof.Machine

/-! ## How cues count a boundary (R68) -/

/-- A cue that does not await the boundary, or is due already, is left as it is. -/
theorem Cue.count_not {b : Boundary} {c : Cue} (h : ¬(c.awaits b = true ∧ 0 < c.remaining)) (wave : Nat) :
    c.count b wave = c := if_neg h

/-- Each cue of a list counts the boundary, in a wave no earlier than those of the due cues older than it (R70). -/
theorem countList_eq (b : Boundary) (wave : Nat) (list : List Cue) :
    countList b wave list = list.mapIdx fun i c => c.count b (max wave (dueWave (list.take i))) := by
  induction list generalizing wave with
  | nil => rfl
  | cons c rest ih =>
    simp only [countList, List.mapIdx_cons, ih, List.take_zero, dueWave, List.take_succ_cons, Nat.max_zero]
    refine congrArg _ (List.mapIdx_eq_mapIdx_iff.2 fun i _ => congrArg (Cue.count b · _) ?_)
    split <;> simp [Nat.max_assoc]

/-- Where no cue is due each counts the boundary in the wave given. -/
theorem countList_idle {list : List Cue} (h : ∀ c ∈ list, c.remaining ≠ 0) (b : Boundary) (wave : Nat) :
    countList b wave list = list.map (Cue.count b wave) := by
  induction list generalizing wave with
  | nil => rfl
  | cons c rest ih =>
    simp [countList, h c List.mem_cons_self, ih (fun d hd => h d (List.mem_cons_of_mem _ hd))]

/-! ## Whose turn it is (R70) -/

/-- The chosen cue stands in the list and is due. -/
theorem firstDue_mem {list : List Cue} {c : Cue} (h : firstDue list = some c) : c ∈ list ∧ c.remaining = 0 := by
  induction list generalizing c with
  | nil => simp [firstDue] at h
  | cons d rest ih =>
    simp only [firstDue] at h
    split at h
    · split at h
      · split at h <;> cases h
        · exact ⟨List.mem_cons_of_mem _ (ih ‹_›).1, (ih ‹_›).2⟩
        · exact ⟨List.mem_cons_self, ‹_›⟩
      · cases h; exact ⟨List.mem_cons_self, ‹_›⟩
    · exact ⟨List.mem_cons_of_mem _ (ih h).1, (ih h).2⟩

/-- A due cue stands before due cues of no earlier wave. -/
theorem firstDue_head {c : Cue} {rest : List Cue} (hc : c.remaining = 0)
    (h : ∀ d ∈ rest, d.remaining = 0 → c.wave ≤ d.wave) : firstDue (c :: rest) = some c := by
  simp only [firstDue, hc, if_true]
  cases hr : firstDue rest with
  | none => rfl
  | some d =>
    have hd := firstDue_mem hr
    simp [Nat.not_lt.2 (h d hd.1 hd.2)]

/-- Due cues of a later wave, and cues not due, do not come first. -/
theorem firstDue_append {before tail : List Cue} {c : Cue} (h : firstDue tail = some c)
    (hb : ∀ d ∈ before, d.remaining = 0 → c.wave < d.wave) : firstDue (before ++ tail) = some c := by
  induction before with
  | nil => exact h
  | cons d rest ih =>
    have hr := ih fun x hx => hb x (List.mem_cons_of_mem _ hx)
    simp only [List.cons_append, firstDue, hr]
    split
    · simp [hb d List.mem_cons_self ‹_›]
    · rfl

/-- The cue at its turn is the next due one. -/
theorem nextDue_turn {s : State} {c : Cue} {before after : List Cue} (h : s.Turn c before after) :
    nextDue s.eng = some c := by
  rw [nextDue, h.list]
  exact firstDue_append (firstDue_head h.due h.later) h.earlier

/-- A cue that alone bears its number leaves the queue. -/
theorem removeCue_turn {s : State} {c : Cue} {before after : List Cue} (h : s.Turn c before after) :
    removeCue c.number s.eng = s.dequeued before after := by
  have hb : before.filter (fun d => d.number != c.number) = before :=
    List.filter_eq_self.2 fun d hd => by simpa using h.alone d (List.mem_append_left _ hd)
  have ha : after.filter (fun d => d.number != c.number) = after :=
    List.filter_eq_self.2 fun d hd => by simpa using h.alone d (List.mem_append_right _ hd)
  simp [removeCue, State.dequeued, h.list, List.filter_append, hb, ha]

/-- The row of the cue at its turn executes it. -/
theorem cueRow_turn {s : State} {c : Cue} {before after : List Cue} (h : s.Turn c before after)
    {want : Action → Bool} (hw : want c.action = true) :
    cueRow want s = .next { s with eng := executeCue c s.eng } := by
  simp [cueRow, engineRow, State.whenOn, h.powered, State.onEng, runDue, nextDue_turn h, hw]

/-! ## Execution (R71, R72) -/

/-- The lane of a cue, when it names one, is LOCKED (R72). -/
theorem laneLocked_of {e : Engine} {l : LaneIx} (h : e.lockedLane l) : laneLocked e l = true := by
  obtain ⟨p, hs, hl⟩ := h
  simp only [laneLocked, hs, hl]
  rfl

/-- A cue whose lane allows it and whose action succeeds: the action's engine, then CUE_DONE. -/
theorem cueRow_done {s : State} {c : Cue} {before after : List Cue} (h : s.Turn c before after)
    {want : Action → Bool} (hw : want c.action = true)
    (hl : ∀ l, c.action.lane? = some l → s.eng.lockedLane l) {e : Engine}
    (ha : actOn c (s.dequeued before after) = (e, none)) : cueRow want s = .next (s.cueDone c e) := by
  rw [cueRow_turn h hw, executeCue, removeCue_turn h, ha]
  cases hc : c.action.lane? with
  | none => rfl
  | some l => simp only [laneLocked_of (hl l hc), if_true]; rfl

/-- A cue whose lane allows it and whose action fails: CUE_FAILED and the return of an ARMED layer. -/
theorem cueRow_failed {s : State} {c : Cue} {before after : List Cue} (h : s.Turn c before after)
    {want : Action → Bool} (hw : want c.action = true)
    (hl : ∀ l, c.action.lane? = some l → s.eng.lockedLane l) {e : Engine} {r : FailReason}
    (ha : actOn c (s.dequeued before after) = (e, some r)) :
    cueRow want s
      = .next { s with eng := grantHolds (disarmFor c (e.reports (.cueFailed c.number c.target c.action r))) } := by
  rw [cueRow_turn h hw, executeCue, removeCue_turn h, ha]
  cases hc : c.action.lane? with
  | none => rfl
  | some l => simp only [laneLocked_of (hl l hc), if_true]; rfl

/-! ## What is still due on a frame that ends (entry 3) -/

/-- Where no cue is due none is next. -/
theorem firstDue_idle {list : List Cue} (h : ∀ c ∈ list, c.remaining ≠ 0) : firstDue list = none := by
  induction list with
  | nil => rfl
  | cons c rest ih =>
    simp [firstDue, h c List.mem_cons_self, ih fun d hd => h d (List.mem_cons_of_mem _ hd)]

/-- Where no cue is due none executes. -/
theorem runCues_idle {e : Engine} (h : nextDue e = none) (fuel : Nat) : runCues fuel e = e := by
  cases fuel <;> simp [runCues, h]

/-- A frame that ends with no cue and no auto-close due settles a coast at most (R32). -/
theorem settleCues_idle {e : Engine} (h : nextDue e = none) (ha : autoCloseDue e = false) :
    settleCues e = coast e := by
  rw [settleCues, autoClose_not_due ha, runCues_idle h]

end Sys2Proof.Machine
end

