-- ==== Sys2Proof/Laws/Memory.lean ====
section
/-! SUPPORT. The laws of a memory in canonical form, and that every operation of loop memory and of the store
keeps it: a read after a write, every other address, the form. -/

namespace Sys2Proof.Machine

/-! ## Cells -/

/-- The first address listed, if any, is above `a`. -/
def headAbove {w : Nat} (a : Nat) : List (Nat × BitVec w) → Bool
  | [] => true
  | (b, _) :: _ => decide (a < b)

/-- The canonical form of a list with an entry in front. -/
theorem cellsWf_cons {w : Nat} (a : Nat) (x : BitVec w) (rest : List (Nat × BitVec w)) :
    cellsWf ((a, x) :: rest) = (x != 0 && headAbove a rest && cellsWf rest) := by
  cases rest <;> simp [cellsWf, headAbove]

/-- In a canonical list whose first address is above `a`, `a` reads as 0. -/
theorem cellRead_below {w : Nat} (a : Nat) :
    ∀ cells : List (Nat × BitVec w), cellsWf cells = true → headAbove a cells = true → cellRead cells a = 0
  | [], _, _ => rfl
  | (b, x) :: rest, hw, ha => by
    simp only [cellsWf_cons, Bool.and_eq_true] at hw
    simp only [headAbove, decide_eq_true_eq] at ha
    have hne : b ≠ a := by omega
    have hr : headAbove a rest = true := by
      have := hw.1.2
      cases rest with
      | nil => rfl
      | cons c _ => simp [headAbove] at this ⊢; omega
    simp [cellRead, hne, cellRead_below a rest hw.2 hr]

/-- A write does not move the first address below `a` when the address written is above it. -/
theorem headAbove_cellWrite {w : Nat} (a b : Nat) (x : BitVec w) (h : a < b) :
    ∀ cells : List (Nat × BitVec w), cellsWf cells = true → headAbove a cells = true →
      headAbove a (cellWrite cells b x) = true
  | [], _, _ => by unfold cellWrite; split <;> simp [headAbove, h]
  | (c, y) :: rest, hw, hc => by
    simp only [cellsWf_cons, Bool.and_eq_true] at hw
    have hr := hw.1.2
    simp only [headAbove, decide_eq_true_eq] at hc
    unfold cellWrite
    split
    · split <;> simp [headAbove, h, hc]
    · split
      · split
        · cases rest with
          | nil => rfl
          | cons d _ => simp [headAbove] at hr ⊢; omega
        · simp [headAbove, h]
      · simp [headAbove, hc]

/-- A write keeps the canonical form. -/
theorem cellWrite_wf {w : Nat} (a : Nat) (x : BitVec w) :
    ∀ cells : List (Nat × BitVec w), cellsWf cells = true → cellsWf (cellWrite cells a x) = true
  | [], _ => by unfold cellWrite; split <;> simp_all [cellsWf]
  | (b, y) :: rest, hw => by
    have hw' := hw
    simp only [cellsWf_cons, Bool.and_eq_true] at hw'
    unfold cellWrite
    split
    · rename_i hab
      split
      · exact hw
      · rename_i hx
        simp only [cellsWf_cons a x ((b, y) :: rest), hw, Bool.and_eq_true, bne_iff_ne]
        exact ⟨⟨hx, by simp [headAbove, hab]⟩, trivial⟩
    · rename_i hab
      split
      · rename_i heq
        subst heq
        split
        · exact hw'.2
        · rename_i hx
          simp only [cellsWf_cons, Bool.and_eq_true, bne_iff_ne]
          exact ⟨⟨hx, hw'.1.2⟩, hw'.2⟩
      · rename_i hne
        simp only [cellsWf_cons, Bool.and_eq_true]
        exact ⟨⟨hw'.1.1, headAbove_cellWrite b a x (by omega) rest hw'.2 hw'.1.2⟩,
          cellWrite_wf a x rest hw'.2⟩

/-- A read after a write to the same address gives what was written. -/
theorem cellRead_write_same {w : Nat} (a : Nat) (x : BitVec w) :
    ∀ cells : List (Nat × BitVec w), cellsWf cells = true → cellRead (cellWrite cells a x) a = x
  | [], _ => by unfold cellWrite; split <;> simp_all [cellRead]
  | (b, y) :: rest, hw => by
    have hw' := hw
    simp only [cellsWf_cons, Bool.and_eq_true] at hw'
    unfold cellWrite
    split
    · rename_i hab
      split
      · rename_i hx
        rw [hx]; exact cellRead_below a _ hw (by simp [headAbove, hab])
      · simp [cellRead]
    · split
      · rename_i heq
        subst heq
        split
        · rename_i hx
          rw [hx]; exact cellRead_below a rest hw'.2 hw'.1.2
        · simp [cellRead]
      · rename_i hne
        have hb : b ≠ a := fun h => hne h.symm
        simp [cellRead, hb, cellRead_write_same a x rest hw'.2]

/-- A write leaves every other address as it reads. -/
theorem cellRead_write_other {w : Nat} (a b : Nat) (x : BitVec w) (h : b ≠ a) :
    ∀ cells : List (Nat × BitVec w), cellRead (cellWrite cells a x) b = cellRead cells b
  | [] => by unfold cellWrite; split <;> simp [cellRead, h.symm]
  | (c, y) :: rest => by
    unfold cellWrite
    split
    · split <;> simp [cellRead, h.symm]
    · split
      · rename_i heq
        subst heq
        split <;> simp [cellRead, h.symm]
      · by_cases hc : c = b <;> simp [cellRead, hc, cellRead_write_other a b x h rest]

/-- Consecutive writes keep the canonical form. -/
theorem cellWrites_wf {w : Nat} :
    ∀ (xs : List (BitVec w)) (cells : List (Nat × BitVec w)) (a : Nat), cellsWf cells = true →
      cellsWf (cellWrites cells a xs) = true
  | [], _, _, h => h
  | x :: xs, cells, a, h => cellWrites_wf xs _ (a + 1) (cellWrite_wf a x cells h)

/-- Consecutive writes leave every address outside them as it reads. -/
theorem cellRead_writes_outside {w : Nat} (b : Nat) :
    ∀ (xs : List (BitVec w)) (cells : List (Nat × BitVec w)) (a : Nat), (b < a ∨ a + xs.length ≤ b) →
      cellRead (cellWrites cells a xs) b = cellRead cells b
  | [], _, _, _ => rfl
  | x :: xs, cells, a, h => by
    simp only [List.length_cons] at h
    rw [cellWrites, cellRead_writes_outside b xs _ (a + 1) (by omega),
      cellRead_write_other a b x (by omega)]

/-- Consecutive writes are read back in their places. -/
theorem cellRead_writes_inside {w : Nat} :
    ∀ (xs : List (BitVec w)) (cells : List (Nat × BitVec w)) (a i : Nat) (h : i < xs.length),
      cellsWf cells = true → cellRead (cellWrites cells a xs) (a + i) = xs[i]
  | [], _, _, _, h, _ => absurd h (by simp)
  | x :: xs, cells, a, 0, _, hw => by
    have hs := cellRead_write_same a x cells hw
    rw [cellWrites]
    simpa [cellRead_writes_outside a xs (cellWrite cells a x) (a + 1) (Or.inl (by omega))] using hs
  | x :: xs, cells, a, i + 1, h, hw => by
    have hlt : i < xs.length := by simpa using h
    have := cellRead_writes_inside xs (cellWrite cells a x) (a + 1) i hlt (cellWrite_wf a x cells hw)
    rw [cellWrites, show a + (i + 1) = a + 1 + i by omega]
    simpa using this

/-! ## Loop memory -/

/-- A write of one frame of a chain keeps the canonical form. -/
theorem pageWrite_wf (l : LayerIx) (key pos : Nat) (x : Sample) (e : Engine)
    (h : cellsWf e.mem.cells = true) : cellsWf (pageWrite l key pos x e).mem.cells = true := by
  unfold pageWrite
  split
  · exact cellWrite_wf _ _ _ h
  · exact h

/-- Any writer's write of a chain position keeps the canonical form. -/
theorem chainWrite_wf (l : LayerIx) (key pos : Nat) (x : Sample) (e : Engine)
    (h : cellsWf e.mem.cells = true) : cellsWf (chainWrite l key pos x e).mem.cells = true := by
  unfold chainWrite
  split
  · simpa [eachSlot, slotIxs] using h
  · exact pageWrite_wf l key pos x e h

/-- Writes of consecutive positions keep the canonical form. -/
theorem chainWrites_wf (l : LayerIx) (key : Nat) :
    ∀ (xs : List Sample) (pos : Nat) (e : Engine), cellsWf e.mem.cells = true →
      cellsWf (chainWrites l key pos xs e).mem.cells = true
  | [], _, _, h => h
  | x :: xs, pos, e, h => chainWrites_wf l key xs _ _ (chainWrite_wf l key pos x e h)

/-- A drain keeps the canonical form. -/
theorem drainWrites_wf (l : LayerIx) (key : Nat) :
    ∀ (ws : List (Nat × Sample)) (e : Engine), cellsWf e.mem.cells = true →
      cellsWf (drainWrites l key ws e).mem.cells = true
  | [], _, h => h
  | (q, x) :: ws, e, h => drainWrites_wf l key ws _ (pageWrite_wf l key q x e h)

/-! ## The setup store -/

/-- Programming a word keeps the canonical form of the store. -/
theorem programWord_wf (st : Store) (h : cellsWf st.cells = true) : cellsWf (programWord st).cells = true := by
  unfold programWord
  split
  · split
    · exact cellWrites_wf _ _ _ h
    · exact h
  · exact h

/-- The end of an interrupted word keeps the canonical form of the store, whichever value it takes. -/
theorem finishInterrupted_wf (b : Bool) (st : Store) (h : cellsWf st.cells = true) :
    cellsWf (finishInterrupted b st).cells = true := by
  unfold finishInterrupted
  split
  · cases b
    · exact h
    · exact cellWrites_wf _ _ _ h
  · exact h

/-- After reset both memories are in canonical form. -/
theorem reset_memories_wf :
    cellsWf State.reset.eng.mem.cells = true ∧ cellsWf State.reset.store.cells = true := by
  decide +kernel

end Sys2Proof.Machine
end

