-- ==== Sys2Proof/Laws/PerInstr.lean ====
section
/-! SUPPORT. The family Operands, a statement of every command as syntax: `wellFormed` accepts exactly the
operands the command's row describes (R175, R177). -/

namespace Sys2Proof.Laws.Operands

/-- What the rows of the two link transactions say of their operands (R175): a host message is no READ and its
length fits the header's 2-byte field; a short transaction has sent something and stops inside its header, or
inside the payload its header declares. Every other operand is bounded by its type alone. -/
def described : Instr → Prop
  | .hostMessage kind _ payload => kind ≠ 0 ∧ payload.length ≤ 65535
  | .shortTransaction sent =>
    sent ≠ [] ∧ ∀ kind tag lo hi payload, sent = kind :: tag :: lo :: hi :: payload →
      kind ≠ 0 ∧ payload.length < lo.toNat + 256 * hi.toNat
  | _ => True

/-- The check accepts what the row describes and nothing else. -/
def Statement (i : Instr) : Prop := i.wellFormed = true ↔ described i

theorem powerOn : Statement .powerOn := ⟨fun _ => trivial, fun _ => rfl⟩
theorem relockEnd : Statement .relockEnd := ⟨fun _ => trivial, fun _ => rfl⟩
theorem bootSetupApply : Statement .bootSetupApply := ⟨fun _ => trivial, fun _ => rfl⟩
/-- The row HOST_MESSAGE. -/
theorem hostMessage (kind tag : Byte) (payload : List Byte) : Statement (.hostMessage kind tag payload) := by
  simp only [Statement, described, Instr.wellFormed, Bool.and_eq_true, bne_iff_ne, decide_eq_true_eq]
  exact and_congr Iff.rfl Nat.lt_succ_iff

/-- The row SHORT_TRANSACTION. -/
theorem shortTransaction (sent : List Byte) : Statement (.shortTransaction sent) := by
  simp only [Statement, described, Instr.wellFormed]
  match sent with
  | [] => simp [shortBytes]
  | [_] | [_, _] | [_, _, _] => simp [shortBytes]
  | kind :: tag :: lo :: hi :: payload =>
    simp only [shortBytes, Bool.and_eq_true, bne_iff_ne, decide_eq_true_eq]
    constructor
    · rintro h
      refine ⟨by simp, ?_⟩
      rintro _ _ _ _ _ ⟨⟩
      exact h
    · exact fun h => h.2 kind tag lo hi payload rfl

theorem read (clocked : Nat) : Statement (.read clocked) := ⟨fun _ => trivial, fun _ => rfl⟩
theorem unknownKind : Statement .unknownKind := ⟨fun _ => trivial, fun _ => rfl⟩
theorem portSet : Statement .portSet := ⟨fun _ => trivial, fun _ => rfl⟩
theorem laneSet : Statement .laneSet := ⟨fun _ => trivial, fun _ => rfl⟩
theorem clockSet : Statement .clockSet := ⟨fun _ => trivial, fun _ => rfl⟩
theorem gridSet : Statement .gridSet := ⟨fun _ => trivial, fun _ => rfl⟩
theorem followSet : Statement .followSet := ⟨fun _ => trivial, fun _ => rfl⟩
theorem layerMix : Statement .layerMix := ⟨fun _ => trivial, fun _ => rfl⟩
theorem liveMix : Statement .liveMix := ⟨fun _ => trivial, fun _ => rfl⟩
theorem masterSet : Statement .masterSet := ⟨fun _ => trivial, fun _ => rfl⟩
theorem fadeSet : Statement .fadeSet := ⟨fun _ => trivial, fun _ => rfl⟩
theorem pedalMap : Statement .pedalMap := ⟨fun _ => trivial, fun _ => rfl⟩
theorem pedalUnmap : Statement .pedalUnmap := ⟨fun _ => trivial, fun _ => rfl⟩
theorem eventMask : Statement .eventMask := ⟨fun _ => trivial, fun _ => rfl⟩
theorem cue : Statement .cue := ⟨fun _ => trivial, fun _ => rfl⟩
theorem cueCancel : Statement .cueCancel := ⟨fun _ => trivial, fun _ => rfl⟩
theorem tap : Statement .tap := ⟨fun _ => trivial, fun _ => rfl⟩
theorem cycleSet : Statement .cycleSet := ⟨fun _ => trivial, fun _ => rfl⟩
theorem layerHold : Statement .layerHold := ⟨fun _ => trivial, fun _ => rfl⟩
theorem layerRelease : Statement .layerRelease := ⟨fun _ => trivial, fun _ => rfl⟩
theorem audioRead : Statement .audioRead := ⟨fun _ => trivial, fun _ => rfl⟩
theorem audioWrite : Statement .audioWrite := ⟨fun _ => trivial, fun _ => rfl⟩
theorem layerQuery : Statement .layerQuery := ⟨fun _ => trivial, fun _ => rfl⟩
theorem cycleQuery : Statement .cycleQuery := ⟨fun _ => trivial, fun _ => rfl⟩
theorem laneQuery : Statement .laneQuery := ⟨fun _ => trivial, fun _ => rfl⟩
theorem memoryQuery : Statement .memoryQuery := ⟨fun _ => trivial, fun _ => rfl⟩
theorem ident : Statement .ident := ⟨fun _ => trivial, fun _ => rfl⟩
theorem storeRead : Statement .storeRead := ⟨fun _ => trivial, fun _ => rfl⟩
theorem storeWrite : Statement .storeWrite := ⟨fun _ => trivial, fun _ => rfl⟩
theorem storeWordComplete : Statement .storeWordComplete := ⟨fun _ => trivial, fun _ => rfl⟩
theorem storeApply : Statement .storeApply := ⟨fun _ => trivial, fun _ => rfl⟩
theorem blockHold : Statement .blockHold := ⟨fun _ => trivial, fun _ => rfl⟩
theorem blockRelease : Statement .blockRelease := ⟨fun _ => trivial, fun _ => rfl⟩
theorem engineReset : Statement .engineReset := ⟨fun _ => trivial, fun _ => rfl⟩
theorem frame : Statement .frame := ⟨fun _ => trivial, fun _ => rfl⟩
theorem spliceWaitLimit : Statement .spliceWaitLimit := ⟨fun _ => trivial, fun _ => rfl⟩
theorem spliceJump : Statement .spliceJump := ⟨fun _ => trivial, fun _ => rfl⟩
theorem crossfadeEnd : Statement .crossfadeEnd := ⟨fun _ => trivial, fun _ => rfl⟩
theorem holdOffEnd : Statement .holdOffEnd := ⟨fun _ => trivial, fun _ => rfl⟩
theorem coast : Statement .coast := ⟨fun _ => trivial, fun _ => rfl⟩
theorem record : Statement .record := ⟨fun _ => trivial, fun _ => rfl⟩
theorem close : Statement .close := ⟨fun _ => trivial, fun _ => rfl⟩
theorem autoClose : Statement .autoClose := ⟨fun _ => trivial, fun _ => rfl⟩
theorem fixedCaptureComplete (slot : SlotIx) : Statement (.fixedCaptureComplete slot) := ⟨fun _ => trivial, fun _ => rfl⟩
theorem overdub : Statement .overdub := ⟨fun _ => trivial, fun _ => rfl⟩
theorem overdubEnd : Statement .overdubEnd := ⟨fun _ => trivial, fun _ => rfl⟩
theorem play : Statement .play := ⟨fun _ => trivial, fun _ => rfl⟩
theorem stop : Statement .stop := ⟨fun _ => trivial, fun _ => rfl⟩
theorem mute : Statement .mute := ⟨fun _ => trivial, fun _ => rfl⟩
theorem unmute : Statement .unmute := ⟨fun _ => trivial, fun _ => rfl⟩
theorem undo : Statement .undo := ⟨fun _ => trivial, fun _ => rfl⟩
theorem redo : Statement .redo := ⟨fun _ => trivial, fun _ => rfl⟩
theorem clear : Statement .clear := ⟨fun _ => trivial, fun _ => rfl⟩
theorem stopAll : Statement .stopAll := ⟨fun _ => trivial, fun _ => rfl⟩
theorem playAll : Statement .playAll := ⟨fun _ => trivial, fun _ => rfl⟩
theorem pause : Statement .pause := ⟨fun _ => trivial, fun _ => rfl⟩
theorem resume : Statement .resume := ⟨fun _ => trivial, fun _ => rfl⟩
theorem clearAll : Statement .clearAll := ⟨fun _ => trivial, fun _ => rfl⟩
theorem grantComplete : Statement .grantComplete := ⟨fun _ => trivial, fun _ => rfl⟩
theorem primingComplete (voice : LayerIx) : Statement (.primingComplete voice) := ⟨fun _ => trivial, fun _ => rfl⟩
theorem recovery (voice : LayerIx) : Statement (.recovery voice) := ⟨fun _ => trivial, fun _ => rfl⟩
theorem voiceIdle (voice : LayerIx) : Statement (.voiceIdle voice) := ⟨fun _ => trivial, fun _ => rfl⟩
theorem clearFadeEnd (voice : LayerIx) : Statement (.clearFadeEnd voice) := ⟨fun _ => trivial, fun _ => rfl⟩
theorem clipWindowEnd : Statement .clipWindowEnd := ⟨fun _ => trivial, fun _ => rfl⟩
theorem portFrameArrival (port : PortIx) (bits : List Bool) : Statement (.portFrameArrival port bits) := ⟨fun _ => trivial, fun _ => rfl⟩
theorem silentPeriod (port : PortIx) : Statement (.silentPeriod port) := ⟨fun _ => trivial, fun _ => rfl⟩
theorem lockAcquired (port : PortIx) : Statement (.lockAcquired port) := ⟨fun _ => trivial, fun _ => rfl⟩
theorem lockLost (port : PortIx) : Statement (.lockLost port) := ⟨fun _ => trivial, fun _ => rfl⟩
theorem elasticFillDone (port : PortIx) : Statement (.elasticFillDone port) := ⟨fun _ => trivial, fun _ => rfl⟩
theorem underrunEnd (port : PortIx) : Statement (.underrunEnd port) := ⟨fun _ => trivial, fun _ => rfl⟩
theorem overrunEnd (port : PortIx) : Statement (.overrunEnd port) := ⟨fun _ => trivial, fun _ => rfl⟩
theorem samplingEvent (v0 v1 v2 v3 : BitVec 10) : Statement (.samplingEvent v0 v1 v2 v3) := ⟨fun _ => trivial, fun _ => rfl⟩
theorem powerOff : Statement .powerOff := ⟨fun _ => trivial, fun _ => rfl⟩

end Sys2Proof.Laws.Operands
end

