-- ==== Sys2Proof/Tests/Slice0.lean ====
section
/-! SUPPORT. Tests: the check of well-formedness, the spec's own worked figures, one step each on small states,
and a witness for every statement with hypotheses, clause by clause at the ends of its ranges. -/

namespace Sys2Proof.Tests

set_option Elab.async false

open Sys2Proof Sys2Proof.Machine

/-! ## Well-formedness: each check refuses an ill-formed term -/

theorem test_hostMessage_of_kind_0_refused : (Instr.hostMessage 0 1 []).wellFormed = false := by decide +kernel

theorem test_hostMessage_longer_than_its_field_refused :
    (Instr.hostMessage 1 1 (List.replicate 65536 0)).wellFormed = false := by decide +kernel

theorem test_hostMessage_accepted : (Instr.hostMessage 4 1 [4]).wellFormed = true := by decide +kernel

theorem test_empty_transaction_is_not_short : (Instr.shortTransaction []).wellFormed = false := by decide +kernel

theorem test_whole_message_is_not_short : (Instr.shortTransaction [4, 1, 1, 0, 4]).wellFormed = false := by
  decide +kernel

theorem test_whole_read_header_is_not_short : (Instr.shortTransaction [0, 1, 9, 0]).wellFormed = false := by
  decide +kernel

theorem test_short_header_accepted : (Instr.shortTransaction [4, 1, 1]).wellFormed = true := by decide +kernel

theorem test_short_payload_accepted : (Instr.shortTransaction [4, 1, 2, 0, 4]).wellFormed = true := by
  decide +kernel

/-! ## Small states -/

/-- A part that has started: its PLL is LOCKED, frames have come and commands are taken. -/
def on : State :=
  { State.reset with eng := { State.reset.eng with
      clk := { Clock.reset with pllLocked := true, startRelock := false, starting := false, frameOpen := true } } }

/-- The started part without power. -/
def off : State := { on with powered := false }

/-- The started part with another engine. -/
def onWith (f : Engine → Engine) : State := { on with eng := f on.eng }

/-- The state with one message at the head of its inbound queue. -/
def ask (kind : Byte) (payload : List Byte) (s : State) : State :=
  { s with link := { s.link with
      inbound := [{ kind := kind, tag := 7, payload := payload, oversize := false }], unanswered := 1 } }

/-- The message `ask` sends. -/
def asked (kind : Byte) (payload : List Byte) : Message :=
  { kind := kind, tag := 7, payload := payload, oversize := false }

/-- The state a command leaves. -/
def after (c : Instr) (s : State) : State :=
  match exec c s with
  | .next t => t
  | _ => s

/-- The status of the oldest reply. -/
def answer (s : State) : Option Status := s.link.replies.head?.map Reply.status

/-- The data of the oldest reply. -/
def told (s : State) : List ReplyItem := (s.link.replies.head?.map Reply.data).getD []

/-- The events queued. -/
def events (s : State) : List Event := s.eng.evq.list.map Report.event

/-- A cycle of `len` frames in four beats, at position `p` and RUNNING. -/
def cyc (len p : Nat) : Cycle := { Cycle.reset with state := .running, len := some len, p := p }

/-- The engine with a running cycle. -/
def run (len p : Nat) (e : Engine) : Engine := { e with cyc := cyc len p }

/-- The engine with one cue, due. -/
def due (a : Action) (t : Target) (e : Engine) : Engine :=
  { e with cues := { list := [{ number := 1, action := a, target := t, quantum := .immediate, remaining := 0,
                                deferrals := 0, wave := 0 }], nextNumber := 2 } }

/-- The cue `due` queues. -/
def dueCue (a : Action) (t : Target) : Cue :=
  { number := 1, action := a, target := t, quantum := .immediate, remaining := 0, deferrals := 0, wave := 0 }

/-- Port P0 LOCKED with a last frame. -/
def locked (lr : Sample × Sample) (e : Engine) : Engine :=
  modPort 0 (fun q => { q with enabled := true, lock := .locked, last := lr }) e

/-! ## Figures the spec works out -/

/-- R1: round takes a half away from zero, floor goes down, toward zero cuts off. -/
theorem test_rounding :
    roundDiv 3 2 = 2 ∧ roundDiv (-3) 2 = -2 ∧ roundDiv (-1) 4 = 0 ∧ floorDiv (-3) 2 = -2 ∧ towardZeroDiv (-3) 2 = -1
      ∧ (sat24 8388608).toInt = 8388607 ∧ (sat24 (-8388609)).toInt = -8388608 := by decide +kernel

/-- R11: beat lengths of C = 100,001 in 4 beats and of C = 4,800 in 32. -/
theorem test_beat_length :
    (cyc 100001 0).beatLength = 25000 ∧ ({ cyc 4800 0 with beats := 32 } : Cycle).beatLength = 150 := by
  decide +kernel

/-- R18: 120.00 and 105.84 beats per minute. -/
theorem test_tempo :
    tempo (run 96000 0 on.eng) = 12000
      ∧ tempo { run 100000 0 on.eng with clk := { on.eng.clk with rate := 44100 } } = 10584 := by decide +kernel

/-- R29: with C = 96,000 and B = 4 an onset at 95,500 is 500 frames early. -/
theorem test_onset_error : onsetError { p := 95500, len := 96000, beats := 4 } = -500 := by decide +kernel

/-- R30: the steps of the error filter with g = 3. -/
theorem test_error_filter : filterError 0 360 3 = 2949120 ∧ filterError 6456320 (-100) 3 = 4830080 := by
  decide +kernel

/-- R31: q = 61, and the clamp of q = 833 to 328. -/
theorem test_trim :
    trimOf { Follower.reset with err := 2949120 } 24000 = -61
      ∧ trimOf { Follower.reset with err := 40000000 } 24000 = -328 := by decide +kernel

/-- R128: interpolation up, down and by the least fraction. -/
theorem test_interpolation :
    interpolate 1000 3000 16384 = 1500 ∧ interpolate 3000 1000 16384 = 2500 ∧ interpolate 3000 1000 1 = 2999
      ∧ interpolate 3000 1000 0 = 3000 := by decide +kernel

/-- R132: frame 32 of a crossfade of 128 between 1,000,000 and -200,000 gives 700,000. -/
theorem test_crossfade :
    streamSample 4800 10 0 (.cross 0 128 32)
        { Voice.reset with
          rs := .reading, main := { base := 10, frames := [sat24 (-200000), 0] },
          store := { base := 10, frames := [1000000, 0] } } = some 700000 := by decide +kernel

/-- R104: 8 cycles of 1,440,000 frames take 704 pages. -/
theorem test_pages : pagesFor (8 * 1440000) = 704 := by decide +kernel

/-- R96: the worked overdub: 6,000,000 over 4,000,000 saturates, and silence over it leaves 7,549,695. -/
theorem test_overdub_values :
    (combine 4000000 6000000 32768 29491).toInt = 8388607 ∧ (combine 8388607 0 32768 29491).toInt = 7549695 := by
  decide +kernel

/-- R138: with everything at unity a single source passes the mixer unchanged, on both sides at the centre. -/
theorem test_unity_passes :
    ((mixFrame (modVoice 3 (fun v => { v with sample := 123456, env := 4096 }) on.eng)).mix.computed).isEqSome
      (123456, 123456) = true := by decide +kernel

/-- Section 7.9: a voice whose short weight stood at 0 presents one thirty-second of its sample on the frame of
its recovery, and the pair of that frame carries it at full gain and envelope. -/
theorem test_recovery_is_heard :
    let v : Voice := { Voice.reset with
      rs := .starved, stall := some 0, main := { base := 0, frames := List.replicate 448 320000 }, env := 4096,
      short := 0, starvedCount := some 40 }
    let e := mixFrame (modVoice 3 (fun _ => v)
      (modLayer 3 (fun r => { r with mult := some 1, state := .playing }) { on.eng with cyc := cyc 4800 0 }))
    (recoverFrame 3 e).voices[(3 : LayerIx)].sample = 10000
      ∧ (recoverFrame 3 e).mix.computed.isEqSome (10000, 10000) = true := by decide +kernel

/-- R160: from 0 toward a steady 800: 200, 350, 462, 546, 609; and 797 stays. -/
theorem test_pedal_smoothing :
    let f := fun (n : Nat) => (Nat.repeat (Pedal.convert 800) n { raw := 0, smooth := 0, seed := false }).smooth
    f 1 = 200 ∧ f 2 = 350 ∧ f 3 = 462 ∧ f 4 = 546 ∧ f 5 = 609 ∧ f 21 = 797 ∧ f 22 = 797 := by decide +kernel

/-- Section 5.6: after 4,999, an advance of two frames writes 5,000 and 5,001; with one position left, one. -/
theorem test_double_advance_writes :
    writePositions 96000 4999 5001 true false = [(5000, false), (5001, false)]
      ∧ writePositions 96000 4999 5001 true true = [(5000, false)] := by decide +kernel

/-- R34: J is 610 for E = 40,000,000, and 960 at most. -/
theorem test_splice_distance :
    let f := { Follower.reset with state := .tracking }
    spliceWanted { f with err := 40000000 } = 610 ∧ spliceWanted { f with err := -40000000 } = -610
      ∧ spliceWanted { f with err := 70000000 } = 960 := by decide +kernel

/-- R121: at a level of 60 a grant of 128 takes 4 periods, at 440 one of 72 takes 3. -/
theorem test_refill_wants :
    let e := fun n => modVoice 0 (fun v => { v with main := { base := 0, frames := List.replicate n 0 } }) on.eng
    voiceWants (e 60) 0 = 128 ∧ voiceWants (e 440) 0 = 72
      ∧ (newGrant (.voice 0) 2 0 0 false 0 128).left = 4 ∧ (newGrant (.voice 0) 5 0 0 false 0 72).left = 3 := by
  decide +kernel

/-! ## One step each -/

theorem test_idle_step_keeps_the_state : step on = .next on := rfl

theorem test_no_word_spells_a_command : decodeTableWord 16 5 = none ∧ on.withFetchWord 16 5 = on := by decide +kernel

theorem test_message_is_accepted_with_status_on_miso :
    (after (.hostMessage 4 9 [8]) on).link.inbound = [{ kind := 4, tag := 9, payload := [8], oversize := false }]
      ∧ (after (.hostMessage 4 9 [8]) on).link.miso = [0, 0, 0, 0, 0] := by decide +kernel

theorem test_ninth_message_is_overrun :
    (after (.hostMessage 4 9 [8]) { on with link := { Link.reset with unanswered := 8 } }).link.overrun = true := by
  decide +kernel

/-- An empty part answers a READ with the empty message (R177). -/
theorem test_read_of_nothing : (after (.read 5) on).link.miso = [0, 0, 0, 0, 0, 0, 0, 0, 0] := by decide +kernel

/-- GRID_SET 0 is clamped to 1; the reply goes out as kind 132, tag 7, length 9, CLAMPED, B = 1, no pending B. -/
theorem test_grid_set_reply_bytes :
    ((after .gridSet (ask 4 [0] on)).link.replies.map Reply.bytes)
      = [[132, 7, 9, 0, 1, 1, 0, 0, 0, 255, 255, 255, 255]] := by decide +kernel

/-- FADE_SET 480, 128 gives the envelope step 9 (R142). -/
theorem test_fade_set_step :
    told (after .fadeSet (ask 9 [0xE0, 1, 128, 0] on)) = [.field 480, .field 128, .field 9] := by decide +kernel

/-- Enabling P1 makes it SEARCHING with its report (R149, R154). -/
theorem test_port_set_enables :
    let t := after .portSet (ask 1 [1, 1, 0, 6] on)
    t.eng.ports[(1 : PortIx)].lock = .searching ∧ events t = [.laneLock 1 .searching] := by decide +kernel

/-- CYCLE_SET 96,000 starts the cycle and reports it; BEAT is disabled after reset (R7, R182). -/
theorem test_cycle_set :
    let t := after .cycleSet (ask 16 [0, 0x77, 1, 0] on)
    t.eng.cyc = { cyc 96000 0 with onset := some { p := 0, len := 96000, beats := 4 } }
      ∧ events t = [.cycleSet 96000 4] := by decide +kernel

/-- A frame at delta -328 leaves a fraction of 65,208 (R13). -/
theorem test_frame_advances_by_trim :
    let s := onWith fun e => { run 96000 1000 e with fol := { e.fol with delta := -328 } }
    (after .frame s).eng.cyc.p = 1000 ∧ (after .frame s).eng.cyc.frac = 65208 := by decide +kernel

/-- The frame that reaches C wraps to 0 and moves k and m on (R15). -/
theorem test_frame_wraps :
    let t := after .frame (onWith (run 96000 95999))
    t.eng.cyc.p = 0 ∧ t.eng.cyc.k = 1 ∧ t.eng.cyc.m = 1 := by decide +kernel

/-- LSB-first bits of a port make the word they spell (R148). -/
theorem test_port_frame_words :
    frameWords true (true :: List.replicate 47 false) = (1, 0)
      ∧ frameWords false (List.replicate 47 false ++ [true]) = (0, 1) := by decide +kernel

/-- PLAY of a STOPPED layer: PLAYING, its voice priming 256 frames ahead, CUE_DONE (R51, R71, R129). -/
theorem test_play :
    let s := onWith fun e => due .play (.layer 2)
      (modLayer 2 (fun r => { r with state := .stopped, mult := some 1, cur := some [5] }) (run 96000 95900 e))
    (after .play s).eng.voices[(2 : LayerIx)].primeStart = some 156
      ∧ events (after .play s) = [.layerState 2 .playing .cue 1, .cueDone 1 (.layer 2) .play 0] := by decide +kernel

/-! ## Witnesses: concrete states and operands that meet the hypotheses of the statements

Each theorem bears the name of its statement; `takes` and `turns` stand for the premises `Takes` and `Turn`, which
the next two theorems derive from them. -/

/-- The head of the inbound queue can be taken and has this kind and payload. -/
def takes (kind : Nat) (payload : List Byte) (s : State) : Bool :=
  s.powered && !s.eng.clk.starting && match s.link.inbound with
    | m :: _ => m.kind.toNat == kind && !m.oversize && m.payload == payload
    | [] => false

theorem takes_meets_Takes {kind : Nat} {payload : List Byte} {s : State} (h : takes kind payload s = true) :
    ∃ m rest, s.Takes kind m payload rest := by
  unfold takes at h
  cases hq : s.link.inbound with
  | nil => simp [hq] at h
  | cons m rest =>
    simp only [hq, Bool.and_eq_true, Bool.not_eq_true', beq_iff_eq] at h
    exact ⟨m, rest, { powered := h.1.1, started := h.1.2, head := hq, kind := h.2.1.1, whole := h.2.1.2,
                      payload := h.2.2 }⟩

/-- The only cue of a powered part is due. -/
def turns (a : Action) (t : Target) (s : State) : Bool := s.powered && s.eng.cues.list == [dueCue a t]

theorem turns_meets_Turn {a : Action} {t : Target} {s : State} (h : turns a t s = true) :
    s.Turn (dueCue a t) [] [] := by
  simp only [turns, Bool.and_eq_true, beq_iff_eq] at h
  exact { powered := h.1, list := h.2, due := rfl, earlier := by simp, later := by simp, alone := by simp }

/-- The middle one of three due cues has its turn: a later wave before it, the same wave after it. -/
theorem witness_Turn_in_the_middle :
    let c := fun n w => ({ dueCue .play (.layer n) with number := n.val + 1, wave := w } : Cue)
    (onWith fun e => { e with cues := { list := [c 0 1, c 1 0, c 2 0], nextNumber := 4 } }).Turn
      (c 1 0) [c 0 1] [c 2 0] :=
  { powered := rfl, list := rfl, due := rfl, earlier := by decide +kernel, later := by decide +kernel,
    alone := by decide +kernel }

/-- A part with every queue full. -/
def full : State :=
  { onWith (fun e => { e with
      cues := { list := (List.range 12).map fun i =>
                  { dueCue .play (.layer (Fin.ofNat 16 i)) with number := 65524 + i, remaining := 4 },
                nextNumber := 1 },
      evq := { e.evq with list := List.replicate 24 { event := .cycleCleared, lost := true, k := 0, p := 0 } } }) with
    pending := [.unknownKind, .frame],
    link := { inbound := List.replicate 8 (asked 32 []), replies := [], unanswered := 8, overrun := true, miso := [] } }

theorem witness_StepKeepsOrder_and_Ranges :
    full.orderly = true ∧ full.eng.inRange = true ∧ ∃ t, step full = .next t :=
  ⟨by decide +kernel, by decide +kernel, _, rfl⟩

/-- A layer record with a multiple of 1 and a chain of one page. -/
def filled (st : LayerState) (page : Nat) : Layer :=
  { Layer.reset with state := st, mult := some 1, cur := some [page] }

/-- The engine with one layer filled, in a running cycle of 4,800 frames. -/
def with1 (l : LayerIx) (st : LayerState) (e : Engine) : Engine :=
  modLayer l (fun _ => filled st 9) (run 4800 4799 e)

/-- The engine with one chain, in layer 0, and the pages left free. -/
def chained (chain free : List Nat) (e : Engine) : Engine :=
  { modLayer 0 (fun _ => { filled .playing 0 with cur := some chain }) e with mem := { e.mem with free := free } }

/-- Layer 0 holds the first six pages; the rest are free. -/
def paged : State := onWith (chained ((List.range 2048).take 6) ((List.range 2048).drop 6))

theorem count_range (n pg : Nat) : (List.range n).count pg = if pg < n then 1 else 0 := by
  split
  · exact List.count_eq_one_of_mem List.nodup_range (List.mem_range.2 ‹_›)
  · exact List.count_eq_zero_of_not_mem fun h => absurd (List.mem_range.1 h) ‹_›

theorem chained_uses (chain free : List Nat) (pg : Nat) :
    pageUses pg (chained chain free on.eng) = free.count pg + chain.count pg := by
  have hr : ∀ i : LayerIx, on.eng.layers[i] = Layer.reset := by decide +kernel
  have h : ∀ i : LayerIx, (chained chain free on.eng).layers[i].pageUses pg = if i = 0 then chain.count pg else 0 := by
    intro i
    have h0 := hr i
    simp only [Fin.getElem_fin] at h0
    show (upd on.eng.layers 0 _)[i].pageUses pg = _
    simp only [Fin.getElem_fin, upd_get, h0, eq_comm (a := (0 : LayerIx))]
    split <;> simp [Layer.pageUses, chainCount, filled, Layer.reset]
  show free.count pg + _ = _
  simp only [h, layerIxs]
  simp

theorem witness_StepKeepsPages : paged.eng.pagesSound ∧ ∃ t, step { paged with pending := [.frame] } = .next t := by
  refine ⟨⟨fun pg => ?_, ?_, by decide +kernel, by decide +kernel⟩, _, rfl⟩
  · show pageUses pg (chained _ _ on.eng) = _
    rw [chained_uses, Nat.add_comm, ← List.count_append, List.take_append_drop, count_range]
    rfl
  · unfold Layer.chainsSound
    decide +kernel

theorem witness_EveryCommandGoesOn : off.powered = false ∧ Instr.frame ≠ .powerOn := by decide +kernel

theorem witness_PowerOn : off.powered = false ∧ on.powered = true := by decide +kernel

/-- A write of one word in flight. -/
def writing (done : Nat) (data : List Byte) (s : State) : State :=
  { s with store := { s.store with job := some { offset := 4092, data := data, done := done, tag := 3 } } }

theorem witness_PowerOff :
    on.powered = true ∧ on.store.job = none ∧ on.store.interrupted = none ∧ (writing 0 [1, 2, 3, 4] on).powered = true
      ∧ 4 * 0 < [1, 2, 3, 4].length := by decide +kernel

theorem witness_EngineReset : takes 31 [] (ask 31 [] (writing 0 [1, 2, 3, 4] on)) = true := by decide +kernel

theorem witness_RelockEnd : State.reset.powered = true ∧ State.reset.eng.clk.pllLocked = false := by decide +kernel

/-- A user list with one entry under a key, whose value is one FADE_SET of 32 and 256. -/
def withEntry (k0 k1 : Byte) (s : State) : State :=
  let cells := s.store.cells ++ cellsFrom 512 [k0, k1, 6, 9, 4, 32, 0, 0, 1]
  { s with store := { s.store with cells := cells } }

/-- A user list with one entry under a key and of a value. -/
def withValue (k0 k1 : Byte) (v : List Byte) (s : State) : State :=
  { s with store := { s.store with cells := s.store.cells ++ cellsFrom 512 ([k0, k1, byte v.length] ++ v) } }

/-- A setup of two messages: a FADE_SET in range, and one with a length of 31 that is brought to 32. -/
def twoFades : List (Byte × List Byte) := [(9, [32, 0, 0, 1]), (9, [31, 0, 0, 1])]

/-- The engine before and after the first of them. -/
def fading : Nat → Engine
  | 0 => on.eng
  | _ => { on.eng with mix := { on.eng.mix with fade := 32, cross := 256 } }

/-- The first runs and is answered OK, the second ends the apply with CLAMPED; and the malformed values. -/
theorem witness_setups :
    findUser (withValue 0x42 0x53 (setupValue twoFades) on).store.cells 0x42 0x53 = .value (setupValue twoFades)
      ∧ setupRuns twoFades 1 fading ∧ setupRuns (twoFades.take 1) 1 fading ∧ fading 0 = on.eng
      ∧ (configCommand 9 [31, 0, 0, 1] (fading 1)).2.status = .clamped ∧ (∀ m ∈ twoFades, m.2.length ≤ 255)
      ∧ findUser (withValue 0x42 0x53 [9] on).store.cells 0x42 0x53 = .value (setupValue [] ++ [9])
      ∧ findUser (withValue 0x42 0x53 [9, 4, 0] on).store.cells 0x42 0x53 = .value ([] ++ [9, 4, 0])
      ∧ [(0 : Byte)].length < (4 : Byte).toNat ∧ findUser on.store.cells 0x42 0x53 = .absent
      ∧ (let full := ((List.range 13).flatMap fun i => [byte (i + 1), 0, 253] ++ List.replicate 253 1) ++ [14, 0, 254]
         findUser { on with store := { on.store with cells := cellsFrom 512 full } }.store.cells 0x42 0x53 = .malformed) := by
  have runs : ∀ (msgs : List (Byte × List Byte)), msgs[0]? = some (9, [32, 0, 0, 1]) → setupRuns msgs 1 fading := by
    intro msgs h i m hi hm
    obtain rfl : i = 0 := by omega
    obtain rfl : (9, [32, 0, 0, 1]) = m := Option.some.inj (h.symm.trans hm)
    decide +kernel
  exact ⟨by decide +kernel, runs _ rfl, runs _ rfl, rfl, by decide +kernel⟩

/-- A part on the first frame after its start-up relock. -/
def booting (s : State) : State := { s with eng := { s.eng with clk := { s.eng.clk with starting := true } } }

theorem witness_BootSetupApply :
    (booting on).powered = true ∧ (booting on).eng.clk.starting = true ∧ (booting on).eng.clk.frameOpen = true
      ∧ (booting on).store.interrupted = none ∧ cellRead on.store.cells 512 = 0
      ∧ storeBytes (withEntry 0x42 0x53 on).store.cells 9 512 = [0x42, 0x53, 6, 9, 4, 32, 0, 0, 1]
      ∧ word16 32 0 = 32 ∧ word16 0 1 = 256 := by decide +kernel

theorem witness_HostTransactions :
    on.powered = true ∧ (4 : Byte) ≠ 0 ∧ on.link.unanswered < 8 ∧ 8 ≤ full.link.unanswered
      ∧ [(4 : Byte), 1, 1].length < 4 ∧ ([] : List Byte).length < word16 1 0 := by decide +kernel

/-- A reply of one byte of payload. -/
def reply : Reply := { kind := 132, tag := 7, status := .badLength, overrun := false, data := [] }

/-- A report without fields. -/
def report : Report := { event := .cycleCleared, lost := false, k := 0, p := 0 }

theorem witness_Read :
    let a : State := { on with link := { on.link with replies := [reply], unanswered := 1 } }
    let b := onWith fun e => { e with evq := { e.evq with list := [report] } }
    on.powered = true ∧ a.link.replies = [reply] ∧ reply.bytes.length = 5 ∧ b.link.replies = []
      ∧ b.eng.evq.list = [report] ∧ report.bytes.length = 14 ∧ on.link.replies = [] ∧ on.eng.evq.list = [] := by
  decide +kernel

theorem witness_ReportJoinsEventQueue :
    let q := on.eng.evq
    q.mask.getLsbD (Event.cycleCleared.code - 1) = true ∧ q.list.length < 24 ∧ 24 ≤ full.eng.evq.list.length
      ∧ q.mask.getLsbD ((Event.beat 0).code - 1) = false := by decide +kernel

theorem witness_UnknownKindsAndWrongLengths :
    takes 32 [] (ask 32 [] on) = true ∧ takes 255 [] (ask 255 [] on) = true ∧ takes 1 [0, 1, 0] (ask 1 [0, 1, 0] on) = true
      ∧ legalLength 1 [0, 1, 0] = false ∧ legalLength 1 [0, 1, 0, 6, 0] = false ∧ legalLength 13 [0, 4, 0, 1, 0] = false
      ∧ rowOf 1 = some .portSet := by decide +kernel

theorem witness_PortSet :
    let q := on.eng.ports[(3 : PortIx)]
    let lk := (onWith (locked (0, 0))).eng.ports[(0 : PortIx)]
    takes 1 [byte 3, flagByte true, flagByte false, 2] (ask 1 [3, 1, 0, 2] on) = true
      ∧ (q.lock = .disabled ∧ q.held = false ∧ q.recovery = .none)
      ∧ (lk.lock ≠ .disabled ∧ lk.recovery = .none ∧ on.eng.clk.active = .internal)
      ∧ takes 1 [4, 0, 0, 2] (ask 1 [4, 0, 0, 2] on) = true ∧ takes 1 [0, 2, 0, 2] (ask 1 [0, 2, 0, 2] on) = true := by
  decide +kernel

theorem witness_LaneSet :
    takes 2 [byte 3, byte (laneSourceCode none), byte (Channel.sum).code, flagByte true, 0xFF, 0x3F]
        (ask 2 [3, 4, 2, 1, 0xFF, 0x3F] on) = true
      ∧ takes 2 [4, 0, 0, 0, 0, 0] (ask 2 [4, 0, 0, 0, 0, 0] on) = true
      ∧ takes 2 [0, 5, 0, 0, 0, 0] (ask 2 [0, 5, 0, 0, 0, 0] on) = true := by decide +kernel

theorem witness_ClockSet :
    let p0 := onWith (locked (0, 0))
    let busy := onWith (run 4800 0)
    takes 3 [0x80, 0xBB, byte (ClockSource.port0).code] (ask 3 [0x80, 0xBB, 1] p0) = true ∧ word16 0x80 0xBB = 48000
      ∧ word16 0x44 0xAC = 44100 ∧ word16 0x45 0xAC ≠ 44100 ∧ on.eng.clk.rate = 48000
      ∧ on.eng.clk.selected = .internal ∧ on.eng.clk.active = .internal ∧ on.eng.cyc.state = .unset
      ∧ busy.eng.cyc.state ≠ .unset ∧ (∀ p : PortIx, on.eng.ports[p].lock ≠ .locked)
      ∧ p0.eng.ports[(0 : PortIx)].lock = .locked ∧ p0.eng.clk.pllLocked = true ∧ on.eng.mix.clipping = none
      ∧ takes 3 [0x80, 0xBB, 2] (ask 3 [0x80, 0xBB, 2] on) = true := by decide +kernel

theorem witness_EventMask :
    takes 31 [] (ask 31 [] on) = true ∧ takes 12 [1, 2, 3, 255] (ask 12 [1, 2, 3, 255] on) = true
      ∧ takes 12 [] (ask 12 [] on) = true ∧ takes 12 [1, 2, 3] (ask 12 [1, 2, 3] on) = true
      ∧ on.eng.evq.mask.getLsbD ((Event.beat 0).code - 1) = false ∧ on.eng.mix.clipReported = false
      ∧ (onWith fun e => { e with mix := { e.mix with clipping := some .left } }).eng.mix.clipping = some .left := by
  decide +kernel

theorem witness_GridSet :
    let s := onWith (run 4800 0)
    takes 4 [32] (ask 4 [32] on) = true ∧ takes 4 [4] (ask 4 [4] s) = true ∧ takes 4 [0] (ask 4 [0] s) = true
      ∧ on.eng.cyc.state = .unset ∧ s.eng.cyc.state = .running ∧ within 1 32 4 = s.eng.cyc.beats
      ∧ within 1 32 0 ≠ s.eng.cyc.beats := by decide +kernel

theorem witness_FollowSet :
    let b : List Byte := [byte (BeatSource.tap).code, 0xFF, 0xFF, 0x7F, 0, 0xE0, 1, 0xC0, 0x12, 6, 8, 0x8F, 2, 0, 0, 0xC0, 3, 64]
    let s := onWith fun e => { e with fol := { e.fol with source := .tap } }
    takes 5 [] (ask 5 [] on) = true ∧ takes 5 b (ask 5 b on) = true ∧ takes 5 b (ask 5 b s) = true
      ∧ on.eng.fol.source ≠ .tap ∧ s.eng.fol.source = .tap := by decide +kernel

theorem witness_MixSettings :
    takes 6 [byte 15, 0xFF, 0x1F, 128, 0, 0x80, 1, 0x80] (ask 6 [15, 0xFF, 0x1F, 128, 0, 0x80, 1, 0x80] on) = true
      ∧ takes 7 [byte 3, 0, 0x20, 129, flagByte true] (ask 7 [3, 0, 0x20, 129, 1] on) = true
      ∧ takes 8 [0, 0x20] (ask 8 [0, 0x20] on) = true ∧ takes 9 [31, 0, 1, 1] (ask 9 [31, 0, 1, 1] on) = true
      ∧ takes 6 [16, 0, 0, 0, 0, 0, 0, 0] (ask 6 [16, 0, 0, 0, 0, 0, 0, 0] on) = true
      ∧ takes 7 [0, 0, 0, 0, 2] (ask 7 [0, 0, 0, 0, 2] on) = true := by decide +kernel

/-- A mapping of EXP0 to a target. -/
def mapping (t : PedalTarget) : Mapping :=
  { channel := 0, target := t, low := 0, high := t.top, deadband := 31, applied := some 1 }

/-- The engine with one entry of the pedal map. -/
def mapped (i : MapIx) (t : PedalTarget) (e : Engine) : Engine := modMap i (fun _ => some (mapping t)) e

theorem witness_PedalMap :
    let b : List Byte := [byte 7, byte 3, byte (PedalTarget.layerPan 15).code, 15, 0, 0, 129, 0, 32]
    let s := onWith (mapped 0 (.layerPan 15))
    takes 10 [] (ask 10 [] on) = true ∧ takes 10 b (ask 10 b on) = true
      ∧ (∀ n, (PedalTarget.layerPan 15).argument = some n → (15 : Byte) = byte n)
      ∧ (∃ j : MapIx, j ≠ 7 ∧ ∃ other, s.eng.ped.map[j] = some other ∧ other.target = .layerPan 15)
      ∧ (∀ j : MapIx, j ≠ 7 → ∀ other, on.eng.ped.map[j] = some other → other.target ≠ .layerPan 15)
      ∧ takes 11 [byte 0] (ask 11 [0] s) = true ∧ s.eng.ped.map[(0 : MapIx)] = some (mapping (.layerPan 15))
      ∧ on.eng.ped.map[(0 : MapIx)] = none ∧ takes 11 [8] (ask 11 [8] on) = true := by
  refine ⟨by decide +kernel, by decide +kernel, ?_, ⟨0, by decide, mapping (.layerPan 15), by decide +kernel, rfl⟩, ?_,
    by decide +kernel, by decide +kernel, by decide +kernel, by decide +kernel⟩
  · rintro n ⟨⟩; rfl
  · intro j _ other h
    have hn : ∀ j : MapIx, on.eng.ped.map[j] = none := by decide +kernel
    simp [hn] at h

/-- Cues waiting for layers 1 to n. -/
def waiting (n : Nat) (e : Engine) : Engine :=
  { e with cues := { e.cues with list := (List.range n).map fun i =>
      { dueCue .play (.layer (Fin.ofNat 16 (i + 1))) with number := 100 + i, remaining := 4 } } }

/-- The payload of a CUE fits its target, action, quantum, count and arguments. -/
def asks (t : Target) (a : Action) (q : Quantum) (n : Byte) (args : List Byte) (s : State) : Bool :=
  takes 13 (byte t.code :: byte a.code :: byte q.code :: n :: args)
      (ask 13 (byte t.code :: byte a.code :: byte q.code :: n :: args) s) && s.eng.cues.distinct

theorem asks_meets_Takes {t : Target} {a : Action} {q : Quantum} {n : Byte} {args : List Byte} {s : State}
    (h : asks t a q n args s = true) :
    s.eng.cues.distinct = true
      ∧ ∃ m rest, (ask 13 (byte t.code :: byte a.code :: byte q.code :: n :: args) s).Takes 13 m
          (byte t.code :: byte a.code :: byte q.code :: n :: args) rest := by
  unfold asks at h
  rw [Bool.and_eq_true] at h
  exact ⟨h.2, takes_meets_Takes h.1⟩

/-- Two pending RECORDs of ARMED layers, one of them with a hold that waits, the next number taken by the second of them. -/
def recording (e : Engine) : Engine :=
  let c := fun n i => ({ dueCue (.record 1 0) (.layer i) with number := n, remaining := 4 } : Cue)
  modLayer 4 (fun r => { r with state := .armed }) (modLayer 3 (fun r => { r with state := .armed })
    { e with cues := { list := [c 65535 3, c 1 4], nextNumber := 65534 } })

/-- A full queue, a hold, a wrong state as it is and as a pending cue on ALL foretells it; accepted are a RECORD, an OVERDUB
with a level of 32,769 after a pending PLAY_ALL, a STOP in place of a RECORD of the same layer, CLEAR_ALL over two RECORDs,
and a cue after which the next two numbers are taken. -/
theorem witness_CueAccepted :
    let h := onWith fun e => modLayer 0 (fun r => { r with hold := .held }) (with1 0 .stopped e)
    let r := onWith recording
    let p := onWith fun e => { with1 0 .stopped e with cues := { list := [dueCue .playAll .all], nextNumber := 2 } }
    let big : List Byte := [3, 1, 128, 0, 128]
    let okay := fun (s : State) a t => ¬12 ≤ s.eng.cues.list.length ∧ s.eng.unheld a t ∧ s.eng.accepts a t
    (asks (.layer 0) .play .beat 1 [] full = true ∧ 12 ≤ full.eng.cues.list.length ∧ Action.play.asked []
        ∧ Action.play.suits (.layer 0) .beat 1)
      ∧ (asks (.layer 0) .clear .onset 4 [] h = true ∧ ¬h.eng.unheld .clear (.layer 0)
        ∧ Action.clear.suits (.layer 0) .onset 4)
      ∧ (asks .all .clearAll .immediate 0 [] h = true ∧ ¬h.eng.unheld .clearAll .all
        ∧ Action.clearAll.suits .all .immediate 0)
      ∧ (asks (.layer 0) .stop .layer 1 [] h = true ∧ h.eng.unheld .stop (.layer 0) ∧ ¬h.eng.accepts .stop (.layer 0)
        ∧ Action.stop.suits (.layer 0) .layer 1)
      ∧ (asks (.layer 0) .play .immediate 0 [] p = true ∧ ¬p.eng.accepts .play (.layer 0))
      ∧ (asks (.layer 0) (.overdub 3 32768 32768) .cycle 2 big p = true ∧ okay p (.overdub 3 32768 32768) (.layer 0)
        ∧ (Action.overdub 3 32768 32768).asked big ∧ weightsInRange big = false)
      ∧ (asks (.layer 5) (.record 8 3) .cycle 1 [8, 3] r = true ∧ okay r (.record 8 3) (.layer 5)
        ∧ (Action.record 8 3).asked [8, 3] ∧ (Action.record 8 3).suits (.layer 5) .cycle 1)
      ∧ (asks (.layer 3) (.record 2 0) .immediate 0 [2, 0] r = true ∧ okay r (.record 2 0) (.layer 3))
      ∧ (asks .all .clearAll .beat 4 [] r = true ∧ okay r .clearAll .all ∧ Action.clearAll.suits .all .beat 4)
      ∧ (asks .all .resume .onset 1 [] r = true ∧ okay r .resume .all ∧ Action.resume.suits .all .onset 1)
      ∧ (after .cue (ask 13 [5, 0, 3, 1, 8, 3] r)).eng.cues.nextNumber = 2
      ∧ told (after .cue (ask 13 [3, 0, 0, 0, 2, 0] r)) = [.field 65534, .field 65535, .field 2]
      ∧ events (after .cue (ask 13 [255, 15, 2, 4] r)) = [.cueSuperseded 65535 (.layer 3) (.record 1 0) 65534,
          .layerState 3 .empty .cueRemoved 65535, .cueSuperseded 1 (.layer 4) (.record 1 0) 65534,
          .layerState 4 .empty .cueRemoved 1] := by
  have big : (Action.overdub 3 32768 32768).asked [3, 1, 128, 0, 128] := ⟨1, 128, 0, 128, rfl, by decide, by decide⟩
  have rec8 : (Action.record 8 3).asked [8, 3] := ⟨by decide, by decide⟩
  simp only [big, rec8, true_and]
  simp only [Engine.unheld, Engine.accepts, Action.suits, Action.asked]
  and_intros <;> decide +kernel

/-- Payloads of a CUE that are refused OUT_OF_RANGE: each of the bytes one beyond its range, or not fitting another. -/
theorem witness_CueAccepted_out_of_range :
    ∀ b ∈ ([[0, 16, 0, 0], [0, 4, 5, 1], [16, 4, 0, 0], [254, 15, 0, 0], [15, 11, 0, 0], [255, 10, 0, 0], [0, 4, 1, 0],
        [0, 4, 4, 5], [255, 15, 4, 1], [0, 0, 4, 1, 1, 0], [255, 14, 2, 1], [0, 0, 0, 0, 5, 0], [0, 0, 0, 0, 1, 4],
        [0, 2, 0, 0, 4, 0, 0, 0, 0]] : List (List Byte)),
      takes 13 b (ask 13 b on) = true ∧ legalLength 13 b = true ∧ outOfRangeCue b
        ∧ answer (after .cue (ask 13 b on)) = some .outOfRange := by
  simp only [outOfRangeCue, List.forall_mem_cons, List.not_mem_nil, false_imp_iff, implies_true, and_true]
  and_intros <;> decide +kernel

theorem witness_CueCancel :
    let s := onWith fun e => due (.record 1 0) (.layer 5) (modLayer 5 (fun r => { r with state := .armed }) e)
    takes 14 [1, 0] (ask 14 [1, 0] s) = true ∧ s.eng.cues.list = [] ++ dueCue (.record 1 0) (.layer 5) :: []
      ∧ (dueCue (.record 1 0) (.layer 5)).number = word16 1 0 ∧ s.eng.layers[(5 : LayerIx)].state = .armed
      ∧ (∀ j : Fin 9, ∀ lane : LaneIx, (dueCue .play (.layer 5)).action ≠ .record j.val lane)
      ∧ (∀ d ∈ s.eng.cues.list, d.number ≠ word16 0 1) ∧ ∀ i : LayerIx, s.eng.layers[i].hold ≠ .pending := by
  decide +kernel

/-- A follower on taps, over a cycle of 4,800 frames in four beats. -/
def tapping (st : FollowState) (p : Nat) (e : Engine) : Engine :=
  { run 4800 p e with fol := { e.fol with source := .tap, state := st, window := 600 } }

/-- Position 600 lies 600 from grid points 0 and 1,200: the lower is taken and 600 accepted; 599 frames of a
window of 598 are not. -/
theorem witness_Tap :
    let s := onWith (tapping .waiting 600)
    let grid := [0, 1200, 2400, 3600, 4800]
    takes 15 [] (ask 15 [] s) = true ∧ takes 15 [] (ask 15 [] State.reset) = false
      ∧ takes 15 [] (ask 15 [] (onWith fun e => { e with clk := { e.clk with frameOpen := false } })) = true
      ∧ s.eng.clk.frameOpen = true ∧ s.eng.cyc.splice = .idle ∧ s.eng.fol.coastDue = false ∧ s.eng.cues.list = []
      ∧ s.eng.cyc.len = some 4800 ∧ on.eng.fol.state = .off ∧ on.eng.cyc.state ≠ .baseCapture
      ∧ (∀ x ∈ grid, ((600 : Int) - 0).natAbs < ((600 : Int) - x).natAbs
          ∨ (((600 : Int) - 0).natAbs = ((600 : Int) - x).natAbs ∧ 0 ≤ x))
      ∧ ((600 : Int) - 0).natAbs ≤ s.eng.fol.window
      ∧ (onWith fun e => { tapping .tracking 600 e with fol := { e.fol with window := 599 } }).eng.fol.window
          < ((600 : Int) - 0).natAbs := by decide +kernel

theorem witness_CycleSet :
    let s := onWith fun e => { e with clk := { e.clk with frameOpen := false } }
    let b : List Byte := [0x01, 0xF2, 0x2B, 0]
    takes 16 b (ask 16 b on) = true ∧ takes 16 b (ask 16 b s) = true ∧ word32 0x01 0xF2 0x2B 0 = 2880001
      ∧ on.eng.cyc.state = .unset ∧ (∀ l : LayerIx, on.eng.layers[l].state = .empty ∧ on.eng.layers[l].mult = none)
      ∧ on.eng.cues.list = [] ∧ on.eng.fol.state ≠ .tracking
      ∧ (onWith (with1 0 .stopped)).eng.layers[(0 : LayerIx)].state ≠ .empty := by decide +kernel

/-- A layer's hold and the transfer of layer 0. -/
def held (h : Hold) (x : Option Transfer) (e : Engine) : Engine :=
  { modLayer 0 (fun r => { r with hold := h }) (with1 0 .playing e) with xfer := x }

/-- The transfer of the last frame of layer 0. -/
def lastFrame : Transfer :=
  { write := false, layer := 0, first := 4799, count := 1, moved := 0, tag := 3, data := [], release := false }

theorem witness_LayerHoldAndRelease :
    let s := fun h x => onWith (held h x)
    let r := fun (st : State) => st.eng.layers[(0 : LayerIx)]
    let empty := onWith (run 262144 0)
    takes 17 [byte 0, 0] (ask 17 [0, 0] (s .none none)) = true ∧ takes 17 [byte 0, 1] (ask 17 [0, 1] empty) = true
      ∧ takes 18 [byte 0] (ask 18 [0] (s .held none)) = true
      ∧ (r (s .held none)).hold = .held ∧ (r (s .pending none)).hold = .pending ∧ (r (s .none none)).hold = .none
      ∧ (r (s .none none)).state = .playing ∧ (r (s .none none)).written.isSome = false
      ∧ (s .none none).eng.cues.list = [] ∧ (s .none none).eng.mem.jobs = []
      ∧ (r (onWith fun e => modLayer 0 (fun r => { r with written := some (0, 1) }) (held .none none e))).written.isSome = true
      ∧ (r empty).state = .empty ∧ empty.eng.cyc.state = .running ∧ on.eng.cyc.state = .unset
      ∧ (8 : Nat) ∈ [1, 2, 3, 4, 6, 8] ∧ (5 : Nat) ∉ [1, 2, 3, 4, 6, 8]
      ∧ (8 * 262144 + 16383) / 16384 ≤ empty.eng.mem.free.length
      ∧ (s .held (some lastFrame)).eng.xfer = some lastFrame ∧ lastFrame.layer = 0 := by decide +kernel

theorem witness_AudioTransfers :
    let s := onWith (held .held none)
    let busy := onWith (held .held (some lastFrame))
    let b : List Byte := [byte 0, 0xBF, 0x12, 0, 0, 1, 0]
    let w : List Byte := [byte 0, 0xBF, 0x12, 0, 0] ++ sampleBytes [5]
    takes 19 b (ask 19 b s) = true ∧ takes 19 b (ask 19 b busy) = true ∧ takes 20 w (ask 20 w s) = true
      ∧ word32 0xBF 0x12 0 0 + 1 = s.eng.layers[(0 : LayerIx)].mult.getD 0 * s.eng.cyc.len.getD 0
      ∧ word32 0xC0 0x12 0 0 + 1 = 4801 ∧ s.eng.layers[(0 : LayerIx)].hold = .held ∧ s.eng.xfer = none
      ∧ busy.eng.xfer.isSome = true ∧ on.eng.layers[(0 : LayerIx)].hold ≠ .held
      ∧ word16 0x54 1 = 340 ∧ word16 0x55 1 = 341 ∧ word16 0 0 = 0 ∧ [(5 : Sample)].length ≤ 338 := by decide +kernel

theorem witness_LayerAndCycleQuery :
    let s := onWith (run 4800 0)
    takes 21 [byte 15] (ask 21 [15] on) = true ∧ takes 21 [16] (ask 21 [16] on) = true ∧ takes 22 [] (ask 22 [] s) = true
      ∧ s.eng.cyc.state = .running ∧ s.eng.cyc.len = some 4800 ∧ s.eng.cyc.base = none := by decide +kernel

theorem witness_LaneAndMemoryQuery :
    takes 23 [byte 3] (ask 23 [3] on) = true ∧ takes 23 [4] (ask 23 [4] on) = true ∧ takes 24 [] (ask 24 [] on) = true
      ∧ on.eng.mem.age = [] ∧ on.eng.mem.jobs = [] ∧ ∀ i : SlotIx, on.eng.slots[i].staging = [] := by decide +kernel

theorem witness_StoreReading :
    let s := writing 0 [1, 2, 3, 4] on
    takes 25 [] (ask 25 [] on) = true ∧ findFactory on.store.cells 0x50 0x54 = .value Config.partName
      ∧ findFactory on.store.cells 0x48 0x57 = .value Config.hardwareRevision
      ∧ findFactory on.store.cells 0x53 0x52 = .value Config.serialNumber
      ∧ takes 26 [0, 15, 0, 1] (ask 26 [0, 15, 0, 1] on) = true ∧ word16 0 15 + word16 0 1 = 4096
      ∧ on.store.job = none ∧ s.store.job.isSome = true ∧ word16 1 1 = 257 ∧ word16 1 15 + word16 0 1 = 4097 := by
  decide +kernel

theorem witness_StoreWrite :
    let b : List Byte := [0xFC, 15, 1, 2, 3, 4]
    takes 27 b (ask 27 b on) = true ∧ word16 0xFC 15 + 4 = 4096 ∧ word16 0xFC 15 % 4 = 0 ∧ 512 ≤ word16 0xFC 15
      ∧ word16 0xFC 1 = 508 ∧ word16 0xFD 15 % 4 ≠ 0 ∧ on.store.job = none
      ∧ (writing 0 [1, 2, 3, 4] on).store.job.isSome = true := by decide +kernel

theorem witness_StoreWordComplete :
    let s := writing 0 [1, 2, 3, 4] on
    let two := writing 0 [1, 2, 3, 4, 5, 6, 7, 8] on
    let cut : State := { on with store := { on.store with interrupted := some (512, [1, 2, 3, 4]) } }
    s.powered = true ∧ cellsWf s.store.cells = true ∧ s.store.interrupted = none ∧ s.store.job.isSome = true
      ∧ [1, 2, 3, 4].length = 4 * 0 + 4 ∧ 4 * 0 + 4 < [1, 2, 3, 4, 5, 6, 7, 8].length ∧ two.store.job.isSome = true
      ∧ s.eng.clk.frameOpen = true ∧ cut.store.interrupted = some (512, [1, 2, 3, 4]) := by decide +kernel

theorem witness_StoreApply :
    let s := withEntry 1 0 on
    takes 28 [1, 0] (ask 28 [1, 0] s) = true ∧ takes 28 [1, 0] (ask 28 [1, 0] (writing 0 [1, 2, 3, 4] s)) = true
      ∧ (writing 0 [1, 2, 3, 4] s).store.job.isSome = true ∧ s.store.job = none ∧ cellRead on.store.cells 512 = 0
      ∧ storeBytes s.store.cells 9 512 = [1, 0, 6, 9, 4, 32, 0, 0, 1] := by decide +kernel

theorem witness_BlockHolds :
    let f := onWith (tapping .tracking 0)
    let fh := onWith fun e => { e with fol := { e.fol with held := true, source := .tap } }
    let p := onWith (modPort 3 fun q => { q with enabled := true, lock := .searching })
    let ph := onWith (modPort 3 fun q => { q with enabled := true, held := true })
    let d := onWith holdPedals
    takes 29 [0] (ask 29 [0] f) = true ∧ f.eng.fol.held = false ∧ f.eng.fol.state ≠ .off ∧ on.eng.fol.state = .off
      ∧ takes 30 [0] (ask 30 [0] fh) = true ∧ fh.eng.fol.held = true ∧ fh.eng.fol.state = .off
      ∧ takes 29 [byte (1 + 3)] (ask 29 [4] p) = true ∧ p.eng.ports[(3 : PortIx)].lock = .searching
      ∧ p.eng.ports[(3 : PortIx)].recovery = .none ∧ takes 30 [byte (1 + 3)] (ask 30 [4] ph) = true
      ∧ ph.eng.ports[(3 : PortIx)].held = true ∧ ph.eng.ports[(3 : PortIx)].lock = .disabled
      ∧ takes 29 [5] (ask 29 [5] on) = true ∧ takes 30 [5] (ask 30 [5] d) = true ∧ d.eng.ped.held = true
      ∧ takes 29 [6] (ask 29 [6] on) = true ∧ takes 30 [6] (ask 30 [6] on) = true := by decide +kernel

/-- A started part is steady, whatever its cycle, as long as nothing is due on its other units. -/
theorem steady_of {s : State} (f : Engine → Engine) (hs : s = onWith f)
    (h : (f on.eng).clk = on.eng.clk ∧ (f on.eng).cyc.owedBoundary = false ∧ (f on.eng).cyc.owedTaps = 0
      ∧ (∀ c ∈ (f on.eng).cues.list, c.remaining ≠ 0) ∧ (f on.eng).fol.coastDue = false
      ∧ (∀ g ∈ (f on.eng).mem.grant, 0 < g.left) ∧ (f on.eng).ped.due = false
      ∧ (∀ p : PortIx, ((f on.eng).ports[p].lock = .searching → (f on.eng).ports[p].good < 8)
          ∧ ((f on.eng).ports[p].lock = .locked → (f on.eng).ports[p].bad < 4) ∧ (f on.eng).ports[p].slipEnds = false)
      ∧ ∀ l : LayerIx, recoveryDue (f on.eng) l = false) : s.Steady := by
  subst hs
  obtain ⟨hc, h1, h2, h3, h4, h5, h6, h7, h8⟩ := h
  have hclk : (onWith f).eng.clk = on.eng.clk := hc
  exact { powered := rfl, started := by rw [hclk]; rfl, frames := by rw [hclk]; exact ⟨rfl, rfl⟩,
          clock := by rw [hclk]; exact ⟨rfl, rfl⟩, waiting := by rw [hclk]; rfl, owed := ⟨h1, h2⟩, undue := h3, coast := h4,
          grant := fun g hg => h5 g hg, pedals := h6, store := rfl, ports := h7, voices := h8 }

/-- It is still, when no cue waits and nothing is in flight besides. -/
theorem still_of {s : State} (f : Engine → Engine) (hs : s = onWith f)
    (h : (f on.eng).clk = on.eng.clk ∧ (f on.eng).cyc.owedBoundary = false ∧ (f on.eng).cyc.owedTaps = 0
      ∧ (f on.eng).cues.list = [] ∧ (f on.eng).fol.coastDue = false ∧ (f on.eng).mem.grant = none
      ∧ (f on.eng).mem.jobs = [] ∧ (f on.eng).xfer = none ∧ (f on.eng).ped.due = false
      ∧ (∀ p : PortIx, ((f on.eng).ports[p].lock = .searching → (f on.eng).ports[p].good < 8)
          ∧ ((f on.eng).ports[p].lock = .locked → (f on.eng).ports[p].bad < 4) ∧ (f on.eng).ports[p].slipEnds = false)
      ∧ ∀ l : LayerIx, recoveryDue (f on.eng) l = false) : s.Still := by
  obtain ⟨hc, h1, h2, h3, h4, h5, h6, h7, h8, h9, h10⟩ := h
  have steady : s.Steady := steady_of f hs
    ⟨hc, h1, h2, by rw [h3]; simp, h4, by rw [h5]; simp, h8, h9, h10⟩
  subst hs
  exact { toSteady := steady, cues := h3, memory := ⟨h5, h6, h7⟩ }

/-- Cues of every quantum, each waiting for one more boundary, the LAYER cue on layer 5. -/
def queued (e : Engine) : Engine :=
  let c := fun n q l => ({ dueCue .mute (.layer l) with number := n, quantum := q, remaining := 1 } : Cue)
  { e with cues := { list := [c 1 .beat 2, c 2 .immediate 3, c 3 .cycle 4, c 4 .layer 5, c 5 .onset 6], nextNumber := 6 } }

/-- A cycle of 4,800 frames under a TRACKING follower with a trim, at its first beat, with a pending B, layer 5 of one
cycle, and the cues of `queued`. -/
def followed (p : Nat) (e : Engine) : Engine :=
  let e1 := queued (modLayer 5 (fun _ => filled .stopped 9) (run 4800 p e))
  { e1 with cyc := { e1.cyc with pendingBeats := some 8, frac := 65535 },
            fol := { e1.fol with source := .tap, state := .tracking, err := 40000000, delta := -300, coastBeats := 1 } }

/-- A voice that asks for a refill, and a slot that asks for a drain, of layer 5. -/
def requesting (e : Engine) : Engine :=
  modVoice 5 (fun v => { v with rs := .reading, pos := some 0, flag := true, env := 4096 })
    (modSlot 1 (fun sl => { sl with staging := [{ layer := 5, key := 9, body := .data 7 1 },
      { layer := 5, key := 9, body := .data 100 1 }] }) e)

/-- Frames that reach no beat, one beat and the end of a cycle, with cues of every quantum and a TRACKING follower, on a part
with nothing in flight, with a grant in progress, and with requests on an idle port, the voice's next frames reading as zeros
or not; and a frame of a part whose cycle is UNSET. -/
theorem witness_Frame :
    let s := fun p => onWith (followed p)
    let g := onWith fun e => let e1 := followed 1198 e
      { e1 with mem := { e1.mem with grant := some { newGrant (.voice 5) 5 5 9 false 0 128 with left := 1 } } }
    let r := onWith fun e => requesting (followed 1198 e)
    let w := onWith fun e => modLayer 5 (fun r => { r with written := some (300, 9) }) (requesting (followed 1198 e))
    ((s 1198).Quiet ∧ (s 1199).Quiet ∧ (s 4799).Quiet ∧ g.Quiet ∧ r.Quiet ∧ w.Quiet ∧ (onWith queued).Quiet)
      ∧ (let f := fun p => (cyc 4800 p).p + (65535 + (65536 + (-300 : Int))).toNat / 65536
         f 1198 < 1200 ∧ 1200 ≤ f 1199 ∧ f 1199 < 2400 ∧ f 4798 < 4800 ∧ 4800 ≤ f 4799)
      ∧ (∀ l : LayerIx, primingDue r.eng l = false ∧ voiceIdleDue r.eng l = false ∧ clearFadeDue r.eng l = false
        ∧ r.eng.layers[l].written = none)
      ∧ (∀ p ∈ [1198, 1199, 4799], (after .frame (s p)).eng.heard = none)
      ∧ ((after .frame (s 1199)).eng.cues.list.map Cue.remaining, (after .frame (s 4799)).eng.cues.list.map Cue.remaining)
        = ([0, 0, 1, 1, 1], [0, 0, 0, 0, 1])
      ∧ (after .frame (s 1198)).eng.fol.coastDue = false ∧ (after .frame (s 1199)).eng.fol.coastDue = true
      ∧ (after .frame g).eng.mem.grant.map Grant.left = some 0
      ∧ (after .frame r).eng.mem.grant.map Grant.who = some (.voice 5)
      ∧ (after .frame w).eng.mem.grant.map Grant.who = some (.slot 1) := by
  refine ⟨⟨{ toSteady := steady_of _ rfl ?_, cycle := ?_, slots := ?_ }, { toSteady := steady_of _ rfl ?_, cycle := ?_, slots := ?_ },
    { toSteady := steady_of _ rfl ?_, cycle := ?_, slots := ?_ }, { toSteady := steady_of _ rfl ?_, cycle := ?_, slots := ?_ },
    { toSteady := steady_of _ rfl ?_, cycle := ?_, slots := ?_ }, { toSteady := steady_of _ rfl ?_, cycle := ?_, slots := ?_ },
    { toSteady := steady_of _ rfl ?_, cycle := ?_, slots := ?_ }⟩, ?_⟩
  all_goals decide +kernel

/-- A splice record of X = 32 for voice 0. -/
def spliceOf (j : Int) (count : Nat) : SpliceRec := { j := j, x := 32, voices := [0], count := count }

/-- A splice that fetches for voice 0, or crossfades, at position `p` of a cycle of 4,800 frames; the voice holds its
next frames and `n` frames of its new stream. -/
def splicing (sp : Splice) (p n : Nat) (e : Engine) : Engine :=
  let e1 := modLayer 0 (fun _ => filled .playing 9) { e with cyc := { cyc 4800 p with splice := sp, beat := 3 } }
  let held : Run := { base := p, frames := List.replicate (2 * n) 1 }
  let fetched : Run := { base := p - 4, frames := List.replicate n 1 }
  let e2 := modVoice 0 (fun v => { v with rs := .reading, pos := some p, main := held, spl := fetched, env := 4096 }) e1
  { e2 with fol := { e2.fol with decisionMade := true, source := .tap, state := .tracking, err := 1000000 } }

/-- At position 2,399 of 4,800 with an error of 2 frames and a threshold of 1. -/
def deciding (threshold : Nat) (e : Engine) : Engine :=
  { run 4800 2399 e with fol := { e.fol with
      source := .tap, state := .tracking, err := 131072, spliceThreshold := threshold, jMax := 1, coastBeats := 64 } }

theorem witness_SpliceSteps :
    let w := onWith (splicing (.fetching (spliceOf 5 2400)) 4700 0)
    let d := onWith (splicing (.fetching (spliceOf 5 7)) 4700 40)
    let c := onWith (splicing (.crossfading (spliceOf 5 32)) 4700 0)
    let m := onWith (deciding 1)
    (d.Still ∧ m.Still ∧ RoundedTo 131072 65536 2)
      ∧ w.eng.cyc.splice = .fetching (spliceOf 5 2400) ∧ w.eng.voices[(0 : LayerIx)].spl.frames.length < 32
      ∧ c.eng.cyc.splice = .crossfading (spliceOf 5 32) ∧ on.jumpDue = false ∧ d.jumpDue = true
      ∧ d.eng.cyc.state = .running ∧ (∀ i : SlotIx, d.eng.slots[i].use = .free)
      ∧ d.eng.fol.decisionMade = true ∧ ((4696 : Nat) : Int) = (4701 : Nat) - 5 ∧ d.eng.cyc.beats ≤ d.eng.cyc.beat + 1
      ∧ m.eng.cyc.splice = .idle ∧ m.eng.fol.beatCount + m.eng.cyc.beats < m.eng.fol.coastBeats
      ∧ 2399 < 4800 / 2 ∧ 4800 / 2 ≤ 2400
      ∧ 1 * 65536 ≤ m.eng.fol.err.natAbs ∧ (onWith (deciding 3)).eng.fol.err.natAbs < 3 * 65536
      ∧ max (-1 : Int) (min 1 2) = 1 :=
  ⟨⟨still_of _ rfl (by decide +kernel), still_of _ rfl (by decide +kernel), by simp [RoundedTo]⟩, by decide +kernel⟩

/-- The voices at a jump: voice 0 reads at 4,700 and the frame's advance took it to 4,701, J = 5. -/
theorem witness_SpliceSteps_voices :
    let e := { (splicing (.fetching (spliceOf 5 7)) 4700 40 on.eng) with cyc := cyc 4800 4696 }
    e.voices[(0 : LayerIx)].rs = .reading ∧ (0 : LayerIx) ∈ (spliceOf 5 7).voices ∧ e.layers[(0 : LayerIx)].mult = some 1
      ∧ e.voices[(0 : LayerIx)].pos = some 4700 ∧ e.voices[(0 : LayerIx)].main.base = 4700
      ∧ 1 < e.voices[(0 : LayerIx)].main.frames.length ∧ e.len 0 = 4800
      ∧ (((4700 + 1) % 4800 : Nat) : Int) = ((e.position 0 : Int) + 5) % 4800
      ∧ e.voices[(1 : LayerIx)].rs = .idle ∧ (1 : LayerIx) ∉ (spliceOf 5 7).voices := by decide +kernel

theorem witness_TimersEnd :
    let h := onWith fun e => { e with fol := { e.fol with holdCount := 1, coastDue := true, state := .tracking } }
    let a := onWith fun e => { e with fol := { e.fol with armed := false } }
    let d := onWith fun e => { e with fol := { e.fol with source := .lane 2, holdCount := 1, armed := false } }
    let f := onWith fun e => { e with fol := { e.fol with source := .lane 2 } }
    let w := onWith fun e => { e with mix := { e.mix with window := 48000 } }
    (d.Still ∧ f.Still) ∧
    a.eng.fol.armed = false ∧ a.eng.fol.arming = false ∧ a.eng.fol.holdCount = 0 ∧ d.eng.fol.source = .lane 2
      ∧ d.eng.fol.held = false ∧ 0 < d.eng.fol.holdCount ∧ f.eng.fol.holdCount = 0
      ∧ on.powered = true ∧ on.eng.fol.armed = true ∧ 0 < h.eng.fol.holdCount ∧ h.eng.fol.coastDue = true
      ∧ h.eng.fol.state = .tracking ∧ on.eng.fol.coastDue = false ∧ w.eng.cyc.state ≠ .running
      ∧ w.eng.clk.rate ≤ w.eng.mix.window ∧ on.eng.mix.window < on.eng.clk.rate :=
  ⟨⟨still_of _ rfl (by decide +kernel), still_of _ rfl (by decide +kernel)⟩, by decide +kernel⟩

/-- P0 locked, feeding L0, with a cue on layer 0. -/
def playing (a : Action) (e : Engine) : Engine := due a (.layer 0) (locked (0, 0) e)

/-- P0 is locked, so L0 is, and S0 is the first free slot. -/
theorem lane_and_slot_free (e : Engine) (h : e.lanes[(0 : LaneIx)].source = some 0 ∧ e.ports[(0 : PortIx)].lock = .locked
    ∧ e.slots[(0 : SlotIx)].use = .free) : e.lockedLane 0 ∧ e.firstFree 0 :=
  ⟨⟨0, h.1, h.2.1⟩, h.2.2, fun _ hi => absurd hi (Nat.not_lt_zero _)⟩

theorem witness_RecordCue :
    let u := onWith fun e => modLayer 0 (fun r => { r with state := .armed }) (playing (.record 2 0) e)
    let g := onWith fun e => modLayer 0 (fun r => { r with state := .armed }) (playing (.record 8 0) (run 2880000 5 e))
    ((u.eng.lockedLane 0 ∧ u.eng.firstFree 0) ∧ g.eng.lockedLane 0 ∧ g.eng.firstFree 0)
      ∧ turns (.record 2 0) (.layer 0) u = true ∧ turns (.record 8 0) (.layer 0) g = true
      ∧ u.eng.layers[(0 : LayerIx)].state = .armed ∧ u.eng.layers[(0 : LayerIx)].hold = .none
      ∧ u.eng.cyc.state = .unset ∧ g.eng.cyc.state = .running ∧ g.eng.cyc.splice = .idle
      ∧ (8 * 2880000 + 16383) / 16384 ≤ g.eng.mem.free.length :=
  ⟨⟨lane_and_slot_free _ (by decide +kernel), lane_and_slot_free _ (by decide +kernel)⟩, by decide +kernel⟩

/-- Layer 0 captured by slot S0 with some positions written. -/
def capturing (use : SlotUse) (count : Nat) (cy : Cycle) (e : Engine) : Engine :=
  modSlot 0 (fun sl =>
      { sl with use := use, layer := some 0, lane := some 0, count := count, first := some 3, start := some 1 })
    (modLayer 0 (fun r => { r with state := .capturing, cur := some [9], slot := some 0 }) { e with cyc := cy })

theorem witness_CloseCues :
    let base : Cycle := { Cycle.reset with state := .baseCapture, base := some 0 }
    let s := fun use count cy => onWith fun e => due .close (.layer 0) (capturing use count cy e)
    let st := fun use count cy => (s use count cy).eng.layers[(0 : LayerIx)].state
    (∀ n ∈ [4799, 4800, 2880000], turns .close (.layer 0) (s .base n base) = true
        ∧ (s .base n base).eng.slots[(0 : SlotIx)].count = n)
      ∧ st .base 4800 base = .capturing ∧ (s .base 4800 base).eng.layers[(0 : LayerIx)].slot = some 0
      ∧ (s .base 4800 base).eng.cyc.base = some 0 ∧ turns .close (.layer 0) (s .fixed 7 (cyc 4800 10)) = true
      ∧ (s .fixed 7 (cyc 4800 10)).eng.cyc.base = none
      ∧ (s .fixed 7 (cyc 4800 10)).eng.slots[(0 : SlotIx)].first = some 3 := by decide +kernel

/-- Layer 0 PLAYING with an OVERDUB due, its voice reading or not. -/
def dubbing (f : Voice → Voice) (e : Engine) : Engine :=
  playing (.overdub 0 32768 0) (modVoice 0 f (with1 0 .playing e))

theorem witness_OverdubCues :
    let s := onWith (dubbing fun v => { v with rs := .reading, main := { base := 4799, frames := [5, 6] } })
    let i := onWith (dubbing id)
    let f := onWith (dubbing fun v => { v with rs := .reading, clearing := true })
    let o := onWith fun e => due .overdubEnd (.layer 0) (modLayer 0 (fun r =>
      { r with state := .overdubbing, slot := some 0, written := some (0, 1) }) (with1 0 .playing e))
    (s.eng.lockedLane 0 ∧ s.eng.firstFree 0)
      ∧ turns (.overdub 0 32768 0) (.layer 0) s = true ∧ turns (.overdub 0 32768 0) (.layer 0) i = true
      ∧ turns (.overdub 0 32768 0) (.layer 0) f = true ∧ f.eng.voices[(0 : LayerIx)].clearing = true
      ∧ s.eng.cyc.state = .running ∧ s.eng.cyc.splice = .idle
      ∧ s.eng.layers[(0 : LayerIx)] = filled .playing 9 ∧ s.eng.slots[(0 : SlotIx)].staging = []
      ∧ s.eng.cyc.len = some 4800 ∧ s.eng.cyc.p < 4800 ∧ s.eng.mem.free.take ((1 * 4800 + 16383) / 16384) = [0]
      ∧ s.eng.voices[(0 : LayerIx)].main = { base := (s.eng.cyc.m % 1) * 4800 + s.eng.cyc.p, frames := [5, 6] }
      ∧ s.eng.voices[(0 : LayerIx)].clearing = false
      ∧ i.eng.voices[(0 : LayerIx)].rs ≠ .reading ∧ i.eng.voices[(0 : LayerIx)].main.frames = []
      ∧ turns .overdubEnd (.layer 0) o = true ∧ o.eng.layers[(0 : LayerIx)].slot = some 0 ∧ o.eng.mem.jobs = [] :=
  ⟨lane_and_slot_free _ (by decide +kernel), by decide +kernel⟩

/-- Layer 15 in a state with a cue on it due. -/
def cued (a : Action) (st : LayerState) (e : Engine) : Engine := due a (.layer 15) (with1 15 st e)

theorem witness_PlayStopMuteCues :
    let s := fun a st => onWith (cued a st)
    turns .play (.layer 15) (s .play .stopped) = true ∧ turns .stop (.layer 15) (s .stop .playing) = true
      ∧ turns .mute (.layer 15) (s .mute .armed) = true ∧ turns .unmute (.layer 15) (s .unmute .overdubbing) = true
      ∧ (s .play .stopped).eng.layers[(15 : LayerIx)] = filled .stopped 9
      ∧ (s .stop .playing).eng.layers[(15 : LayerIx)].state = .playing ∧ (s .stop .playing).eng.cyc.splice = .idle
      ∧ (s .play .stopped).eng.cyc.len = some 4800 := by decide +kernel

theorem witness_UndoRedoCues :
    let u := onWith fun e => modLayer 15 (fun r => { r with undo := some [8] }) (cued .undo .stopped e)
    let j := onWith fun e => addJob 15 .finishCopy (modLayer 15 (fun r =>
      { r with undo := some [8], written := some (0, 1) }) (cued .undo .playing e))
    let z := onWith fun e => addJob 15 .zeroFill (modLayer 15 (fun r => { r with undo := some [8] }) (cued .undo .playing e))
    let r := onWith fun e => modLayer 15 (fun r => { r with redo := some [8] }) (cued .redo .playing e)
    turns .undo (.layer 15) u = true ∧ turns .undo (.layer 15) j = true ∧ turns .redo (.layer 15) r = true
      ∧ u.eng.layers[(15 : LayerIx)].undo = some [8] ∧ u.eng.layers[(15 : LayerIx)].state = .stopped
      ∧ u.eng.layers[(15 : LayerIx)].hold = .none ∧ u.eng.mem.jobs = []
      ∧ (∃ x ∈ j.eng.mem.jobs, x.layer = 15 ∧ x.kind = .finishCopy)
      ∧ (∀ x ∈ z.eng.mem.jobs, x.layer = 15 ∧ x.kind = .zeroFill) ∧ z.eng.layers[(15 : LayerIx)].written = none
      ∧ turns .undo (.layer 15) z = true ∧ r.eng.layers[(15 : LayerIx)].redo = some [8] := by decide +kernel

theorem witness_ClearCues :
    let one := onWith (cued .clear .playing)
    let two := onWith fun e => modLayer 3 (fun _ => filled .stopped 8) (cued .clear .playing e)
    let none := onWith (due .clear (.layer 2))
    let all := onWith fun e => { modLayer 3 (fun _ => filled .stopped 8) (cued .clearAll .playing e) with
      cues := { list := [dueCue .clearAll .all, { dueCue (.record 1 0) (.layer 3) with number := 9, remaining := 1 }],
                nextNumber := 10 } }
    let base := onWith fun e => due .clearAll .all (capturing .base 9
      { Cycle.reset with state := .baseCapture, base := some 0 } e)
    turns .clear (.layer 15) one = true ∧ turns .clear (.layer 15) two = true ∧ turns .clear (.layer 2) none = true
      ∧ one.eng.layers[(15 : LayerIx)] = filled .playing 9 ∧ one.eng.cyc.base ≠ some 15 ∧ one.eng.cyc.splice = .idle
      ∧ (∀ i : LayerIx, i ≠ 15 → one.eng.layers[i].state = .empty) ∧ one.eng.cyc.state = .running
      ∧ (∃ i : LayerIx, i ≠ 15 ∧ two.eng.layers[i].state ≠ .empty)
      ∧ none.eng.layers[(2 : LayerIx)].state = .empty ∧ none.eng.cyc.state = .unset
      ∧ all.eng.cues.list = [] ++ dueCue .clearAll .all :: [{ dueCue (.record 1 0) (.layer 3) with number := 9, remaining := 1 }]
      ∧ (∀ i : LayerIx, all.eng.layers[i].hold = .none) ∧ turns .clearAll .all base = true
      ∧ base.eng.cyc.state = .baseCapture := by decide +kernel

theorem witness_AllLayerCues :
    let s := fun a st => onWith fun e => due a .all (with1 4 st e)
    let p := onWith fun e => { due .pause .all (with1 4 .playing e) with fol := { e.fol with source := .tap, state := .tracking } }
    let r := onWith fun e => { due .resume .all e with cyc := { cyc 4800 5 with state := .paused } }
    turns .stopAll .all (s .stopAll .playing) = true ∧ turns .playAll .all (s .playAll .stopped) = true
      ∧ turns .pause .all (s .pause .playing) = true ∧ turns .pause .all p = true ∧ turns .resume .all r = true
      ∧ (s .pause .playing).eng.cyc.state = .running ∧ (s .pause .playing).eng.cyc.splice = .idle
      ∧ (∀ i : LayerIx, p.eng.layers[i].state ≠ .overdubbing ∧ p.eng.layers[i].state ≠ .capturing)
      ∧ p.eng.fol.state = .tracking ∧ (s .pause .playing).eng.fol.state ≠ .tracking ∧ r.eng.cyc.state = .paused := by
  decide +kernel

/-- No lane is locked on a part whose ports are DISABLED. -/
theorem nothing_locked (l : LaneIx) (e : Engine) (h : ∀ p : PortIx, e.ports[p].lock ≠ .locked) : ¬e.lockedLane l :=
  fun ⟨p, _, hp⟩ => h p hp

theorem witness_CuesThatFail :
    let c := fun a d => ({ dueCue a (.layer 15) with deferrals := d } : Cue)
    let s := fun a d => onWith fun e => { modLayer 15 (fun r => { r with state := .armed }) e with
      cues := { list := [c a d], nextNumber := 2 } }
    let h := fun a => onWith fun e => modLayer 15 (fun r => { r with hold := .held }) (cued a .stopped e)
    let p := fun a t st => onWith fun e => { due a t e with cyc := { e.cyc with state := st } }
    (∀ l : LaneIx, ¬(s (.record 1 l) 3).eng.lockedLane l ∧ ¬(s (.overdub l 0 0) 4).eng.lockedLane l)
      ∧ (∀ d ∈ [3, 4], (s (.record 1 0) d).eng.cues.list = [] ++ c (.record 1 0) d :: [])
      ∧ (s (.record 1 0) 4).eng.layers[(15 : LayerIx)].state = .armed
      ∧ turns .close (.layer 15) (onWith (cued .close .playing)) = true
      ∧ turns .overdubEnd (.layer 15) (onWith (cued .overdubEnd .playing)) = true
      ∧ turns .play (.layer 15) (onWith (cued .play .overdubbing)) = true
      ∧ turns .stop (.layer 15) (onWith (cued .stop .capturing)) = true
      ∧ turns .mute (.layer 15) (onWith (cued .mute .empty)) = true
      ∧ turns .unmute (.layer 15) (onWith (cued .unmute .empty)) = true
      ∧ (∀ a ∈ [Action.undo, .redo, .clear], turns a (.layer 15) (h a) = true
          ∧ (h a).eng.layers[(15 : LayerIx)].hold ≠ .none)
      ∧ turns .pause .all (p .pause .all .paused) = true ∧ turns .resume .all (p .resume .all .running) = true
      ∧ turns .clearAll .all (onWith fun _ => due .clearAll .all (h .play).eng) = true := by
  refine ⟨fun l => ⟨nothing_locked l _ (by revert l; decide +kernel), nothing_locked l _ (by revert l; decide +kernel)⟩, ?_⟩
  decide +kernel

/-- A base capture of layer 0 by S0 on P0's lane, with some frames written and one to be made. -/
def basing (count : Nat) (cur : List Nat) (ws : List SlotWrite) (e : Engine) : Engine :=
  modLayer 0 (fun r => { r with cur := some cur }) (modSlot 0 (fun sl => { sl with pendingWrites := ws })
    (capturing .base count { Cycle.reset with state := .baseCapture, base := some 0 } e))

/-- The first frame of the second page and of the first, and a fixed capture before and after its position. -/
theorem witness_captures_on_a_frame :
    let w := fun pos => ({ pos := pos, x := 5, mixed := none, again := false } : SlotWrite)
    let a := onWith (basing 16384 [9] [w 16384])
    let b := onWith (basing 0 [] [w 0])
    let n := onWith (basing 2879999 [9] [])
    let f := onWith fun e => modLayer 0 (fun r => { r with mult := some 1 }) (capturing .fixed 4799 (cyc 4800 2) e)
    (a.Still ∧ b.Still ∧ n.Still ∧ f.Still)
      ∧ a.eng.cyc.splice = .idle ∧ a.eng.slots[(0 : SlotIx)].layer = some 0 ∧ a.eng.slots[(0 : SlotIx)].lane = some 0
      ∧ a.eng.cyc.state = .baseCapture ∧ a.eng.slots[(0 : SlotIx)].use = .base ∧ a.eng.layers[(0 : LayerIx)].slot = some 0
      ∧ a.eng.slots[(0 : SlotIx)].pendingWrites = [w 16384] ∧ [9].length * 16384 ≤ 16384
      ∧ ([9] ++ [0]).head? = some 9 ∧ ([] ++ [0]).head? = some 0 ∧ a.eng.mem.free = 0 :: a.eng.mem.free.tail
      ∧ openGap a.eng.slots[(0 : SlotIx)] = none ∧ (a.eng.slots[(0 : SlotIx)].staging.filter Entry.isData).length < 1024
      ∧ (∀ i : SlotIx, i ≠ 0 → a.eng.slots[i].use = .free ∧ a.eng.slots[i].pendingWrites = [])
      ∧ n.eng.slots[(0 : SlotIx)].pendingWrites = [] ∧ 2879999 < 2880000
      ∧ f.eng.slots[(0 : SlotIx)].use = .fixed ∧ f.eng.slots[(0 : SlotIx)].pendingWrites = []
      ∧ f.eng.slots[(0 : SlotIx)].count + 1 = f.eng.len 0 ∧ (after .frame f).eng.position 0 = 3 := by
  refine ⟨⟨still_of _ rfl ?_, still_of _ rfl ?_, still_of _ rfl ?_, still_of _ rfl ?_⟩, ?_⟩ <;> decide +kernel

theorem witness_FixedCaptureComplete :
    let w : SlotWrite := { pos := 2, x := 5, mixed := none, again := false }
    let s := fun n => onWith fun e => modLayer 0 (fun r => { r with mult := some 1 })
      (modSlot 0 (fun sl => { sl with pendingWrites := [w] }) (capturing .fixed n (cyc 4800 2) e))
    (s 4799).powered = true ∧ (s 4799).eng.slots[(0 : SlotIx)].use = .fixed
      ∧ (s 4799).eng.slots[(0 : SlotIx)].layer = some 0 ∧ (s 4799).eng.layers[(0 : LayerIx)].slot = some 0
      ∧ (s 4799).eng.layers[(0 : LayerIx)].cur = some (9 :: []) ∧ (s 4799).eng.slots[(0 : SlotIx)].pendingWrites = [w]
      ∧ (s 4799).eng.slots[(0 : SlotIx)].count + 1 = (s 4799).eng.len 0
      ∧ (s 4799).eng.slots[(0 : SlotIx)].staging = []
      ∧ (s 4798).eng.slots[(0 : SlotIx)].count + 1 < (s 4798).eng.len 0 := by decide +kernel

theorem witness_GrantComplete :
    let g := fun who left first count cancelled =>
      ({ newGrant who 5 0 9 false first count with left := left, cancelled := cancelled } : Grant)
    let s := fun g => onWith fun e => { modVoice 0 (fun v =>
        { v with rs := .reading, main := { base := 4790, frames := List.replicate 10 1 } })
          (modSlot 1 (fun sl => { sl with staging := [{ layer := 0, key := 9, body := .data 4799 5 }] })
            (held .held (some lastFrame) e)) with mem := { e.mem with grant := some g } }
    let a := s (g (.voice 0) 0 0 128 false)
    a.powered = true ∧ a.eng.mem.grant = some (g (.voice 0) 0 0 128 false)
      ∧ (∀ i : LayerIx, a.eng.layers[i].written = none) ∧ 0 < (g (.voice 0) 1 0 128 false).left
      ∧ (g .filler 0 0 1 true).cancelled = true
      ∧ a.eng.voices[(0 : LayerIx)].rs ≠ .idle ∧ a.eng.voices[(0 : LayerIx)].clearing = false
      ∧ 0 = (4790 + 10) % a.eng.len 0 ∧ 0 < a.eng.len 0 ∧ cellsWf a.eng.mem.cells = true
      ∧ a.eng.slots[(1 : SlotIx)].staging = { layer := 0, key := 9, body := .data 4799 5 } :: []
      ∧ a.eng.layers[(0 : LayerIx)].cur = some [9] ∧ [9].head? = some 9 ∧ [9][4799 / 16384]? = some 9
      ∧ a.eng.xfer = some lastFrame ∧ lastFrame.write = false ∧ lastFrame.release = false
      ∧ lastFrame.count ≤ lastFrame.moved + (g .transfer 0 4799 1 false).count ∧ 4799 < a.eng.len 0 := by
  decide +kernel

/-- P0 LOCKED, as the clock source or not, with lane 0 having formed its sample from it or not. -/
def hearing (from0 : Option PortIx) (active : ClockSource) (f : Port → Port) (e : Engine) : Engine :=
  { locked (0, 0) e with
    clk := { e.clk with active := active, selected := active },
    lanes := upd (Vector.replicate 4 { e.lanes[(0 : LaneIx)] with formed := none }) 0 fun ln =>
      { ln with formed := from0, x := 5, peak := 5 },
    ports := upd (locked (0, 0) e).ports 0 f }

/-- A LOCKED port is disabled, held or loses its lock: unheard, or the clock source, or heard by lane 0. -/
theorem witness_ports_that_leave_lock :
    let s := fun from0 active => onWith (hearing from0 active id)
    let lost := fun from0 active => onWith (hearing from0 active fun q => { q with bad := 4 })
    (∀ l : LaneIx, (s none .port0).eng.lanes[l].formed ≠ some 0 ∧ (s none .internal).eng.lanes[l].formed ≠ some 0
        ∧ (lost none .internal).eng.lanes[l].formed ≠ some 0 ∧ (lost none .port0).eng.lanes[l].formed ≠ some 0)
      ∧ (s (some 0) .internal).eng.lanes[(0 : LaneIx)].formed = some 0
      ∧ takes 1 [byte 0, flagByte false, flagByte true, 15] (ask 1 [0, 0, 1, 15] (s none .port0)) = true
      ∧ takes 29 [byte (1 + 0)] (ask 29 [1] (s none .port0)) = true
      ∧ (s none .port0).eng.ports[(0 : PortIx)].lock = .locked ∧ (s none .port0).eng.ports[(0 : PortIx)].recovery = .none
      ∧ (s none .port0).eng.ports[(0 : PortIx)].held = false ∧ (s none .port0).eng.clk.active = .port0
      ∧ (s none .internal).eng.clk.active = .internal ∧ (lost none .port0).eng.clk.p0Frames = []
      ∧ (lost none .port0).eng.ports[(0 : PortIx)].bad = 4 ∧ (lost none .port0).eng.ports[(0 : PortIx)].lock = .locked
      ∧ (lost none .port0).eng.ports[(0 : PortIx)].recovery = .none ∧ (lost none .port0).eng.clk.active = .port0 := by
  decide +kernel

/-- One voice of layer 0 over the position of a cycle of 4,800 frames, on a part that is still. -/
def voiced (st : LayerState) (p : Nat) (f : Voice → Voice) (e : Engine) : Engine :=
  modVoice 0 f (modLayer 0 (fun _ => filled st 9) (run 4800 p e))

/-- On the frame from 4,799 to 0: a voice that holds the frames it needs, steady or rising, one a frame
short, a starved one and a priming one. -/
theorem witness_voices_on_a_frame :
    let v := fun st f => onWith (voiced st 4799 f)
    let reads := fun n dir v => ({ v with rs := .reading, pos := some 4799, dir := dir, short := 4000, env := 4095,
                                          main := { base := 4799, frames := List.replicate n 7 } } : Voice)
    let starved := fun v => ({ v with rs := .starved, dir := .falling, stall := some 4799, starvedCount := some 2 } : Voice)
    let priming := fun v => ({ v with rs := .priming, pos := some 4799, env := 0 } : Voice)
    let u := fun (s : State) => s.eng.voices[(0 : LayerIx)]
    ((v .playing (reads 3 .steady)).Still ∧ (v .overdubbing (reads 3 .rising)).Still ∧ (v .playing (reads 2 .steady)).Still
        ∧ (v .playing starved).Still ∧ (v .playing priming).Still)
      ∧ (u (v .playing (reads 3 .steady))).main.frames.drop 1 = 7 :: 7 :: []
      ∧ (u (v .playing (reads 2 .steady))).main.frames.length < 1 + 2 ∧ (u (v .playing starved)).dir = .falling
      ∧ primingDue (v .playing priming).eng 0 = false ∧ primingDue (v .playing (reads 3 .steady)).eng 0 = false
      ∧ (v .playing priming).eng.layers[(0 : LayerIx)].mult = some 1 ∧ (v .playing priming).eng.len 0 = 4800
      ∧ (4799 + 1) % 4800 = (after .frame (v .playing (reads 3 .steady))).eng.position 0
      ∧ (u (after .frame (v .playing (reads 3 .steady)))).sample = 6
      ∧ (u (after .frame (v .playing (reads 2 .steady)))).rs = .starved := by
  refine ⟨⟨still_of _ rfl ?_, still_of _ rfl ?_, still_of _ rfl ?_, still_of _ rfl ?_, still_of _ rfl ?_⟩, ?_⟩ <;>
    decide +kernel

/-- Buffers of 0, 1, 2 and 16 frames of a fill of 2, in and out of a recovery, and one that is filling. -/
theorem witness_removals :
    let s := fun n r fl => onWith (modPort 3 fun q =>
      { q with lock := .locked, fill := 2, buf := List.replicate n (1, 2), recovery := r, filling := fl })
    let q := fun (s : State) => s.eng.ports[(3 : PortIx)]
    ((s 0 .none false).Still ∧ (s 1 .none false).Still ∧ (s 1 .under false).Still ∧ (s 2 .under false).Still
        ∧ (s 16 .over false).Still ∧ (s 1 .none true).Still ∧ (s 2 .none true).Still)
      ∧ (q (s 1 .none false)).buf = (1, 2) :: [] ∧ (q (s 0 .none false)).buf = []
      ∧ (q (s 1 .under false)).buf.length < (q (s 1 .under false)).fill
      ∧ (q (s 2 .under false)).buf = (1, 2) :: [(1, 2)] ∧ (q (s 2 .under false)).fill ≤ 2
      ∧ (q (s 16 .over false)).buf = (1, 2) :: List.replicate 15 (1, 2) ∧ (q (s 1 .none true)).filling = true := by
  refine ⟨⟨still_of _ rfl ?_, still_of _ rfl ?_, still_of _ rfl ?_, still_of _ rfl ?_, still_of _ rfl ?_,
    still_of _ rfl ?_, still_of _ rfl ?_⟩, ?_⟩ <;> decide +kernel

/-- A grant for layer 0, whose one page is 9 and which is 4,800 frames long. -/
def granted (who : Requester) (write : Bool) (first count : Nat) : Grant :=
  { newGrant who 5 0 9 write first count with left := 0 }

/-- The last and the last but one piece of a finish copy with an undo chain, of a zero fill, of a transfer either way,
and a splice fill over the end of the layer. -/
theorem witness_grants :
    let s := fun g f => onWith fun e => { (held .held none (f e)) with mem := { (f e).mem with grant := some g } }
    let copy := fun w => onWith fun e =>
      let e1 := addJob 0 .finishCopy (modLayer 0 (fun r => { r with written := some (0, w), undo := some [8] }) (with1 0 .playing e))
      { e1 with mem := { e1.mem with grant := some (granted .filler true 4799 1), work := [5] } }
    let zero := s (granted .filler true 4799 1) fun e => addJob 0 .zeroFill (held .held none e)
    let moving := fun w tr => onWith fun e =>
      { held .held (some { lastFrame with write := w, release := tr, data := if w then [5] else [] }) e with
        mem := { e.mem with grant := some (granted .transfer w 4799 1) } }
    let fill := onWith fun e =>
      let e1 := splicing (.fetching (spliceOf 5 7)) 4700 0 e
      { modVoice 0 (fun v => { v with spl := { base := 4799, frames := [] } }) e1 with
        mem := { e1.mem with grant := some (granted (.splice 0) false 4799 2) } }
    (∀ w ∈ [4798, 4799], (copy w).eng.mem.jobs = { layer := 0, key := some 9, kind := .finishCopy, done := 0 } :: []
        ∧ (copy w).eng.layers[(0 : LayerIx)].written = some (0, w) ∧ (copy w).eng.voices[(0 : LayerIx)].rs = .idle
        ∧ (copy w).eng.cyc.splice = .idle ∧ (copy w).eng.layers[(0 : LayerIx)].cur.bind List.head? = some 9
        ∧ (∀ i : LayerIx, i ≠ 0 → (copy w).eng.layers[i].written = none) ∧ ((copy w).eng.mem.work.take 1).length = 1
        ∧ (chainKey (copy w).eng.layers[(0 : LayerIx)].undo).isSome = true ∧ (copy w).eng.len 0 = 4800)
      ∧ zero.eng.mem.jobs = { layer := 0, key := some 9, kind := .zeroFill, done := 0 } :: []
      ∧ zero.eng.layers[(0 : LayerIx)].cur = some [9] ∧ [9].head? = some 9 ∧ [9].Nodup ∧ 4800 ≤ 16384 * [9].length
      ∧ 0 + (granted .filler true 4799 1).count < 4800 ∧ 4800 ≤ 4799 + (granted .filler true 4799 1).count
      ∧ (∀ i : LayerIx, zero.eng.layers[i].written = none) ∧ (∀ i : SlotIx, zero.eng.slots[i].staging = [])
      ∧ cellsWf zero.eng.mem.cells = true ∧ 4799 + 1 ≤ zero.eng.len 0
      ∧ (moving true true).eng.xfer = some { lastFrame with write := true, release := true, data := [5] }
      ∧ (moving false false).eng.xfer = some lastFrame ∧ 0 + 1 ≤ [(5 : Sample)].length
      ∧ fill.eng.cyc.splice = .fetching (spliceOf 5 7) ∧ (0 : LayerIx) ∈ (spliceOf 5 7).voices
      ∧ 4799 = (fill.eng.voices[(0 : LayerIx)].spl.base + fill.eng.voices[(0 : LayerIx)].spl.frames.length) % fill.eng.len 0
      ∧ (after .grantComplete fill).eng.voices[(0 : LayerIx)].spl.frames = [0, 0] := by decide +kernel

/-- The cleared layer's voice takes part in a splice, and the layer is OVERDUBBING with a job, an age and a staged entry;
and a CLEAR_ALL of it with another layer. -/
theorem witness_clears_in_a_splice :
    let s := fun a t sp more => onWith fun e => due a t (more (addJob 0 .finishCopy
      (modSlot 1 (fun sl => { sl with use := .overdub, layer := some 0, lane := some 0,
                                      staging := [{ layer := 0, key := 9, body := .data 1 5 }] })
        (modLayer 0 (fun r => { r with state := .overdubbing, slot := some 1, written := some (0, 3) })
          (splicing sp 4700 0 { e with mem := { e.mem with age := [(0, .undo)] } })))))
    let two := modLayer 1 fun _ => filled .stopped 8
    let c := fun sp more => s .clear (.layer 0) sp more
    turns .clear (.layer 0) (c (.fetching (spliceOf 5 7)) two) = true
      ∧ turns .clear (.layer 0) (c (.crossfading (spliceOf 5 7)) two) = true
      ∧ turns .clear (.layer 0) (c (.fetching (spliceOf 5 7)) id) = true
      ∧ (c (.fetching (spliceOf 5 7)) two).eng.layers[(0 : LayerIx)].hold = .none
      ∧ (c (.fetching (spliceOf 5 7)) two).eng.layers[(0 : LayerIx)].slot = some 1 ∧ (0 : LayerIx) ∈ (spliceOf 5 7).voices
      ∧ (c (.crossfading (spliceOf 5 7)) two).eng.voices[(0 : LayerIx)].spl.frames = []
      ∧ (c (.crossfading (spliceOf 5 7)) two).eng.voices[(0 : LayerIx)].rs = .reading
      ∧ (c (.fetching (spliceOf 5 7)) two).eng.layers[(1 : LayerIx)].state ≠ .empty
      ∧ (∀ i : LayerIx, i ≠ 0 → (c (.fetching (spliceOf 5 7)) id).eng.layers[i].state = .empty)
      ∧ (c (.fetching (spliceOf 5 7)) id).eng.cyc.state = .running
      ∧ turns .clearAll .all (s .clearAll .all .idle two) = true
      ∧ (∀ i : LayerIx, (s .clearAll .all .idle two).eng.layers[i].hold = .none)
      ∧ (s .clearAll .all .idle two).eng.cyc.splice = .idle
      ∧ (after .clear (c (.fetching (spliceOf 5 7)) two)).eng.slots[(1 : SlotIx)] = Slot.reset := by decide +kernel

/-- A priming voice, a starved one with and without a pair formed, one of a STOPPED layer, and clear fades that end
on an EMPTY layer and on one that is OVERDUBBING again. -/
theorem witness_VoiceEvents :
    let s := fun st f => onWith fun e => modVoice 0 f (with1 0 st e)
    let p := s .playing fun v => { v with rs := .priming, pos := some 4799, main := { base := 4799, frames := [1, 2] } }
    let r := s .playing fun v =>
      { v with rs := .starved, stall := some 4790, main := { base := 4790, frames := List.replicate 448 1 } }
    let heard := { r.eng with mix := { r.eng.mix with computed := some (0, 0) } }
    let i := s .stopped fun v => { v with rs := .reading }
    let c := s .empty fun v => { v with rs := .reading, clearing := true, env := 8, short := 0 }
    let d := s .overdubbing fun v => { v with rs := .reading, clearing := true }
    p.powered = true ∧ p.eng.voices[(0 : LayerIx)].rs = .priming ∧ p.eng.voices[(0 : LayerIx)].pos = some 4799
      ∧ p.eng.voices[(0 : LayerIx)].main.base = 4799 ∧ p.eng.voices[(0 : LayerIx)].main.frames = 1 :: 2 :: []
      ∧ 4799 < p.eng.len 0 ∧ p.eng.mem.jobs = []
      ∧ r.eng.voices[(0 : LayerIx)].rs = .starved ∧ r.eng.voices[(0 : LayerIx)].stall = some 4790
      ∧ 448 ≤ r.eng.voices[(0 : LayerIx)].main.frames.length ∧ r.eng.layers[(0 : LayerIx)].state = .playing
      ∧ r.eng.voices[(0 : LayerIx)].main.frames.drop 9 = 1 :: 1 :: List.replicate 437 1
      ∧ r.eng.mix.computed = none ∧ heard.mix.computed = some (0, 0)
      ∧ r.eng.layers[(0 : LayerIx)].slot = none ∧ 4790 + 9 = r.eng.position 0 ∧ r.eng.position 0 < r.eng.len 0
      ∧ i.eng.layers[(0 : LayerIx)].state = .stopped ∧ i.eng.voices[(0 : LayerIx)].rs ≠ .idle
      ∧ i.eng.voices[(0 : LayerIx)].env = 0 ∧ c.eng.voices[(0 : LayerIx)].clearing = true
      ∧ c.eng.voices[(0 : LayerIx)].short = 0 ∧ c.eng.layers[(0 : LayerIx)].state ≠ .playing
      ∧ d.eng.voices[(0 : LayerIx)].env = 0 ∧ d.eng.layers[(0 : LayerIx)].state = .overdubbing ∧ 0 < d.eng.len 0 := by
  decide +kernel

theorem witness_PortFrames :
    let s := fun f => onWith (modPort 0 f)
    let q := fun (s : State) => s.eng.ports[(0 : PortIx)]
    let search := s fun q => { q with lock := .searching, good := 7, markerSeen := true }
    let lock := fun n r => s fun q => { q with lock := .locked, bad := 3, markerSeen := true,
                                               buf := List.replicate n (0, 0), recovery := r }
    let p0 := onWith fun e => { modPort 0 (fun q => { q with lock := .locked, markerSeen := true }) e with
      clk := { e.clk with active := .port0 } }
    let unlocked := onWith fun e => { e with clk := { e.clk with pllLocked := false } }
    on.powered = true ∧ (q on).calm ∧ (q search).calm ∧ (q (lock 15 .none)).calm ∧ (q (lock 16 .under)).calm
      ∧ (q (lock 16 .over)).calm ∧ (q p0).calm ∧ (q on).lock = .disabled ∧ (q search).lock ≠ .disabled
      ∧ (q search).markerSeen = true ∧ search.eng.clk.pllLocked = true ∧ unlocked.eng.clk.pllLocked = false
      ∧ (q (s fun q => { q with lock := .searching })).markerSeen = false
      ∧ (q (lock 15 .none)).buf.length < 16 ∧ 16 ≤ (q (lock 16 .under)).buf.length
      ∧ (q (lock 16 .over)).recovery = .over ∧ ¬((0 : PortIx) = 0 ∧ on.eng.clk.active = .port0)
      ∧ p0.eng.clk.active = .port0 ∧ (List.replicate 48 true).length = 48 ∧ (List.replicate 47 true).length ≠ 48 := by
  simp only [Port.calm]
  decide +kernel

theorem witness_PortEvents :
    let s := fun f => onWith (modPort 0 f)
    let q := fun (s : State) => s.eng.ports[(0 : PortIx)]
    let lock := s fun q => { q with lock := .searching, good := 8 }
    let p0 := onWith fun e => { lock.eng with clk := { e.clk with selected := .port0 } }
    let lost := s fun q => { q with lock := .locked, bad := 4, filling := true, buf := List.replicate 6 (0, 0) }
    let p0lost := onWith fun e => { lost.eng with clk := { e.clk with active := .port0 } }
    let slip := fun r => s fun q => { q with slipEnds := true, recovery := r }
    on.powered = true ∧ (q lock).lock = .searching ∧ 8 ≤ (q lock).good ∧ lock.eng.clk.selected ≠ .port0
      ∧ p0.eng.clk.selected = .port0 ∧ p0.eng.clk.pllLocked = true ∧ (q p0).good = 8
      ∧ (q lost).lock = .locked ∧ 4 ≤ (q lost).bad ∧ (q lost).recovery = .none ∧ lost.eng.clk.active ≠ .port0
      ∧ p0lost.eng.clk.active = .port0 ∧ (q lost).filling = true ∧ (q lost).fill ≤ (q lost).buf.length
      ∧ (q (slip .under)).slipEnds = true ∧ (q (slip .under)).recovery = .under
      ∧ (q (slip .over)).recovery = .over := by decide +kernel

theorem witness_SamplingEvent :
    let s := onWith fun e => { e with ped := { e.ped with due := true } }
    let h := onWith fun e => { e with ped := { e.ped with due := true, held := true } }
    let m := onWith fun _ => mapped 7 (.livePan 3) s.eng
    let v := (after (.samplingEvent 33 0 0 0) m).eng.ped.chan[(0 : PedalIx)].smooth
    takes 31 [] (ask 31 [] on) = true ∧ takes 30 [5] (ask 30 [5] h) = true ∧ s.powered = true ∧ s.eng.ped.due = true
      ∧ s.eng.ped.held = false ∧ h.eng.ped.held = true ∧ (∀ j : MapIx, s.eng.ped.map[j] = none)
      ∧ m.eng.ped.map[(7 : MapIx)] = some (mapping (.livePan 3)) ∧ (∀ j : MapIx, j ≠ 7 → m.eng.ped.map[j] = none)
      ∧ (mapping (.livePan 3)).high ≤ (PedalTarget.livePan 3).top ∧ v = 33 ∧ (31 : Nat) < ((33 : Int) - 1).natAbs
      ∧ (∃ i : PedalIx, s.eng.ped.chan[i].seed = true)
      ∧ (∃ i : PedalIx, (after (.samplingEvent 33 0 0 0) m).eng.ped.chan[i].seed = false) := by decide +kernel

theorem witness_OverdubValue : on.eng.inRange = true := by decide +kernel

theorem witness_LaneAndMixSamples :
    let e := (onWith (locked (8388607, -8388608))).eng
    e.lanes[(0 : LaneIx)].source = some 0 ∧ e.ports[(0 : PortIx)].lock = .locked
      ∧ e.ports[(0 : PortIx)].filling = false ∧ e.lanes[(1 : LaneIx)].source = some 1
      ∧ e.ports[(1 : PortIx)].lock ≠ .locked := by decide +kernel

/-! ## Witnesses of further clauses -/

/-- INTERNAL is selected while PORT0 is active, heard or not, and while it is selected but not active; a relock finds
P0 LOCKED and the source. -/
theorem witness_ClockSet_leaving_PORT0 :
    let p0 := fun from0 => onWith (hearing from0 .port0 id)
    let sel := onWith fun e => { e with clk := { e.clk with selected := .port0 } }
    takes 3 [0x80, 0xBB, byte (ClockSource.internal).code] (ask 3 [0x80, 0xBB, 0] (p0 (some 0))) = true
      ∧ (p0 none).eng.clk.selected = .port0 ∧ (p0 none).eng.clk.active = .port0 ∧ (p0 none).eng.cyc.state = .unset
      ∧ (∀ l : LaneIx, (p0 none).eng.lanes[l].formed ≠ some 0) ∧ sel.eng.clk.selected = .port0
      ∧ sel.eng.clk.active = .internal ∧ (p0 none).eng.ports[(0 : PortIx)].lock = .locked
      ∧ (p0 none).eng.ports[(0 : PortIx)].recovery = .none ∧ (p0 none).eng.mix.clipping = none := by decide +kernel

/-- CYCLE_QUERY in UNSET and over a base capture of 9 frames. -/
theorem witness_CycleQuery_without_a_cycle :
    let b := onWith (basing 9 [9] [])
    takes 22 [] (ask 22 [] on) = true ∧ takes 22 [] (ask 22 [] b) = true ∧ on.eng.cyc.len = none
      ∧ on.eng.cyc.state = .unset ∧ on.eng.cyc.base = none ∧ b.eng.cyc.len = none ∧ b.eng.cyc.state = .baseCapture
      ∧ b.eng.cyc.base = some 0 ∧ b.eng.layers[(0 : LayerIx)].slot = some 0 ∧ b.eng.slots[(0 : SlotIx)].count = 9 := by
  decide +kernel

/-- A splice of no voice, whose conditions hold at once, at a position and beat of a cycle of 4,800 frames. -/
def voiceless (j : Int) (p beat : Nat) (e : Engine) : Engine :=
  { e with
    cyc := { cyc 4800 p with splice := .fetching { j := j, x := 32, voices := [], count := 7 }, beat := beat },
    fol := { e.fol with decisionMade := true } }

/-- A splice of voice 0 meets the end of the cycle, a forward jump carries p to C, to one frame before it, or past a
grid point, a backward jump falls behind one that the advance reached. -/
theorem witness_SpliceSteps_at_grid_points :
    let w := onWith (splicing (.fetching (spliceOf 5 7)) 4799 40)
    let f := fun j p beat => onWith (voiceless j p beat)
    (w.Still ∧ (f (-9) 4790 3).Still ∧ (f (-8) 4790 3).Still ∧ (f (-20) 1190 0).Still ∧ (f 5 3599 2).Still)
      ∧ w.eng.cyc.splice = .fetching (spliceOf 5 7) ∧ (∀ i : SlotIx, w.eng.slots[i].use = .free)
      ∧ (f (-9) 4790 3).jumpDue = true ∧ (4800 : Int) ≤ (4791 : Nat) - (-9) ∧ (f (-8) 4790 3).jumpDue = true
      ∧ ((4799 : Nat) : Int) = (4791 : Nat) - (-8) ∧ (f (-20) 1190 0).jumpDue = true
      ∧ ((1211 : Nat) : Int) = (1191 : Nat) - (-20) ∧ (1 < 4 ∧ 1 * (4800 / 4) ≤ max 1191 1211 ∧ max 1191 1211 < 2 * (4800 / 4))
      ∧ (f 5 3599 2).jumpDue = true ∧ ((3595 : Nat) : Int) = (3600 : Nat) - 5 ∧ (3 < 4 ∧ 3 * (4800 / 4) ≤ max 3600 3595)
      ∧ (after .spliceJump (f (-20) 1190 0)).eng.cyc.beat = 1 ∧ (after .spliceJump (f 5 3599 2)).eng.cyc.beat = 3
      ∧ (after .spliceJump (f (-9) 4790 3)).eng.cyc.splice = .idle := by
  refine ⟨⟨still_of _ rfl ?_, still_of _ rfl ?_, still_of _ rfl ?_, still_of _ rfl ?_, still_of _ rfl ?_⟩, ?_⟩ <;>
    decide +kernel

/-- A RECORD takes a slot on the frame of the request and later, and a jump finds a voice in its clear fade. -/
theorem witness_SpliceSteps_abandoned :
    let s := fun n => onWith fun e => modLayer 5 (fun r => { r with state := .armed })
      (due (.record 2 0) (.layer 5) (locked (0, 0) (splicing (.fetching (spliceOf 5 n)) 4700 0 e)))
    let e := modVoice 0 (fun v => { v with clearing := true }) (splicing (.fetching (spliceOf 5 7)) 4700 40 on.eng)
    ((s 0).eng.lockedLane 0 ∧ (s 0).eng.firstFree 0) ∧ (s 7).eng.lockedLane 0 ∧ (s 7).eng.firstFree 0
      ∧ turns (.record 2 0) (.layer 5) (s 0) = true ∧ turns (.record 2 0) (.layer 5) (s 7) = true
      ∧ (s 7).eng.layers[(5 : LayerIx)].state = .armed ∧ (s 7).eng.layers[(5 : LayerIx)].hold = .none
      ∧ (s 7).eng.cyc.state = .running ∧ (s 7).eng.cyc.len = some 4800
      ∧ (s 0).eng.cyc.splice = .fetching (spliceOf 5 0) ∧ (s 7).eng.cyc.splice = .fetching (spliceOf 5 7)
      ∧ (2 * 4800 + 16383) / 16384 ≤ (s 7).eng.mem.free.length
      ∧ e.voices[(0 : LayerIx)].rs = .reading ∧ e.voices[(0 : LayerIx)].clearing = true := by
  refine ⟨lane_and_slot_free _ ?_, (lane_and_slot_free _ ?_).1, (lane_and_slot_free _ ?_).2, ?_⟩ <;> decide +kernel

/-- An empty free list, and one undo chain a reclaim may take or none. -/
def scarce (age : List (LayerIx × AgeKind)) (e : Engine) : Engine :=
  { modLayer 3 (fun _ => { filled .playing 6 with undo := some [7] }) e with
    mem := { e.mem with free := [], age := age } }

/-- RECORD and OVERDUB that need one page: none is left, or a reclaim gives one. -/
theorem witness_reclaim :
    let r := fun age => onWith fun e => modLayer 0 (fun r => { r with state := .armed })
      (scarce age (playing (.record 1 0) (run 4800 0 e)))
    let o := fun age => onWith fun e => scarce age (dubbing id e)
    let walk := fun (s : State) => reclaimWalk 1 0 none s.eng.mem.age s.eng
    let own := fun (s : State) => reclaimWalk 1 0 (some 0) s.eng.mem.age s.eng
    (((r []).eng.lockedLane 0 ∧ (r []).eng.firstFree 0) ∧ (o []).eng.lockedLane 0 ∧ (o []).eng.firstFree 0)
      ∧ turns (.record 1 0) (.layer 0) (r []) = true ∧ turns (.record 1 0) (.layer 0) (r [(3, .undo)]) = true
      ∧ turns (.overdub 0 32768 0) (.layer 0) (o []) = true ∧ turns (.overdub 0 32768 0) (.layer 0) (o [(3, .undo)]) = true
      ∧ (r []).eng.cyc.state = .running ∧ (r []).eng.cyc.len = some 4800 ∧ (1 * 4800 + 16383) / 16384 = 1
      ∧ (walk (r [])).mem.free = [] ∧ (walk (r [(3, .undo)])).mem.free = [7] ∧ (own (o [(3, .undo)])).mem.free = [7]
      ∧ (own (o [])).mem.free.length + 0 < 1 ∧ (o []).eng.layers[(0 : LayerIx)].written = none
      ∧ ((r [(3, .undo)]).eng.mem.age.map Prod.fst).Nodup := by
  refine ⟨⟨lane_and_slot_free _ ?_, lane_and_slot_free _ ?_⟩, ?_⟩ <;> decide +kernel

/-- PAUSE of a base capture at either side of 4,800 frames, a CLOSE of a fixed one that has written nothing, and a CLEAR
of the base capture's layer. -/
theorem witness_captures_ended :
    let base : Cycle := { Cycle.reset with state := .baseCapture, base := some 0 }
    let p := fun n => onWith fun e => due .pause .all (capturing .base n base e)
    let f := onWith fun e => modSlot 0 (fun sl => { sl with first := none, count := 0 })
      (modLayer 0 (fun r => { r with mult := some 1 }) (due .close (.layer 0) (capturing .fixed 0 (cyc 4800 4799) e)))
    let c := onWith fun e => due .clear (.layer 0) (capturing .base 9 base e)
    (∀ n ∈ [4799, 4800], turns .pause .all (p n) = true ∧ (p n).eng.slots[(0 : SlotIx)].count = n
        ∧ (p n).eng.cyc.state = .baseCapture ∧ (p n).eng.cyc.base = some 0 ∧ (p n).eng.cyc.splice = .idle)
      ∧ turns .close (.layer 0) f = true ∧ f.eng.slots[(0 : SlotIx)].first = none
      ∧ f.eng.slots[(0 : SlotIx)].start = some 1 ∧ f.eng.len 0 = 4800 ∧ f.eng.cyc.base = none ∧ f.eng.mem.jobs = []
      ∧ turns .clear (.layer 0) c = true ∧ c.eng.cyc.base = some 0 ∧ c.eng.layers[(0 : LayerIx)].state = .capturing
      ∧ c.eng.layers[(0 : LayerIx)].hold = .none ∧ c.eng.cyc.splice = .idle := by decide +kernel

/-- Layer 4 OVERDUBBING on S0 and layer 0 CAPTURING on S1, with a cue. -/
def busy (a : Action) (t : Target) (e : Engine) : Engine :=
  let e1 := modSlot 1 (fun sl => { sl with use := .fixed, layer := some 0, lane := some 0, first := some 3, start := some 2 })
    (modSlot 0 (fun sl => { sl with use := .overdub, layer := some 4, lane := some 0 }) (with1 4 .overdubbing e))
  due a t (modLayer 4 (fun r => { r with slot := some 0, written := some (0, 3), undo := some [8] })
    (modLayer 0 (fun _ => { filled .capturing 7 with slot := some 1 }) e1))

/-- STOP and STOP_ALL of an overdub, PAUSE with an overdub and a capture, and PAUSE while a splice is fetched. -/
theorem witness_overdubs_stopped :
    let s := fun a t => onWith (busy a t)
    let f := onWith fun e => due .pause .all (splicing (.fetching (spliceOf 5 7)) 4700 0 e)
    let r := (s .stop (.layer 4)).eng
    turns .stop (.layer 4) (s .stop (.layer 4)) = true ∧ turns .stopAll .all (s .stopAll .all) = true
      ∧ turns .pause .all (s .pause .all) = true ∧ turns .pause .all f = true
      ∧ r.layers[(4 : LayerIx)].state = .overdubbing ∧ r.layers[(4 : LayerIx)].slot = some 0 ∧ r.cyc.splice = .idle
      ∧ r.leavesCopy 4 = true ∧ (r.voices[(4 : LayerIx)]).idlesAtStop = true ∧ r.cyc.state = .running
      ∧ (∀ i : LayerIx, (r.layers[i].state = .overdubbing ∨ r.layers[i].state = .capturing) → r.layers[i].slot.isSome = true)
      ∧ (∀ i j : LayerIx, i ≠ j → r.layers[i].slot ≠ none → r.layers[i].slot ≠ r.layers[j].slot)
      ∧ r.slots[(1 : SlotIx)].first = some 3 ∧ r.voices[(0 : LayerIx)].rs = .idle ∧ r.len 0 = 4800
      ∧ f.eng.cyc.splice = .fetching (spliceOf 5 7) ∧ f.eng.fol.state = .tracking ∧ f.eng.cyc.state = .running
      ∧ (∀ i : LayerIx, f.eng.layers[i].state ≠ .capturing ∧ f.eng.layers[i].state ≠ .overdubbing) := by decide +kernel

/-- RECORD and OVERDUB on a lane that is LOCKED, in a wrong state, held, or with both slots taken; UNDO and REDO
without a kept chain. -/
theorem witness_CuesThatFail_in_order :
    let full := fun e => modSlot 0 (fun sl => { sl with use := .fixed }) (modSlot 1 (fun sl => { sl with use := .fixed }) e)
    let r := fun st hold st' => onWith fun e => full (modLayer 0 (fun r => { r with state := st, hold := hold })
      { playing (.record 1 0) e with cyc := { e.cyc with state := st' } })
    let o := fun hold => onWith fun e => full (modLayer 0 (fun r => { r with hold := hold }) (dubbing id e))
    ((∀ h ∈ [Hold.none, .pending], (o h).eng.lockedLane 0 ∧ (r .armed h .unset).eng.lockedLane 0)
        ∧ (r .stopped .none .unset).eng.lockedLane 0 ∧ (r .armed .none .paused).eng.lockedLane 0)
      ∧ turns (.record 1 0) (.layer 0) (r .armed .pending .unset) = true ∧ turns (.overdub 0 32768 0) (.layer 0) (o .held) = true
      ∧ (∀ i : SlotIx, (r .armed .none .unset).eng.slots[i].use ≠ .free ∧ (o .none).eng.slots[i].use ≠ .free)
      ∧ (o .none).eng.cyc.state = .running ∧ (o .none).eng.layers[(0 : LayerIx)].state = .playing
      ∧ (o .none).eng.layers[(0 : LayerIx)].written = none
      ∧ turns .undo (.layer 15) (onWith (cued .undo .playing)) = true
      ∧ (onWith (cued .undo .playing)).eng.layers[(15 : LayerIx)].undo = none
      ∧ turns .redo (.layer 15) (onWith (cued .redo .capturing)) = true := by
  have locks : ∀ e : Engine, e.lanes[(0 : LaneIx)].source = some 0 ∧ e.ports[(0 : PortIx)].lock = .locked → e.lockedLane 0 :=
    fun e h => ⟨0, h⟩
  refine ⟨⟨fun h hh => ?_, locks _ ?_, locks _ ?_⟩, ?_⟩
  · exact ⟨locks _ (by revert h; decide +kernel), locks _ (by revert h; decide +kernel)⟩
  all_goals decide +kernel

/-- A capture of layer 0 by S0, the other slot FREE: layers and slots name each other. -/
theorem witness_layers_and_slots_name_each_other :
    let f := onWith (capturing .fixed 4799 (cyc 4800 2))
    ∀ (k : LayerIx) (i : SlotIx), f.eng.layers[k].slot = some i ↔ f.eng.slots[i].layer = some k := by decide +kernel

/-- Voice 0 of layer 0 while PAUSED with the frames it needs and one short, starved and priming; on a crossfade's frames
with its new stream and without it, on the one on which the count reaches X; and in a clear fade at a short weight of 128. -/
theorem witness_VoiceEvents_beside_a_plain_frame :
    let v := fun st sp f => onWith fun e => let e1 := voiced .playing 4799 f e
      { e1 with cyc := { e1.cyc with state := st, splice := sp } }
    let reads := fun n (v : Voice) => ({ v with rs := .reading, pos := some 4799, env := 4096, short := 128,
                                                main := { base := 4799, frames := List.replicate n 7 } } : Voice)
    let starved := fun v => ({ v with rs := .starved, dir := .falling, stall := some 4799, starvedCount := some 2 } : Voice)
    let cross := fun n x => v .running (.crossfading { spliceOf 5 30 with x := x }) fun v =>
      { reads 0 v with spl := { base := 4799, frames := List.replicate n 9 }, store := { base := 3, frames := [1, 2, 3, 4] } }
    let last := v .running (.crossfading (spliceOf 5 31)) (reads 3)
    let fades := v .running .idle fun v => { reads 3 v with clearing := true, dir := .falling }
    let u := fun (s : State) => s.eng.voices[(0 : LayerIx)]
    ((v .paused .idle (reads 2)).Still ∧ (v .paused .idle (reads 1)).Still ∧ (v .paused .idle starved).Still
        ∧ (cross 3 32).Still ∧ (cross 2 32).Still ∧ last.Still ∧ fades.Still)
      ∧ (∀ i : SlotIx, fixedCompleteDue (cross 3 32).eng i = false) ∧ autoCloseDue (cross 3 32).eng = false
      ∧ (u (cross 3 32)).spl.frames.drop 1 = 9 :: 9 :: [] ∧ (u (cross 2 32)).spl.frames.length < 1 + 2
      ∧ (((3 + 2) % 4800 : Nat) : Int) = ((0 : Nat) + (5 : Int)) % 4800 ∧ 30 + 1 < 32 ∧ 31 + 1 = 32
      ∧ (u (after .frame (v .paused .idle (reads 2)))).sample = 0 ∧ (u (after .frame (v .paused .idle (reads 1)))).rs = .starved
      ∧ (u (after .frame (v .paused .idle starved))).starvedCount = some 2 ∧ (after .frame (cross 3 32)).eng.position 0 = 0
      ∧ (u (after .frame (cross 3 32))).last = 8 ∧ (u (after .frame (cross 2 32))).rs = .starved
      ∧ (u (after .frame last)).last = 7 ∧ (u fades).short = 128 ∧ (u (after .frame fades)).short = 0 := by
  refine ⟨⟨still_of _ rfl ?_, still_of _ rfl ?_, still_of _ rfl ?_, still_of _ rfl ?_, still_of _ rfl ?_, still_of _ rfl ?_,
    still_of _ rfl ?_⟩, ?_⟩ <;> decide +kernel

/-- Recovery across the layer's end with an overdub's writes to form again, recovery that finds the loop past every
frame, and a refill in progress of a voice that goes idle. -/
theorem witness_recovery_and_idling :
    let w : SlotWrite := { pos := 3, x := 1, mixed := some { old := 0, level := 0, feedback := 32768 }, again := false }
    let s := fun p => onWith fun e => modSlot 0 (fun sl => { sl with use := .overdub, layer := some 0, pendingWrites := [w] })
      (modLayer 0 (fun r => { r with slot := some 0 }) (voiced .overdubbing p (fun v => { v with
        rs := .starved, stall := some 4790, main := { base := 4790, frames := List.replicate 448 1 } }) e))
    let i := onWith fun e => { voiced .stopped 3 (fun v => { v with rs := .reading }) e with
      mem := { e.mem with grant := some (granted (.voice 0) false 0 9) } }
    let v := (s 3).eng.voices[(0 : LayerIx)]
    (4790 + 13) % 4800 = (s 3).eng.position 0 ∧ v.main.frames.drop 13 = 1 :: 1 :: List.replicate 433 1 ∧ v.clearing = false
      ∧ (s 3).eng.slots[(0 : SlotIx)].pendingWrites[0]? = some w ∧ w.pos = ((s 3).eng.position 0 + 0) % 4800
      ∧ (after (.recovery 0) (s 3)).eng.slots[(0 : SlotIx)].pendingWrites.map (fun w => w.mixed.map fun c => c.old) = [some 1]
      ∧ (4790 + 447) % 4800 = (s 437).eng.position 0 ∧ v.main.frames.length < 447 + 2
      ∧ (after (.recovery 0) (s 437)).eng.voices[(0 : LayerIx)].stall = some 437
      ∧ i.eng.layers[(0 : LayerIx)].state = .stopped ∧ i.eng.voices[(0 : LayerIx)].env = 0
      ∧ (after (.voiceIdle 0) i).eng.mem.grant.map Grant.cancelled = some true := by decide +kernel

/-- Frames of P0 that wait: as the clock source, after INTERNAL has been selected, and when its lock is lost. -/
theorem witness_waiting_frames :
    let s := fun ws active f => onWith fun e => let e1 := hearing none active f e
      { e1 with clk := { e1.clk with p0Frames := ws } }
    let fills := fun q => ({ q with filling := true, fill := 2, buf := [(1, 2)] } : Port)
    let lost := s [some (1, 2), none, some (3, 4)] .internal fun q => { q with bad := 4 }
    let q := fun (s : State) => s.eng.ports[(0 : PortIx)]
    (∀ p : PortIx, ((s [none] .port0 id).eng.ports[p]).calm ∧ ((s [none] .internal fills).eng.ports[p]).calm)
      ∧ (s [none] .port0 id).powered = true ∧ (s [none] .port0 id).eng.clk.starting = false
      ∧ (s [none] .port0 id).eng.clk.active = .port0 ∧ (s [none] .port0 id).eng.clk.p0Frames = none :: []
      ∧ (s [] .port0 id).eng.clk.p0Frames = []
      ∧ (q (s [none] .internal fills)).lock = .locked ∧ (q (s [none] .internal fills)).buf.length < 2
      ∧ (q lost).lock = .locked ∧ 4 ≤ (q lost).bad ∧ [some (1, 2), none].getLast? = some none
      ∧ lost.eng.clk.p0Frames = [some (1, 2), none] ++ [(3, 4)].map some ∧ (q (after (.lockLost 0) lost)).good = 1 := by
  simp only [Port.calm]
  decide +kernel

/-- A port with a recovery in progress is disabled, held, released or enabled, or loses its lock; one that is DISABLED is
held, and a held one that is not enabled released. -/
theorem witness_ports_in_recovery :
    let s := fun lk on h => onWith (hearing none .internal fun q =>
      { q with lock := lk, enabled := on, held := h, recovery := .under, slip := 3, bad := 4 })
    let q := fun lk on h => (s lk on h).eng.ports[(0 : PortIx)]
    let slips := fun c k b lk on h => events (after c (ask k b (s lk on h)))
    (∀ l : LaneIx, (s .locked true false).eng.lanes[l].formed ≠ some 0)
      ∧ (q .locked true false).lock = .locked ∧ (q .locked true false).bad = 4 ∧ (s .locked true false).eng.clk.p0Frames = []
      ∧ takes 1 [byte 0, flagByte false, flagByte false, 6] (ask 1 [0, 0, 0, 6] (s .locked true false)) = true
      ∧ slips .portSet 1 [0, 0, 0, 6] .locked true false = [.slip 0 .under 3, .laneLock 0 .disabled]
      ∧ slips .portSet 1 [0, 1, 0, 6] .disabled false false = [.slip 0 .under 3, .laneLock 0 .searching]
      ∧ slips .blockHold 29 [1] .searching true false = [.slip 0 .under 3, .laneLock 0 .disabled]
      ∧ slips .blockRelease 30 [1] .disabled true true = [.slip 0 .under 3, .laneLock 0 .searching]
      ∧ events (after (.lockLost 0) (s .locked true false)) = [.slip 0 .under 3, .laneLock 0 .searching]
      ∧ takes 29 [byte (1 + 0)] (ask 29 [1] (s .disabled false false)) = true ∧ (q .disabled false false).lock = .disabled
      ∧ (q .disabled false false).held = false ∧ takes 30 [byte (1 + 0)] (ask 30 [1] (s .disabled false true)) = true
      ∧ (q .disabled false true).held = true ∧ (q .disabled false true).enabled = false := by decide +kernel

/-- An import that reclaims the only kept chain, and one that is then still short; the ZERO_FILL of that chain ends with
it, and the hold that waited for it is granted. -/
theorem witness_imports :
    let s := onWith fun e => addJob 3 .zeroFill (modLayer 3 (fun r => { r with hold := .pending })
      (scarce [(3, .undo)] (run 4800 5 e)))
    let s := { s with eng := { s.eng with mem := { s.eng.mem with
      jobs := [{ layer := 3, key := some 7, kind := .zeroFill, done := 0 }] } } }
    let walk := fun n => reclaimWalk n 0 none s.eng.mem.age s.eng
    takes 17 [byte 0, 1] (ask 17 [0, 1] s) = true ∧ takes 17 [byte 0, 4] (ask 17 [0, 4] s) = true
      ∧ s.eng.layers[(0 : LayerIx)].state = .empty ∧ s.eng.layers[(0 : LayerIx)].hold = .none ∧ s.eng.cues.list = []
      ∧ (∀ j ∈ s.eng.mem.jobs, j.layer ≠ 0) ∧ s.eng.cyc.state = .running ∧ (1 * 4800 + 16383) / 16384 = 1
      ∧ (4 * 4800 + 16383) / 16384 = 2 ∧ (walk 1).mem.free = [7] ∧ (walk 2).mem.free.length < 2
      ∧ (∀ n ∈ [1, 4], (after .layerHold (ask 17 [0, n] s)).eng.layers[(3 : LayerIx)].hold = .held)
      ∧ events (after .layerHold (ask 17 [0, 4] s)) = [.undoLost 3, .holdGranted 3]
      ∧ answer (after .layerHold (ask 17 [0, 4] s)) = some .noSpace := by decide +kernel

/-- STOP, STOP_ALL and PAUSE while voice 0 takes part in a splice: fetching, crossfading on its new stream, and at the
count X. -/
theorem witness_stops_in_a_splice :
    let s := fun a t sp n => onWith fun e => due a t (splicing sp 4700 n e)
    let c := fun a t => s a t (.crossfading (spliceOf 5 7)) 40
    let v := fun (st : State) => st.eng.voices[(0 : LayerIx)]
    (∀ sp ∈ [Splice.fetching (spliceOf 5 7), .crossfading (spliceOf 5 7), .crossfading (spliceOf 5 32)],
        turns .stop (.layer 0) (s .stop (.layer 0) sp 40) = true ∧ turns .stopAll .all (s .stopAll .all sp 40) = true
          ∧ (s .stop (.layer 0) sp 40).eng.layers[(0 : LayerIx)].state = .playing
          ∧ (after .stop (s .stop (.layer 0) sp 40)).eng.cyc.splice = sp.without fun _ => true)
      ∧ turns .pause .all (c .pause .all) = true ∧ (c .pause .all).eng.cyc.state = .running
      ∧ (∀ i : LayerIx, (c .pause .all).eng.layers[i].state ≠ .capturing ∧ (c .pause .all).eng.layers[i].state ≠ .overdubbing)
      ∧ (c .pause .all).eng.fol.state = .tracking ∧ (v (c .stop (.layer 0))).idlesAtStop = false
      ∧ (v (c .stop (.layer 0))).spl.frames.length = 40 ∧ (7 < 32 ∧ 32 ≤ 32)
      ∧ (v (after .stop (c .stop (.layer 0)))).main.base = 4696
      ∧ (v (after .pause (c .pause .all))).main = (v (after .stopAll (c .stopAll .all))).main := by decide +kernel

/-- A CLEAR of an EMPTY layer while every layer is EMPTY: RUNNING with a splice and a tracking follower, and PAUSED. -/
theorem witness_CLEAR_of_nothing :
    let s := fun st => onWith fun e => let e1 := due .clear (.layer 2) (voiceless 5 1000 0 e);
      { e1 with cyc := { e1.cyc with state := st }, fol := { e1.fol with state := .tracking, source := .tap } }
    (∀ st ∈ [CycleState.running, .paused], turns .clear (.layer 2) (s st) = true ∧ (s st).eng.cyc.state = st
        ∧ (∀ i : LayerIx, (s st).eng.layers[i].state = .empty) ∧ (s st).eng.layers[(2 : LayerIx)].hold = .none
        ∧ (s st).eng.cyc.base ≠ some 2)
      ∧ events (after .clear (s .running))
          = [.spliceSkipped 5 .cleared, .followState .waiting .cleared, .cycleCleared, .cueDone 1 (.layer 2) .clear 0] := by
  decide +kernel

/-- An overdub of layer 0 by S0 that has written 4,799 last, where its voice reads, over a frame's advance. -/
def dubbed (frac : Nat) (delta : Int) (ws : List SlotWrite) (wr : Option (Nat × Nat)) (staged : List Entry)
    (e : Engine) : Engine :=
  let reads := fun v : Voice =>
    { v with rs := .reading, pos := some 4799, env := 4096, main := { base := 4799, frames := [1, 2, 3, 4] } }
  let e1 := modSlot 0 (fun sl => { sl with use := .overdub, layer := some 0, lane := some 0, last := some 4799,
                                           pendingWrites := ws, staging := staged }) (voiced .overdubbing 4799 reads e)
  let e2 := modLayer 0 (fun r => { r with slot := some 0, written := wr }) e1
  { e2 with cyc := { e2.cyc with frac := frac }, fol := { e2.fol with delta := delta } }

/-- An overdub of layer 0 by S0 with its voice at the position it wrote last: the position stands, moves on by one, and
by two; and the write of the last position, or of the same one again, is made. -/
theorem witness_overdub_on_a_frame :
    let w := fun again => ({ pos := 0, x := 32, mixed := some { old := 8, level := 32768, feedback := 16384 }, again := again }
      : SlotWrite)
    let s := fun frac delta ws wr staged => onWith (dubbed frac delta ws wr staged)
    let f := fun frac delta => s frac delta [] none []
    let m := fun again wr staged => s 0 0 [w again] wr staged
    let put : Entry := { layer := 0, key := 9, body := .data 0 7 }
    let sl := fun (st : State) => st.eng.slots[(0 : SlotIx)]
    let writes := fun frac delta => (sl (after .frame (f frac delta))).pendingWrites.map fun w => (w.pos, w.again, w.mixed.map Combining.old)
    ((f 0 (-9)).Still ∧ (f 0 0).Still ∧ (f 65535 9).Still ∧ (m false (some (1, 4799)) []).Still ∧ (m true (some (1, 7)) [put]).Still)
      ∧ (∀ (k : LayerIx) (i : SlotIx), (f 0 0).eng.layers[k].slot = some i ↔ (f 0 0).eng.slots[i].layer = some k)
      ∧ (sl (f 0 0)).use = .overdub ∧ (f 0 0).eng.layers[(0 : LayerIx)].state = .overdubbing ∧ (f 0 0).eng.cyc.splice = .idle
      ∧ (after .frame (f 0 (-9))).eng.position 0 = 4799 ∧ (after .frame (f 0 0)).eng.position 0 = 0
      ∧ (after .frame (f 65535 9)).eng.position 0 = 1
      ∧ writes 0 (-9) = [(4799, true, some 1)] ∧ writes 0 0 = [(0, false, some 2)]
      ∧ writes 65535 9 = [(0, false, some 2), (1, false, some 3)]
      ∧ openGap (sl (m true (some (1, 7)) [put])) = none ∧ (m true (some (1, 7)) [put]).eng.layers[(0 : LayerIx)].cur = some [9]
      ∧ (sl (after .frame (m false (some (1, 4799)) []))).staging = [{ put with body := .data 0 36 }]
      ∧ (after .frame (m false (some (1, 4799)) [])).eng.layers[(0 : LayerIx)].written = none
      ∧ (sl (after .frame (m true (some (1, 7)) [put]))).staging = [{ put with body := .data 0 36 }] := by
  refine ⟨⟨still_of _ rfl ?_, still_of _ rfl ?_, still_of _ rfl ?_, still_of _ rfl ?_, still_of _ rfl ?_⟩, ?_⟩ <;>
    decide +kernel

/-- The reports of a splice abandoned at the end of the cycle, by the advance and by the jump, and the decision of a
follower that is WAITING, with a lane as its source. -/
theorem witness_SpliceSteps_reports :
    let w := onWith fun e => let e1 := splicing (.fetching (spliceOf 5 7)) 4799 40 e;
      { e1 with fol := { e1.fol with source := .lane 2 } }
    let f := onWith (voiceless (-9) 4790 3)
    let d := onWith fun e => let e1 := deciding 1 e;
      { e1 with fol := { e1.fol with state := .waiting, source := .lane 2 } }
    (w.Still ∧ d.Still) ∧ w.eng.evq.mask.getLsbD 19 = true ∧ w.eng.mix.clipping = none ∧ w.eng.evq.list.length + 0 < 24
      ∧ f.eng.evq.list.length + (3 - f.eng.cyc.beat) < 24
      ∧ .spliceSkipped 5 .cycleEnd ∈ events (after .frame w) ∧ .spliceSkipped (-9) .cycleEnd ∈ events (after .spliceJump f)
      ∧ d.eng.fol.decisionMade = false ∧ d.eng.fol.state ≠ .tracking ∧ d.eng.cyc.splice = .idle
      ∧ (after .frame d).eng.fol.decisionMade = true ∧ (after .frame d).eng.heard = none := by
  refine ⟨⟨still_of _ rfl ?_, still_of _ rfl ?_⟩, ?_⟩ <;> decide +kernel

/-- L0's sample of a frame is an onset that the follower accepts; what a TAP of the frame does then stands when P0 is
disabled on it, and what the onset did does not (R156; entry 51). -/
theorem test_onset_is_taken_back :
    let s := onWith fun e => let e1 := locked (900, 900) { run 4800 0 e with fol := { e.fol with
        source := .lane 0, state := .waiting, threshold := 8, holdOff := 480, window := 600 } }
      modPort 0 (fun q => { q with buf := [(900, 900), (900, 900)] }) e1
    let h := after .frame s
    let t := after .tap (ask 15 [] h)
    let b := after .portSet (ask 1 [0, 0, 0, 6] t)
    let c := after .portSet (ask 1 [0, 0, 0, 6] h)
    s.Still ∧ s.eng.fol.threshold < h.eng.lanes[(0 : LaneIx)].x.toInt.natAbs ∧ h.eng.lanes[(0 : LaneIx)].formed = some 0
      ∧ h.eng.heard.map Heard.lane = some 0 ∧ h.eng.fol.state = .tracking ∧ h.eng.fol.holdCount = 480
      ∧ (c.eng.fol.state = .waiting ∧ c.eng.fol.holdCount = 0 ∧ c.eng.fol.armed = true ∧ c.eng.fol.lastOnset = none)
      ∧ .followState .tracking .onset ∈ events h ∧ .followState .tracking .onset ∉ events c
      ∧ (b.eng.fol.state = .tracking ∧ b.eng.fol.holdCount = 0 ∧ b.eng.fol.armed = true)
      ∧ b.eng.fol.lastOnset.map OnsetRec.kind = some .tap ∧ .followState .tracking .onset ∈ events b :=
  ⟨still_of _ rfl (by decide +kernel), by decide +kernel⟩

/-- A fixed capture completes on the frame on which its lane's port is then disabled: the sample it staged is 0. -/
theorem test_completed_capture_is_silenced :
    let w : SlotWrite := { pos := 2, x := 5, mixed := none, again := false }
    let s := onWith fun e => modLayer 0 (fun r => { r with mult := some 1 }) (modSlot 0 (fun sl => { sl with pendingWrites := [w] })
      (capturing .fixed 4799 (cyc 4800 2) (hearing (some 0) .internal id e)))
    let t := after (.fixedCaptureComplete 0) s
    let staged := fun (st : State) => st.eng.slots[(0 : SlotIx)].staging.map Entry.body
    t.eng.lanes[(0 : LaneIx)].taken = [(0, 9, 2)] ∧ staged t = [.data 2 5]
      ∧ staged (after .portSet (ask 1 [0, 0, 0, 6] t)) = [.data 2 0] := by decide +kernel

/-! ## Witnesses of clauses on silenced ports, refusals, requests that are dropped and the reports of closes -/

/-- The part after a frame on which L0, reading P0 or P3, formed an onset that its follower accepted. -/
def onsetFrom (p : PortIx) : State :=
  after .frame (onWith fun e =>
    let e1 := { run 4800 0 e with fol := { e.fol with
      source := .lane 0, state := .waiting, threshold := 8, holdOff := 480, window := 600 } }
    let e2 := { e1 with lanes := upd e1.lanes 0 fun ln => { ln with source := some p } }
    modPort p (fun q => { q with enabled := true, lock := .locked, last := (900, 900), buf := [(900, 900), (900, 900)] }) e2)

/-- A LOCKED port that a lane has formed its sample from is disabled, held or loses its lock, at each end of the ports. -/
theorem witness_heard_ports_that_leave_lock :
    let bad := fun p => { onsetFrom p with eng := modPort p (fun q => { q with bad := 4 }) (onsetFrom p).eng }
    (∀ p ∈ [(0 : PortIx), 3], (onsetFrom p).eng.lanes[(0 : LaneIx)].formed = some p
        ∧ (onsetFrom p).eng.heard.map Heard.lane = some 0 ∧ (onsetFrom p).eng.ports[p].lock = .locked
        ∧ (onsetFrom p).eng.ports[p].held = false
        ∧ takes 1 [byte p.val, flagByte false, flagByte false, 6] (ask 1 [byte p.val, 0, 0, 6] (onsetFrom p)) = true
        ∧ takes 29 [byte (1 + p.val)] (ask 29 [byte (1 + p.val)] (onsetFrom p)) = true
        ∧ (bad p).powered = true ∧ 4 ≤ (bad p).eng.ports[p].bad ∧ (bad p).eng.ports[p].lock = .locked
        ∧ (if p = 0 then (bad p).eng.clk.p0Frames else []) = [] ++ ([] : List (Sample × Sample)).map some
        ∧ (after (.lockLost p) (bad p)).eng.lanes[(0 : LaneIx)].x = 0
        ∧ (after (.lockLost p) (bad p)).eng.heard = none) := by decide +kernel

/-- A change of rate while L0 has its sample from P0 and the pair of the frame clips, with a sampling event still due on
that frame and without; the event comes before PLL_LOCK. -/
theorem witness_ClockSet_relock :
    let s := fun due => onWith fun e => let e1 := hearing (some 0) .internal id e
      { e1 with mix := { e1.mix with clipping := some .left }, ped := { e1.ped with due := due } }
    (∀ due ∈ [false, true], takes 3 [0x44, 0xAC, byte (ClockSource.internal).code] (ask 3 [0x44, 0xAC, 0] (s due)) = true
        ∧ (s due).eng.clk.rate = 48000 ∧ (s due).eng.cyc.state = .unset ∧ (s due).eng.ports[(0 : PortIx)].lock = .locked
        ∧ (s due).eng.lanes[(0 : LaneIx)].formed = some 0 ∧ (s due).eng.mix.clipping = some .left ∧ (s due).eng.ped.due = due
        ∧ (after .clockSet (ask 3 [0x44, 0xAC, 0] (s due))).eng.ped.due = false
        ∧ (after .clockSet (ask 3 [0x44, 0xAC, 0] (s due))).eng.lanes[(0 : LaneIx)].x = 0)
      ∧ (events (after .clockSet (ask 3 [0x44, 0xAC, 0] (s false)))).take 2 = [.pllLock false 44100, .laneLock 0 .searching] := by
  decide +kernel

/-- Payloads of the other rows that are refused OUT_OF_RANGE, each byte one beyond its range. -/
theorem witness_out_of_range :
    takes 5 (6 :: List.replicate 17 0) (ask 5 (6 :: List.replicate 17 0) on) = true
      ∧ (∀ b ∈ ([[8, 0, 0, 0, 0, 0, 0, 0, 0], [0, 4, 0, 0, 0, 0, 0, 0, 0], [0, 0, 7, 0, 0, 0, 0, 0, 0],
          [0, 0, 6, 16, 0, 0, 0, 0, 0], [0, 0, 3, 4, 0, 0, 0, 0, 0]] : List (List Byte)),
        takes 10 b (ask 10 b on) = true ∧ answer (after .pedalMap (ask 10 b on)) = some .outOfRange)
      ∧ takes 17 [16, 1] (ask 17 [16, 1] on) = true ∧ takes 18 [16] (ask 18 [16] on) = true
      ∧ takes 19 [16, 0, 0, 0, 0, 1, 0] (ask 19 [16, 0, 0, 0, 0, 1, 0] on) = true
      ∧ takes 20 [16, 0, 0, 0, 0, 1, 2, 3] (ask 20 [16, 0, 0, 0, 0, 1, 2, 3] on) = true := by decide +kernel

/-- A message of each end of the list of kinds a setup may hold, taken as its own row takes it; and kinds beside the list. -/
theorem witness_StoreApply_kinds :
    takes 1 [0, 1, 0, 6] (ask 1 [0, 1, 0, 6] on) = true ∧ takes 30 [5] (ask 30 [5] on) = true
      ∧ (∀ kind ∈ [0, 13, 14, 15, 17, 28, 31, 255], kind ∉ [1, 2, 3, 4, 5, 6, 7, 8, 9, 10, 11, 12, 16, 29, 30]) := by
  decide +kernel

/-- CYCLE_SET while a layer is EMPTY though its multiple stands, and the frame that is owed the boundary, with a layer of the
cycle imported since and without. -/
theorem witness_CycleSet_owed_boundary :
    let s := fun f => onWith fun e => let e1 : Engine := f (run 4800 0 e); { e1 with cyc := { e1.cyc with owedBoundary := true } }
    let imported := modLayer 0 fun _ => filled .stopped 9
    let made := fun s : State => s.giving { s.eng with cyc := { s.eng.cyc with owedBoundary := false } }
    ((made (s id)).Quiet ∧ (made (s imported)).Quiet)
      ∧ (∀ f ∈ [id, imported], (s f).eng.cyc.owedBoundary = true ∧ (s f).eng.cyc.state = .running
        ∧ (∀ l : LayerIx, (s f).eng.voices[l].rs = .idle) ∧ (s f).eng.mix.clipping = none)
      ∧ takes 16 [0xC0, 0x12, 0, 0] (ask 16 [0xC0, 0x12, 0, 0] (onWith (modLayer 0 fun r => { r with mult := some 1 }))) = true := by
  refine ⟨⟨{ toSteady := steady_of (fun e => run 4800 0 e) rfl ?_, cycle := ?_, slots := ?_ },
    { toSteady := steady_of (fun e => modLayer 0 (fun _ => filled .stopped 9) (run 4800 0 e)) rfl ?_, cycle := ?_,
      slots := ?_ }⟩, ?_, ?_⟩
  all_goals decide +kernel

/-- The middle of a cycle with a request that is dropped: after a jump or a capture in this pass, while a splice fetches at
its last frame but one, while one crossfades at its last, and with a slot busy. -/
theorem witness_SpliceSteps_dropped :
    let s := fun sp f => onWith fun e => let e1 := splicing sp 2399 0 e
      { e1 with cyc := f e1.cyc, fol := { e1.fol with decisionMade := false, coastBeats := 64 } }
    let done := s .idle fun c => { c with spliceDone := true }
    let taken := s .idle fun c => { c with captureThisPass := true }
    let waits := s (.fetching (spliceOf 5 2399)) id
    let fades := s (.crossfading (spliceOf 5 31)) id
    let busy := onWith fun e => modLayer 0 (fun r => { r with mult := some 1 }) (capturing .fixed 7 (cyc 4800 2399) e)
    (done.Still ∧ taken.Still ∧ waits.Still ∧ fades.Still ∧ busy.Still)
      ∧ (∀ s ∈ [done, taken, waits, fades], s.eng.fol.decisionMade = false ∧ s.eng.fol.state = .tracking ∧ s.jumpDue = false
        ∧ s.eng.fol.beatCount + s.eng.cyc.beats < s.eng.fol.coastBeats ∧ s.eng.cyc.state = .running
        ∧ ∀ i : SlotIx, s.eng.slots[i].use = .free)
      ∧ done.eng.cyc.splice = .idle ∧ waits.eng.cyc.splice = .fetching (spliceOf 5 2399)
      ∧ fades.eng.cyc.splice = .crossfading (spliceOf 5 31) ∧ busy.eng.slots[(0 : SlotIx)].use ≠ .free
      ∧ fixedCompleteDue busy.eng 0 = false ∧ busy.eng.cyc.splice = .idle ∧ busy.eng.fol.decisionMade = false
      ∧ (after .frame waits).eng.cyc.splice = .fetching (spliceOf 5 2400)
      ∧ (after .frame fades).eng.cyc.splice = .crossfading (spliceOf 5 32)
      ∧ (after .frame busy).eng.cyc.captureThisPass = true := by
  refine ⟨⟨still_of _ rfl ?_, still_of _ rfl ?_, still_of _ rfl ?_, still_of _ rfl ?_, still_of _ rfl ?_⟩, ?_⟩
  all_goals decide +kernel

/-- A gap run of two frames at the tail of what a slot has staged. -/
def gapped (e : Engine) : Engine :=
  modSlot 0 (fun sl => { sl with staging := [{ layer := 0, key := 9, body := .gap 1 2 true }] }) e

/-- A close, a PAUSE and an AUTO_CLOSE of a base capture with an open gap run and a TRACKING follower, and a CLOSE of a fixed
capture with one. -/
theorem witness_closes_with_a_gap :
    let base : Cycle := { Cycle.reset with state := .baseCapture, base := some 0 }
    let s := fun a t n => onWith fun e => let e1 := gapped (due a t (capturing .base n base e))
      { e1 with fol := { e1.fol with source := .tap, state := .tracking },
                evq := { e1.evq with mask := 0xFFFFFFFF } }
    let auto := onWith fun e => gapped (capturing .base 2880000 base e)
    let fixed := onWith fun e => gapped (due .close (.layer 0) (capturing .fixed 7 (cyc 4800 10) e))
    turns .close (.layer 0) (s .close (.layer 0) 4800) = true ∧ turns .pause .all (s .pause .all 4800) = true
      ∧ auto.eng.cyc.state = .baseCapture ∧ auto.eng.cyc.base = some 0 ∧ auto.powered = true
      ∧ turns .close (.layer 0) fixed = true ∧ openGap fixed.eng.slots[(0 : SlotIx)] = some 2
      ∧ events (after .close (s .close (.layer 0) 4800)) = [.captureGap 0 2, .layerState 0 .playing .cue 1, .beat 0, .wrap 0,
          .cycleSet 4800 4, .cueDone 1 (.layer 0) .close 0]
      ∧ .followState .waiting .paused ∈ events (after .pause (s .pause .all 4800))
      ∧ .layerState 0 .playing .autoClose 0 ∈ events (after .autoClose auto)
      ∧ events (after .close fixed) = [.captureGap 0 2, .layerState 0 .playing .cue 1, .cueDone 1 (.layer 0) .close 0] := by
  decide +kernel

/-- A fixed capture's last write closes a gap run, while the buffer has room, and joins it at 1,024 entries. -/
theorem witness_FixedCaptureComplete_with_a_gap :
    let w : SlotWrite := { pos := 2, x := 5, mixed := none, again := false }
    let gap : Entry := { layer := 0, key := 9, body := .gap 1 2 true }
    let s := fun n => onWith fun e => modLayer 0 (fun r => { r with mult := some 1 }) (modSlot 0 (fun sl =>
      { sl with pendingWrites := [w], staging := List.replicate n { gap with body := .data 0 1 } ++ [gap] })
      (capturing .fixed 4799 (cyc 4800 2) e))
    (∀ n ∈ [1023, 1024], openGap (s n).eng.slots[(0 : SlotIx)] = some 2
        ∧ ((s n).eng.slots[(0 : SlotIx)].staging.filter Entry.isData).length = n
        ∧ (s n).eng.slots[(0 : SlotIx)].count + 1 = (s n).eng.len 0)
      ∧ events (after (.fixedCaptureComplete 0) (s 1023)) = [.captureGap 0 2, .layerState 0 .playing .captureEnd 0]
      ∧ events (after (.fixedCaptureComplete 0) (s 1024)) = [.layerState 0 .playing .captureEnd 0, .captureGap 0 3] := by
  decide +kernel

/-- Two holds that wait are granted, the lower layer first. -/
theorem test_holds_granted_in_order :
    let h := fun i => modLayer i fun _ => { filled .playing i.val with hold := .pending }
    events (onWith fun e => grantHolds (h 9 (h 3 e))) = [.holdGranted 3, .holdGranted 9] := by decide +kernel

/-! ## Witnesses of clauses on cues that wait, splices that stand, and the reports of cues on all layers -/

/-- The rate changes while a cue is due on the frame that ends: it executes with the command, after PLL_LOCK; and a part on
which one cue is due. -/
theorem witness_ClockSet_due_cue :
    let s := onWith (due .stopAll .all)
    takes 3 [0x44, 0xAC, byte (ClockSource.internal).code] (ask 3 [0x44, 0xAC, 0] s) = true ∧ s.eng.clk.rate = 48000
      ∧ s.eng.cyc.state = .unset ∧ s.eng.ped.due = false ∧ s.eng.cyc.state ≠ .baseCapture
      ∧ nextDue s.eng = some (dueCue .stopAll .all) ∧ nextDue (executeCue (dueCue .stopAll .all) s.eng) = none
      ∧ events (after .clockSet (ask 3 [0x44, 0xAC, 0] s)) = [.pllLock false 44100, .cueDone 1 .all .stopAll 0]
      ∧ (after .clockSet (ask 3 [0x44, 0xAC, 0] s)).eng.cues.list = [] := by decide +kernel

/-- A CUE_CANCEL that lets a hold be granted, and one that drops the hold of an ARMED layer. -/
theorem witness_CueCancel_with_a_hold :
    let waits := fun r : Layer => { r with hold := .pending }
    let s := onWith fun e => modLayer 15 waits (due (.overdub 0 1 1) (.layer 15) (with1 15 .playing e))
    let a := onWith fun e => due (.record 1 0) (.layer 5) (modLayer 5 (fun r => { waits r with state := .armed }) e)
    takes 14 [1, 0] (ask 14 [1, 0] s) = true ∧ takes 14 [1, 0] (ask 14 [1, 0] a) = true
      ∧ s.eng.cues.list = [] ++ dueCue (.overdub 0 1 1) (.layer 15) :: [] ∧ a.eng.layers[(5 : LayerIx)].state = .armed
      ∧ events (after .cueCancel (ask 14 [1, 0] s)) = [.holdGranted 15]
      ∧ (after .cueCancel (ask 14 [1, 0] a)).eng.layers[(5 : LayerIx)].hold = .none := by decide +kernel

/-- A TAP in BASE_CAPTURE on the frame of an AUTO_CLOSE, on the frame of a COAST, and one that is measured, or comes to a
follower that is OFF, while cues wait. -/
theorem witness_Tap_with_cues :
    let auto := onWith fun e => queued (capturing .base 2880000 { Cycle.reset with state := .baseCapture, base := some 0 } e)
    let base := onWith fun e => queued (capturing .base 9 { Cycle.reset with state := .baseCapture, base := some 0 } e)
    let lost := onWith fun e => let e1 := tapping .tracking 600 e; { e1 with fol := { e1.fol with coastDue := true } }
    let s := onWith fun e => let e1 := queued (tapping .waiting 600 e)
      { e1 with cyc := { e1.cyc with onset := some { p := 600, len := 4800, beats := 4 } } }
    (∀ t ∈ [auto, base, lost, s], takes 15 [] (ask 15 [] t) = true ∧ t.eng.clk.frameOpen = true)
      ∧ autoCloseDue auto.eng = true ∧ autoCloseDue base.eng = false ∧ base.eng.fol.state = .off
      ∧ autoCloseDue lost.eng = false ∧ s.eng.fol.coastDue = false ∧ s.eng.fol.state = .waiting
      ∧ (after .tap (ask 15 [] lost)).eng.fol.coastDue = false
      ∧ (after .tap (ask 15 [] base)).eng.cues.list.map Cue.remaining = [1, 1, 1, 1, 0]
      ∧ (after .tap (ask 15 [] s)).eng.cues.list.map Cue.remaining = [1, 1, 1, 1, 0]
      ∧ (after .tap (ask 15 [] s)).eng.fol.state = .tracking := by decide +kernel

/-- CYCLE_SET with cues of every quantum waiting and a follower in TRACKING, whose missed beats reach their limit. -/
theorem witness_CycleSet_with_cues :
    let s := onWith fun e => let e1 := queued e
      { e1 with fol := { e1.fol with source := .tap, state := .tracking, coastBeats := 1 } }
    takes 16 [0xC0, 0x12, 0, 0] (ask 16 [0xC0, 0x12, 0, 0] s) = true ∧ s.eng.cyc.state = .unset ∧ s.eng.clk.frameOpen = true
      ∧ (∀ l : LayerIx, s.eng.layers[l].state = .empty)
      ∧ (after .cycleSet (ask 16 [0xC0, 0x12, 0, 0] s)).eng.cues.list.map Cue.remaining = [0, 1, 0, 1, 1]
      ∧ (after .cycleSet (ask 16 [0xC0, 0x12, 0, 0] s)).eng.fol.coastDue = true := by decide +kernel

/-- An import is refused while a cue for the layer, or a CLEAR_ALL, waits. -/
theorem witness_import_with_a_cue :
    let s := fun a t => onWith fun e => due a t (run 4800 0 e)
    ∀ c ∈ [((Action.record 1 0), Target.layer 0), (.clearAll, .all)],
      takes 17 [byte 0, 1] (ask 17 [0, 1] (s c.1 c.2)) = true ∧ (s c.1 c.2).eng.layers[(0 : LayerIx)].state = .empty
        ∧ (s c.1 c.2).eng.cyc.state = .running ∧ (s c.1 c.2).eng.layers[(0 : LayerIx)].hold = .none
        ∧ answer (after .layerHold (ask 17 [0, 1] (s c.1 c.2))) = some .wrongState := by decide +kernel

/-- A cue that waits for a CYCLE boundary while an older one is due in a later wave than the boundary's. -/
theorem witness_CycleBoundaryReceived :
    let c := fun n r w => ({ dueCue .mute (.layer n) with number := n.val + 1, quantum := .cycle, remaining := r, wave := w } : Cue)
    let e := { on.eng with cues := { list := [c 0 0 1, c 1 1 0, c 2 2 0], nextNumber := 4 } }
    e.cues.list[1]? = some (c 1 1 0) ∧ (c 1 1 0).quantum = .cycle ∧ 0 < (c 1 1 0).remaining
      ∧ (cycleBoundary 0 e).cues.list = [c 0 0 1, c 1 0 1, c 2 1 1] := by decide +kernel

/-- The jump frame's report, and the follower's, behind the beats the jump reaches. -/
theorem witness_SpliceSteps_jump_report :
    let d := onWith (splicing (.fetching (spliceOf 5 7)) 4700 40)
    d.Still ∧ d.jumpDue = true ∧ d.eng.evq.mask.getLsbD ((Event.splice 5).code - 1) = true ∧ d.eng.mix.clipping = none
      ∧ d.eng.evq.list.length + (3 - d.eng.cyc.beat) < 24
      ∧ (after .spliceJump d).eng.evq.list.map (fun x => (x.event, x.k, x.p)) = [(.splice 5, 0, 4696)] :=
  ⟨still_of _ rfl (by decide +kernel), by decide +kernel⟩

/-- A RECORD and an OVERDUB while a splice is asked for on this frame, is fetched and crossfades, the layer of the OVERDUB
taking part or not. -/
theorem witness_captures_in_a_splice :
    let s := fun sp a l more => onWith fun e => due a (.layer l) (locked (0, 0) (more (splicing sp 4700 40 e)))
    let r := fun sp => s sp (.record 1 0) 5 (modLayer 5 fun r => { r with state := .armed })
    let o := fun sp l => s sp (.overdub 0 32768 0) l (modLayer 1 fun _ => filled .playing 8)
    let x := Splice.crossfading (spliceOf 5 7)
    ((r x).eng.lockedLane 0 ∧ (r x).eng.firstFree 0) ∧ ((o x 0).eng.lockedLane 0 ∧ (o x 0).eng.firstFree 0)
      ∧ turns (.record 1 0) (.layer 5) (r x) = true ∧ (r x).eng.layers[(5 : LayerIx)].state = .armed
      ∧ (after .record (r x)).eng.cyc.splice = x
      ∧ (∀ sp ∈ [Splice.fetching (spliceOf 5 0), .fetching (spliceOf 5 7), x], ∀ l ∈ [(0 : LayerIx), 1],
        turns (.overdub 0 32768 0) (.layer l) (o sp l) = true ∧ (o sp l).eng.layers[l].state = .playing
          ∧ (o sp l).eng.cyc.splice = sp ∧ (o sp l).eng.cyc.len = some 4800
          ∧ (o sp l).eng.mem.free.take ((1 * 4800 + 16383) / 16384) = [0])
      ∧ (o x 0).eng.voices[(0 : LayerIx)].spl.base = 4696 ∧ (o x 1).eng.voices[(1 : LayerIx)].spl.frames = []
      ∧ (o x 1).eng.voices[(1 : LayerIx)].rs = .idle ∧ (1 : LayerIx) ∉ (spliceOf 5 7).voices
      ∧ events (after .overdub (o (.fetching (spliceOf 5 0)) 0)) = [.layerState 0 .overdubbing .cue 1,
          .cueDone 1 (.layer 0) (.overdub 0 32768 0) 0]
      ∧ events (after .overdub (o (.fetching (spliceOf 5 7)) 0)) = [.layerState 0 .overdubbing .cue 1,
          .spliceSkipped 5 .capture, .cueDone 1 (.layer 0) (.overdub 0 32768 0) 0]
      ∧ (after .overdub (o x 0)).eng.cyc.splice = .crossfading { spliceOf 5 7 with voices := [] }
      ∧ (after .overdub (o x 1)).eng.cyc.splice = x :=
  ⟨lane_and_slot_free _ (by decide +kernel), lane_and_slot_free _ (by decide +kernel), by decide +kernel⟩

/-- A crossfade in which the overdubbed layer's new stream stands at its position, with the frame after it. -/
theorem witness_OverdubCues_new_stream :
    let s := onWith fun e => modVoice 0 (fun v => { v with spl := { base := 4700, frames := [5, 6] } })
      (due (.overdub 0 32768 0) (.layer 0) (locked (0, 0) (splicing (.crossfading (spliceOf 5 7)) 4700 40 e)))
    turns (.overdub 0 32768 0) (.layer 0) s = true ∧ (spliceOf 5 7).count < (spliceOf 5 7).x
      ∧ s.eng.voices[(0 : LayerIx)].spl = { base := (s.eng.cyc.m % 1) * 4800 + s.eng.cyc.p, frames := 5 :: 6 :: [] }
      ∧ s.eng.voices[(0 : LayerIx)].rs = .reading ∧ s.eng.voices[(0 : LayerIx)].clearing = false := by decide +kernel

/-- A CLEAR and a CLEAR_ALL of two layers while a splice is fetched and while it crossfades, the follower in TRACKING: the
LAYER_STATEs on the frame's k and p, what the return to UNSET brings on 0 and 0. -/
theorem witness_ClearCues_reports :
    let s := fun sp a t => onWith fun e =>
      let e1 := due a t (modLayer 3 (fun _ => filled .stopped 8) (splicing sp 4700 40 e))
      { e1 with cyc := { e1.cyc with k := 6 } }
    let x := Splice.crossfading (spliceOf 5 7)
    let f := Splice.fetching (spliceOf 5 7)
    let one := fun sp => (s sp .clear (.layer 0)).giving (modLayer 3 (fun _ => Layer.reset) (s sp .clear (.layer 0)).eng)
    let said := fun t : State => t.eng.evq.list.map fun r => (r.event, r.k, r.p)
    (∀ sp ∈ [x, f], turns .clearAll .all (s sp .clearAll .all) = true ∧ turns .clear (.layer 0) (one sp) = true
        ∧ (∀ i : LayerIx, (s sp .clearAll .all).eng.layers[i].hold = .none) ∧ (one sp).eng.cyc.base ≠ some 0
        ∧ (∀ i : LayerIx, i ≠ 0 → (one sp).eng.layers[i].state = .empty))
      ∧ said (after .clearAll (s f .clearAll .all)) = [(.layerState 0 .empty .cue 1, 6, 4700), (.layerState 3 .empty .cue 1, 6, 4700),
          (.spliceSkipped 5 .cleared, 0, 0), (.followState .waiting .cleared, 0, 0), (.cycleCleared, 0, 0),
          (.cueDone 1 .all .clearAll 6, 0, 0)]
      ∧ said (after .clear (one x)) = [(.layerState 0 .empty .cue 1, 6, 4700), (.followState .waiting .cleared, 0, 0),
          (.cycleCleared, 0, 0), (.cueDone 1 (.layer 0) .clear 6, 0, 0)]
      ∧ said (after .clear (s x .clear (.layer 0))) = [(.layerState 0 .empty .cue 1, 6, 4700), (.cueDone 1 (.layer 0) .clear 6, 6, 4700)] := by
  decide +kernel

/-- STOP_ALL, PLAY_ALL and PAUSE over a layer that overdubs with an open gap run, a fixed capture, a PLAYING and a STOPPED
layer, while a splice is fetched and the follower is in TRACKING. -/
theorem witness_AllLayerCues_reports :
    let s := fun a => onWith fun e =>
      let e1 := splicing (.fetching (spliceOf 5 7)) 4700 40 e
      let e2 := gapped (modLayer 2 (fun _ => { filled .overdubbing 8 with slot := some 0, written := some (0, 3) }) e1)
      let e3 := modLayer 4 (fun _ => { filled .capturing 7 with slot := some 1 }) (modLayer 6 (fun _ => filled .stopped 6) e2)
      due a .all (modSlot 1 (fun sl => { sl with use := .fixed, layer := some 4, count := 2, first := some 1 })
        (modSlot 0 (fun sl => { sl with use := .overdub, layer := some 2 }) e3))
    let st := fun l x => Event.layerState l x LayerCause.cue 1
    (∀ a ∈ [Action.stopAll, .playAll, .pause], turns a .all (s a) = true
        ∧ (∀ i j : LayerIx, i ≠ j → (s a).eng.layers[i].slot ≠ none → (s a).eng.layers[i].slot ≠ (s a).eng.layers[j].slot)
        ∧ (∀ i : LayerIx, ((s a).eng.layers[i].state = .overdubbing ∨ (s a).eng.layers[i].state = .capturing) →
          (s a).eng.layers[i].slot.isSome = true))
      ∧ (s .playAll).eng.voices[(6 : LayerIx)].rs = .idle ∧ (s .playAll).eng.layers[(6 : LayerIx)].mult = some 1
      ∧ (s .playAll).eng.len 6 = 4800
      ∧ events (after .stopAll (s .stopAll)) = [st 0 .stopped, .captureGap 0 2, st 2 .stopped, .cueDone 1 .all .stopAll 0]
      ∧ events (after .playAll (s .playAll)) = [st 6 .playing, .cueDone 1 .all .playAll 0]
      ∧ (after .playAll (s .playAll)).eng.voices[(6 : LayerIx)].primeStart = some 156
      ∧ events (after .pause (s .pause)) = [.captureGap 0 2, st 2 .playing, st 4 .playing, .spliceSkipped 5 .paused,
          .followState .waiting .paused, .cueDone 1 .all .pause 0] := by decide +kernel

/-- A grant completes with no request left, with two voices below level 64 at one level, one of them lower, and with a drain
of 256 staged frames beside a voice at level 64: the lower level, then the lower number, and the lower class come first. -/
theorem witness_GrantComplete_next :
    let wants := fun (l : LayerIx) n e => modVoice l (fun v => { v with
      rs := .reading, pos := some 0, flag := true, main := { base := 0, frames := List.replicate n 1 } })
      (modLayer l (fun _ => filled .playing l.val) e)
    let drains := modSlot 1 fun sl => { sl with
      staging := (List.range 256).map fun i => { layer := 5, key := 5, body := .data i 1 } }
    let s := fun f => onWith fun e => let e1 := f (run 4800 0 e)
      { e1 with mem := { e1.mem with grant := some { newGrant .filler 7 0 0 true 0 1 with left := 0, cancelled := true } } }
    let next := fun f => (after .grantComplete (s f)).eng.mem.grant
    ((s id).powered = true ∧ (s id).eng.mem.grant.map Grant.left = some 0)
      ∧ next id = none
      ∧ next (fun e => wants 5 63 (wants 3 20 (wants 9 20 e))) = some (newGrant (.voice 3) 2 3 3 false 20 128)
      ∧ next (fun e => drains (wants 5 64 e)) = some (newGrant (.slot 1) 4 5 5 true 0 128)
      ∧ next (wants 5 64) = some (newGrant (.voice 5) 5 5 5 false 64 128)
      ∧ (newGrant (.voice 5) 5 5 5 false 64 128).left = 4 := by decide +kernel

/-- A voice that starves on a frame that reaches no beat reports it, with the position at which it stalls. -/
theorem witness_VoiceEvents_starved :
    let s := onWith fun e => let e1 := voiced .playing 4700 (fun v => { v with
      rs := .reading, pos := some 4700, env := 4096, main := { base := 4700, frames := [7] } }) e
      { e1 with cyc := { e1.cyc with beat := 3 } }
    s.Still ∧ (∀ i : SlotIx, fixedCompleteDue s.eng i = false) ∧ autoCloseDue s.eng = false ∧ s.eng.mix.clipping = none
      ∧ s.eng.cyc.beat = (after .frame s).eng.cyc.beat ∧ s.eng.cyc.k = (after .frame s).eng.cyc.k
      ∧ (after .frame s).eng.voices[(0 : LayerIx)].rs = .starved ∧ s.eng.evq.list.length + (0 + 3) < 24
      ∧ events (after .frame s) = [.starved 0 4701] :=
  ⟨still_of _ rfl (by decide +kernel), by decide +kernel⟩

/-! ## Queue order over several waves (R70) -/

/-- A CLOSE makes an older CYCLE cue due; a TAP of the same frame then makes a younger ONSET cue due: the older one still has
its turn first. -/
theorem test_tap_after_a_close_keeps_queue_order :
    let c := fun n q l => ({ dueCue .mute (.layer l) with number := n, quantum := q, remaining := 1 } : Cue)
    let s := onWith fun e => { capturing .base 4800 { Cycle.reset with state := .baseCapture, base := some 0 } e with
      cues := { list := [dueCue .close (.layer 0), c 2 .cycle 0, c 3 .onset 0], nextNumber := 4 } }
    let t := after .tap (ask 15 [] (after .close s))
    t.eng.cues.list.map (fun d => (d.number, d.remaining)) = [(2, 0), (3, 0)] ∧ (nextDue t.eng).map Cue.number = some 2 := by
  decide +kernel

end Sys2Proof.Tests
end

section
/-! The value an overdub writes (R96), and the ranges of the level and the feedback it is formed with (R41). -/

namespace Sys2Proof.Machine

/-! ## The combination of two samples (R96) -/

/-- A combination is the exact sum over 32,768, rounded once and only then clamped. -/
theorem combine_rounds_then_clamps (old x : Sample) (level feedback : Nat) :
    ∃ rounded : Int, RoundedTo (old.toInt * feedback + x.toInt * level) 32768 rounded
      ∧ (combine old x level feedback).toInt = max (-8388608) (min 8388607 rounded) :=
  ⟨_, roundDiv_rounded _ 32768 (by decide), sat24_toInt _⟩

/-- An overdub's write puts the combination of the stored sample and its own at its position, under the level and
the feedback its layer has on the frame. -/
@[simp] theorem overdubWrite_value (e : Engine) (l : LayerIx) (x : Sample) (pos : Nat) (again : Bool) :
    (overdubWrite e l x pos again).value
      = combine (storedSample e l pos) x e.layers[l].level e.layers[l].feedback := rfl

/-! ## What `inRange` says of one layer (R41) -/

@[simp] theorem between_iff {lo hi x : Nat} : between lo hi x = true ↔ lo ≤ x ∧ x ≤ hi := by
  simp [between]

theorem mem_layerIxs (l : LayerIx) : l ∈ layerIxs := by
  revert l; decide

/-- An engine in range has every layer in range. -/
theorem Engine.inRange_layer {e : Engine} (h : e.inRange = true) (l : LayerIx) : e.layers[l].inRange = true := by
  simp only [Engine.inRange, Bool.and_eq_true, List.all_eq_true] at h
  obtain ⟨⟨⟨⟨-, hlayers⟩, -⟩, -⟩, -⟩ := h
  exact (hlayers l (mem_layerIxs l)).1

/-- A layer in range has its overdub level and its overdub feedback at most 32,768. -/
theorem Layer.inRange_level_feedback {r : Layer} (h : r.inRange = true) : r.level ≤ 32768 ∧ r.feedback ≤ 32768 := by
  simp only [Layer.inRange, Bool.and_eq_true, between_iff] at h
  obtain ⟨⟨⟨-, -, hlevel⟩, -, hfeedback⟩, -⟩ := h
  exact ⟨hlevel, hfeedback⟩

/-- Settles O59: the write's value is a combination, which rounds the exact sum once and then clamps it; the bounds of
level and feedback are the layer's part of `Engine.inRange`, those of a sample the ranges of its 24 bits. -/
theorem overdubValue : Obligations.OverdubValue := by
  refine ⟨?value, ?levels, sample_range⟩
  case value =>
    intro e l x pos again r old sum
    rw [overdubWrite_value]
    exact combine_rounds_then_clamps old x r.level r.feedback
  case levels =>
    intro e he l
    exact Layer.inRange_level_feedback (e.inRange_layer he l)

end Sys2Proof.Machine
end

section
/-! The sampling event of the expression pedals (R159, R160, R164, R165): the conversion of the channels, the walk of
the pedal map, and what seeds the channels. -/

namespace Sys2Proof.Machine

/-! ## Every unit of a vector changed once -/

theorem mem_quadIxs (i : Fin 4) : i ∈ quadIxs := by
  revert i; decide

theorem mem_mapIxs (i : MapIx) : i ∈ mapIxs := by
  revert i; decide

/-- A walk that changes each unit it names once leaves the others. -/
theorem foldl_upd_get {α : Type} {n : Nat} (f : Fin n → α → α) (j : Fin n) (is : List (Fin n)) (hn : is.Nodup)
    (v : Vector α n) :
    (is.foldl (fun v i => upd v i (f i)) v)[j.val] = if j ∈ is then f j v[j.val] else v[j.val] := by
  induction is generalizing v with
  | nil => rfl
  | cons i rest ih =>
    obtain ⟨hi, hrest⟩ := List.nodup_cons.mp hn
    rw [List.foldl_cons, ih hrest, upd_get]
    by_cases hij : i = j
    · subst hij; simp [hi]
    · simp [hij, Ne.symm hij]

/-- A walk over the four channels changes each. -/
theorem foldl_quadIxs_get {α : Type} (f : Fin 4 → α → α) (v : Vector α 4) (i : Fin 4) :
    (quadIxs.foldl (fun v i => upd v i (f i)) v)[i.val] = f i v[i.val] := by
  rw [foldl_upd_get f i quadIxs (by decide), if_pos (mem_quadIxs i)]

/-! ## The channels (R159, R160) -/

/-- A seeded channel takes the value itself (R160). -/
theorem Pedal.convert_smooth_seeded {c : Pedal} (h : c.seed = true) (v : Nat) : (c.convert v).smooth = v := by
  simp [Pedal.convert, h]

/-- An unseeded channel moves by a quarter of the way, rounded down, which never takes it below 0 (R160). -/
theorem Pedal.convert_smooth_unseeded {c : Pedal} (h : c.seed = false) (v : Nat) :
    ((c.convert v).smooth : Int) = c.smooth + ((v : Int) - c.smooth) / 4 := by
  simp only [Pedal.convert, h, floorDiv, Bool.false_eq_true, if_false]
  omega

/-- A conversion takes the raw value, clears the seed and moves the smoothed value (R159, R160). -/
theorem Pedal.convert_spec (v : Nat) (old : Pedal) :
    (old.convert v).raw = v ∧ (old.convert v).seed = false
      ∧ (old.seed = true → (old.convert v).smooth = v)
      ∧ (old.seed = false → ((old.convert v).smooth : Int) = old.smooth + ((v : Int) - old.smooth) / 4) :=
  ⟨rfl, rfl, fun h => convert_smooth_seeded h v, fun h => convert_smooth_unseeded h v⟩

@[simp] theorem convertAll_chan (pins : Vector (BitVec 10) 4) (e : Engine) (i : PedalIx) :
    (convertAll pins e).ped.chan[i.val] = e.ped.chan[i.val].convert pins[i].toNat :=
  foldl_quadIxs_get (fun i => Pedal.convert pins[i].toNat) e.ped.chan i

/-! ## The targets (R161, R164) -/

@[simp] theorem writeTarget_ped (t : PedalTarget) (v : Nat) (e : Engine) : (writeTarget t v e).ped = e.ped := by
  cases t <;> rfl

/-- A target's field lies in a layer or in the mixer. -/
theorem targetValue_congr {e e' : Engine} (hl : e'.layers = e.layers) (hm : e'.mix = e.mix) (t : PedalTarget) :
    targetValue e' t = targetValue e t := by
  cases t <;> simp only [targetValue, hl, hm]

@[simp] theorem targetValue_modMap (i : MapIx) (f : Option Mapping → Option Mapping) (e : Engine) (t : PedalTarget) :
    targetValue (modMap i f e) t = targetValue e t := targetValue_congr rfl rfl t

@[simp] theorem targetValue_convertAll (pins : Vector (BitVec 10) 4) (e : Engine) (t : PedalTarget) :
    targetValue (convertAll pins e) t = targetValue e t := targetValue_congr rfl rfl t

@[simp] theorem targetValue_writeTarget_self (t : PedalTarget) (v : Nat) (e : Engine) :
    targetValue (writeTarget t v e) t = v := by
  cases t <;> simp [targetValue, writeTarget, modLive]

/-- Two targets are two fields of one unit, which a write of one keeps apart, or fields of two units (`upd_get`). -/
theorem targetValue_writeTarget_other {t other : PedalTarget} (h : other ≠ t) (v : Nat) (e : Engine) :
    targetValue (writeTarget t v e) other = targetValue e other := by
  cases t <;> cases other <;> grind [targetValue, writeTarget, modLive, modLayer_layers, modLayer_mix, upd_get]

/-! ## One entry of the map (R164) -/

/-- An entry applies when it has no applied position, or when the position has left the deadband about it. -/
theorem Mapping.applies_iff (m : Mapping) (v : Nat) :
    m.applies v = true ↔ ∀ a, m.applied = some a → m.deadband < ((v : Int) - a).natAbs := by
  cases h : m.applied <;> simp [Mapping.applies, h]

/-- For a position of the pedal the interpolated value lies between the two ends of the range, whichever of them is
the greater, so that nothing is cut off at 0. -/
theorem Mapping.value_eq_and_le (m : Mapping) {v : Nat} (hv : v ≤ 1023) :
    (m.value v : Int) = m.low + ((m.high : Int) - m.low) * v / 1023 ∧ m.value v ≤ max m.low m.high := by
  simp only [Mapping.value, floorDiv]
  rcases Nat.le_total m.low m.high with h | h
  · have hlow : 0 ≤ ((m.high : Int) - m.low) * v := Int.mul_nonneg (by omega) (by omega)
    have hhigh : ((m.high : Int) - m.low) * v ≤ ((m.high : Int) - m.low) * 1023 :=
      Int.mul_le_mul_of_nonneg_left (by omega) (by omega)
    omega
  · have hlow : ((m.low : Int) - m.high) * v ≤ ((m.low : Int) - m.high) * 1023 :=
      Int.mul_le_mul_of_nonneg_left (by omega) (by omega)
    have hhigh : 0 ≤ ((m.low : Int) - m.high) * v := Int.mul_nonneg (by omega) (by omega)
    have hneg : ((m.high : Int) - m.low) * v = -(((m.low : Int) - m.high) * v) := by ring
    omega

theorem applyEntry_empty {i : MapIx} {e : Engine} (h : e.ped.map[i] = none) : applyEntry i e = e := by
  simp only [applyEntry, h]

theorem applyEntry_still {i : MapIx} {e : Engine} {m : Mapping} (h : e.ped.map[i] = some m)
    (hs : ¬ m.applies e.ped.chan[m.channel].smooth) : applyEntry i e = e := by
  simp only [applyEntry, h, if_neg hs]

theorem applyEntry_moved {i : MapIx} {e : Engine} {m : Mapping} (h : e.ped.map[i] = some m)
    (hm : m.applies e.ped.chan[m.channel].smooth) :
    applyEntry i e = modMap i (fun _ => some { m with applied := some e.ped.chan[m.channel].smooth })
      (writeTarget m.target (m.value e.ped.chan[m.channel].smooth) e) := by
  simp only [applyEntry, h, if_pos hm]

/-- The examination of an entry writes its target and its own mapping, or nothing. -/
theorem applyEntry_cases (i : MapIx) (e : Engine) :
    applyEntry i e = e ∨ ∃ t v m, applyEntry i e = modMap i (fun _ => m) (writeTarget t v e) := by
  cases h : e.ped.map[i] with
  | none => exact .inl (applyEntry_empty h)
  | some m =>
    by_cases hm : m.applies e.ped.chan[m.channel].smooth
    · exact .inr ⟨_, _, _, applyEntry_moved h hm⟩
    · exact .inl (applyEntry_still h hm)

@[simp] theorem modMap_chan (i : MapIx) (f : Option Mapping → Option Mapping) (e : Engine) :
    (modMap i f e).ped.chan = e.ped.chan := rfl

@[simp] theorem modMap_map (i : MapIx) (f : Option Mapping → Option Mapping) (e : Engine) :
    (modMap i f e).ped.map = upd e.ped.map i f := rfl

@[simp] theorem applyEntry_chan (i : MapIx) (e : Engine) : (applyEntry i e).ped.chan = e.ped.chan := by
  obtain h | ⟨t, v, m, h⟩ := applyEntry_cases i e <;> simp [h]

theorem applyEntry_map_other {i j : MapIx} (hij : i ≠ j) (e : Engine) :
    (applyEntry i e).ped.map[j] = e.ped.map[j] := by
  obtain h | ⟨t, v, m, h⟩ := applyEntry_cases i e <;> simp [h, upd_other _ _ _ _ hij]

/-- Examination of an entry whose position has left the deadband (R164). -/
theorem applyEntry_writes {i : MapIx} {e : Engine} {m : Mapping} (h : e.ped.map[i] = some m)
    (hm : m.applies e.ped.chan[m.channel].smooth) :
    targetValue (applyEntry i e) m.target = m.value e.ped.chan[m.channel].smooth
      ∧ (applyEntry i e).ped.map[i] = some { m with applied := some e.ped.chan[m.channel].smooth } := by
  simp [applyEntry_moved h hm]

/-- No examination of an entry writes the field of a target other than its own. -/
theorem applyEntry_other_target {i : MapIx} {e : Engine} {m : Mapping} (h : e.ped.map[i] = some m)
    {other : PedalTarget} (ho : other ≠ m.target) : targetValue (applyEntry i e) other = targetValue e other := by
  by_cases hm : m.applies e.ped.chan[m.channel].smooth
  · rw [applyEntry_moved h hm, targetValue_modMap, targetValue_writeTarget_other ho]
  · rw [applyEntry_still h hm]

/-- The examination of an entry, in the words of R164: it writes the interpolated value once the position has left the
deadband, and else nothing. -/
theorem applyEntry_spec {i : MapIx} {e : Engine} {m : Mapping} (h : e.ped.map[i] = some m)
    (hlow : m.low ≤ m.target.top) (hhigh : m.high ≤ m.target.top) :
    let v := e.ped.chan[m.channel].smooth
    let moved := ∀ a, m.applied = some a → m.deadband < ((v : Int) - a).natAbs
    (moved → v ≤ 1023 →
      (targetValue (applyEntry i e) m.target : Int) = m.low + ((m.high : Int) - m.low) * v / 1023
      ∧ targetValue (applyEntry i e) m.target ≤ m.target.top
      ∧ (applyEntry i e).ped.map[i] = some { m with applied := some v })
    ∧ (¬moved → targetValue (applyEntry i e) m.target = targetValue e m.target ∧ (applyEntry i e).ped.map[i] = some m)
    ∧ ∀ other, other ≠ m.target → targetValue (applyEntry i e) other = targetValue e other := by
  intro v moved
  have happlies : m.applies v = true ↔ moved := m.applies_iff v
  refine ⟨fun hmoved hv => ?moves, fun hstill => ?still, fun other ho => applyEntry_other_target h ho⟩
  case moves =>
    obtain ⟨htarget, hmap⟩ := applyEntry_writes h (happlies.mpr hmoved)
    obtain ⟨hvalue, hle⟩ := m.value_eq_and_le hv
    exact ⟨htarget ▸ hvalue, htarget ▸ hle.trans (max_le hlow hhigh), hmap⟩
  case still =>
    rw [applyEntry_still h (fun ha => hstill (happlies.mp ha))]
    exact ⟨rfl, h⟩

/-! ## The walk of the map (R164) -/

theorem applyEntries_chan (is : List MapIx) (e : Engine) :
    (is.foldl (fun e i => applyEntry i e) e).ped.chan = e.ped.chan := by
  induction is generalizing e with
  | nil => rfl
  | cons i rest ih => rw [List.foldl_cons, ih, applyEntry_chan]

/-- Empty entries write nothing. -/
theorem applyEntries_empty {is : List MapIx} {e : Engine} (h : ∀ j ∈ is, e.ped.map[j] = none) :
    is.foldl (fun e i => applyEntry i e) e = e := by
  induction is with
  | nil => rfl
  | cons i rest ih =>
    obtain ⟨hi, hrest⟩ := List.forall_mem_cons.mp h
    rw [List.foldl_cons, applyEntry_empty hi, ih hrest]

/-- A map of one entry is walked as that entry alone: the entries before it and after it are empty. -/
theorem applyEntries_single {i : MapIx} {e : Engine} (h : ∀ j, j ≠ i → e.ped.map[j] = none) :
    mapIxs.foldl (fun e i => applyEntry i e) e = applyEntry i e := by
  obtain ⟨before, rest, hsplit⟩ := List.append_of_mem (mem_mapIxs i)
  have hnodup : (before ++ i :: rest).Nodup := hsplit ▸ (by decide : mapIxs.Nodup)
  obtain ⟨-, hrest, hdisj⟩ := List.nodup_append.mp hnodup
  have hbefore : ∀ j ∈ before, e.ped.map[j] = none :=
    fun j hj => h j (hdisj j hj i List.mem_cons_self)
  have hafter : ∀ j ∈ rest, (applyEntry i e).ped.map[j] = none := by
    intro j hj
    have hji : j ≠ i := fun hji => (List.nodup_cons.mp hrest).1 (hji ▸ hj)
    rw [applyEntry_map_other hji.symm, h j hji]
  rw [hsplit, List.foldl_append, applyEntries_empty hbefore, List.foldl_cons, applyEntries_empty hafter]

/-! ## The event (R159, R165) -/

/-- The engine that has begun a sampling event: the event is no longer due and the converter has its pins. -/
def beginSampling (pins : Vector (BitVec 10) 4) (e : Engine) : Engine :=
  { e with ped := { e.ped with due := false, pins := pins } }

theorem samplingEvent_held {e : Engine} (hd : e.ped.due = true) (hh : e.ped.held = true)
    (pins : Vector (BitVec 10) 4) : samplingEvent pins e = beginSampling pins e := by
  simp [samplingEvent, hd, hh, beginSampling]

theorem samplingEvent_unheld {e : Engine} (hd : e.ped.due = true) (hh : e.ped.held = false)
    (pins : Vector (BitVec 10) 4) :
    samplingEvent pins e = mapIxs.foldl (fun e i => applyEntry i e) (convertAll pins (beginSampling pins e)) := by
  simp [samplingEvent, hd, hh, beginSampling]

/-- Every channel is converted, whatever the map holds. -/
theorem samplingEvent_chan {e : Engine} (hd : e.ped.due = true) (hh : e.ped.held = false)
    (pins : Vector (BitVec 10) 4) (i : PedalIx) :
    (samplingEvent pins e).ped.chan[i] = e.ped.chan[i].convert pins[i].toNat := by
  rw [samplingEvent_unheld hd hh, applyEntries_chan]
  exact convertAll_chan pins _ i

/-- With an empty map nothing but the sampler's own record changes. -/
theorem samplingEvent_empty_map {e : Engine} (hd : e.ped.due = true) (hh : e.ped.held = false)
    (h : ∀ j : MapIx, e.ped.map[j] = none) (pins : Vector (BitVec 10) 4) :
    samplingEvent pins e = convertAll pins (beginSampling pins e) := by
  rw [samplingEvent_unheld hd hh]
  exact applyEntries_empty fun j _ => h j

theorem samplingEvent_single {e : Engine} (hd : e.ped.due = true) (hh : e.ped.held = false) {i : MapIx}
    (h : ∀ j, j ≠ i → e.ped.map[j] = none) (pins : Vector (BitVec 10) 4) :
    samplingEvent pins e = applyEntry i (convertAll pins (beginSampling pins e)) := by
  rw [samplingEvent_unheld hd hh]
  exact applyEntries_single h

@[simp] theorem targetValue_beginSampling (pins : Vector (BitVec 10) 4) (e : Engine) (t : PedalTarget) :
    targetValue (beginSampling pins e) t = targetValue e t := targetValue_congr rfl rfl t

/-- The row of a sampling event while the part has power. -/
theorem exec_samplingEvent {s : State} (hp : s.powered = true) (v0 v1 v2 v3 : BitVec 10) :
    exec (.samplingEvent v0 v1 v2 v3) s = .next (s.giving (samplingEvent #v[v0, v1, v2, v3] s.eng)) :=
  engineRow_on hp _

/-! ## What seeds the channels (R159, R165) -/

/-- Reset seeds every channel. -/
theorem resetWith_seed (cells : List (Nat × Sample)) (pins : Vector (BitVec 10) 4) (i : PedalIx) :
    (Engine.resetWith cells pins).ped.chan[i].seed = true := by
  simp [Engine.resetWith, Pedals.resetWith]

/-- A release of the held sampler seeds every channel. -/
theorem releasePedals_seed {e : Engine} (h : e.ped.held = true) (i : PedalIx) :
    (releasePedals e).ped.chan[i].seed = true := by
  simp [releasePedals, h, foldl_quadIxs_get]

/-- POWER_ON gives the engine its reset values, whether the part had power or not. -/
theorem exec_powerOn_eng (s : State) :
    ∃ t, exec .powerOn s = .next t ∧ t.eng = Engine.resetWith [] s.eng.ped.pins := by
  refine ⟨_, rfl, ?_⟩
  split
  · simp only [State.gainPower, State.losePower]; split <;> rfl
  · rfl

/-- ENGINE_RESET gives the engine its reset values and leaves the frames of loop memory. -/
theorem exec_engineReset_eng {s : State} {m : Message} {rest : List Message} (h : s.Takes 31 m [] rest) :
    ∃ t, exec .engineReset s = .next t ∧ t.eng = Engine.resetWith s.eng.mem.cells s.eng.ped.pins := by
  refine ⟨_, stateRow_takes h resetEngine, ?_⟩
  simp [resetEngine, h.whole, h.payload]

/-- BLOCK_RELEASE of block 5 releases the sampler (R184). -/
theorem exec_blockRelease_pedals {s : State} {m : Message} {rest : List Message} (h : s.Takes 30 m [5] rest) :
    ∃ t, exec .blockRelease s = .next t ∧ t.eng = releasePedals s.eng :=
  ⟨_, commandRow_takes h (by decide) (blockCommand releaseBlock), rfl⟩

end Sys2Proof.Machine

/-! ## The statement -/

namespace Sys2Proof.Settled

open Sys2Proof.Machine

/-- Settles O58: reset and release seed every channel; an event that is held only begins, and any other is the conversion
of every channel followed by the walk of the map, which is the examination of the entry where the map has but one. -/
theorem samplingEvent : Obligations.SamplingEvent := by
  refine ⟨fun s => ?powerOn, fun s m rest h => ?reset, fun s m rest h hheld => ?release,
    fun s v0 v1 v2 v3 hp hd => ?event⟩
  case powerOn =>
    obtain ⟨t, ht, he⟩ := exec_powerOn_eng s
    exact ⟨t, ht, fun i => he ▸ resetWith_seed _ _ i⟩
  case reset =>
    obtain ⟨t, ht, he⟩ := exec_engineReset_eng h
    exact ⟨t, ht, fun i => he ▸ resetWith_seed _ _ i⟩
  case release =>
    obtain ⟨t, ht, he⟩ := exec_blockRelease_pedals h
    exact ⟨t, ht, fun i => he ▸ releasePedals_seed hheld i⟩
  case event =>
    intro pins run
    have hrun : run = _ := exec_samplingEvent hp v0 v1 v2 v3
    refine ⟨fun hh => ?held, fun hh => ⟨_, hrun, fun i => ?chan⟩, fun hh hempty => ⟨_, hrun, ?unmapped⟩,
      fun hh i mp hi hothers hlow hhigh => ⟨_, hrun, ?entry⟩⟩
    case held => rw [hrun, samplingEvent_held hd hh]; rfl
    case chan =>
      simp only [State.giving, samplingEvent_chan hd hh]
      exact Pedal.convert_spec _ _
    case unmapped => rw [samplingEvent_empty_map hd hh hempty]; rfl
    case entry =>
      have hentry : (convertAll pins (beginSampling pins s.eng)).ped.map[i] = some mp := hi
      simpa only [State.giving, samplingEvent_single hd hh hothers, applyEntry_chan, targetValue_convertAll,
        targetValue_beginSampling] using applyEntry_spec hentry hlow hhigh

end Sys2Proof.Settled
end

section
/-! The event mask (R182): its value after power-on and ENGINE_RESET, the command EVENT_MASK, and what the mask does
and does not govern. -/

namespace Sys2Proof.Machine

/-! ## The mask after reset (R182) -/

/-- The event codes are 1 to 24 (R187). -/
theorem Event.code_range (ev : Event) : 1 ≤ ev.code ∧ ev.code ≤ 24 := by
  cases ev <;> simp [Event.code]

/-- Of its 24 bits the mask after reset has clear only bits 3 and 4, those of the codes 4 and 5. -/
theorem reset_mask_bit (i : Fin 24) : EventQueue.reset.mask.getLsbD i = true ↔ i ≠ 3 ∧ i ≠ 4 := by
  revert i; decide

/-- After reset every kind is enabled except BEAT and WRAP. -/
theorem reset_enables (ev : Event) : EventQueue.reset.enables ev = true ↔ ev.code ≠ 4 ∧ ev.code ≠ 5 := by
  obtain ⟨hlow, hhigh⟩ := ev.code_range
  have hbit := reset_mask_bit ⟨ev.code - 1, by omega⟩
  simpa [EventQueue.enables, Fin.ext_iff] using hbit

@[simp] theorem resetWith_evq (cells : List (Nat × Sample)) (pins : Vector (BitVec 10) 4) :
    (Engine.resetWith cells pins).evq = EventQueue.reset := rfl

/-! ## EVENT_MASK (R182) -/

/-- A byte put below a word. -/
theorem toNat_append_byte {n : Nat} (hi : BitVec n) (b : Byte) : (hi ++ b).toNat = 256 * hi.toNat + b.toNat := by
  have hor := Nat.shiftLeft_add_eq_or_of_lt b.isLt hi.toNat
  rw [BitVec.toNat_append, ← hor, Nat.shiftLeft_eq, Nat.mul_comm]

/-- A field of four bytes, cut to 24 bits: the lower three bytes, and the upper one is ignored. -/
theorem field24_ignores_upper_byte (b0 b1 b2 b3 : Byte) :
    BitVec.ofNat 24 (fieldAt [b0, b1, b2, b3] 0 4) = b2 ++ b1 ++ b0 := by
  apply BitVec.eq_of_toNat_eq
  have hfield : fieldAt [b0, b1, b2, b3] 0 4
      = b0.toNat + 256 * (b1.toNat + 256 * (b2.toNat + 256 * b3.toNat)) := by
    simp [fieldAt, leNat]
  rw [BitVec.toNat_ofNat, hfield, toNat_append_byte, toNat_append_byte]
  have h0 := b0.isLt
  have h1 := b1.isLt
  have h2 := b2.isLt
  omega

/-- Four bytes set the mask, and the reply has the mask as it was set. -/
theorem eventMask_sets (b0 b1 b2 b3 : Byte) (e : Engine) :
    eventMask [b0, b1, b2, b3] e
      = ({ e with evq := { e.evq with mask := b2 ++ b1 ++ b0 } },
        { status := .ok, data := [natField (b2 ++ b1 ++ b0).toNat] }) := by
  rw [← field24_ignores_upper_byte b0 b1 b2 b3]
  rfl

/-- An empty payload queries the mask and changes nothing. -/
theorem eventMask_queries (e : Engine) :
    eventMask [] e = (e, { status := .ok, data := [natField e.evq.mask.toNat] }) := rfl

/-- A payload of any other length is refused. -/
theorem eventMask_refuses {b : List Byte} (h0 : b.length ≠ 0) (h4 : b.length ≠ 4) (e : Engine) :
    eventMask b e = refuse .badLength e := by
  simp only [eventMask, if_neg h4, if_neg h0]

/-- The row of EVENT_MASK answers what the command answers. -/
theorem exec_eventMask_takes {s : State} {m : Message} {payload : List Byte} {rest : List Message}
    (h : s.Takes 12 m payload rest) :
    exec .eventMask s
      = .next (s.answered m rest (eventMask payload s.eng).2.status (eventMask payload s.eng).2.data
          (eventMask payload s.eng).1) :=
  commandRow_takes h (by decide) eventMask

/-! ## What the mask does not govern (R139, R182) -/

/-- The first saturation of a window sets the clip-reported flag, whether or not the mask lets OUTPUT_CLIP be queued. -/
theorem reportClip_first_mix {e : Engine} {sides : ClipSides} (h : e.mix.clipping = some sides)
    (hc : e.mix.clipReported = false) :
    (reportClip e).mix = { e.mix with clipping := none, clipReported := true } := by
  rw [reportClip_first h hc]
  rfl

end Sys2Proof.Machine

/-! ## The statement -/

namespace Sys2Proof.Settled

open Sys2Proof.Machine

/-- Settles O22: power-on and ENGINE_RESET leave the event queue of reset, whose mask has clear the bits of BEAT and
WRAP alone; EVENT_MASK is read by the length of its payload; and a disabled kind loses its report, while the state and
the flags of the block that reports are not the mask's. -/
theorem eventMask : Obligations.EventMask := by
  refine ⟨fun s => ?powerOn, fun s m rest h => ?reset, fun _ _ => rfl,
    fun s m rest => ⟨fun b0 b1 b2 b3 h => ?set, fun h => ?query, fun b h h0 h4 => ?length⟩,
    fun ev k p q h => queueReport_disabled h k p, fun ev e => ⟨_, post_eq ev e⟩,
    fun sides e hc h => reportClip_first_mix h hc⟩
  case powerOn =>
    obtain ⟨t, ht, he⟩ := exec_powerOn_eng s
    exact ⟨t, ht, by rw [he, resetWith_evq]; exact reset_enables⟩
  case reset =>
    obtain ⟨t, ht, he⟩ := exec_engineReset_eng h
    exact ⟨t, ht, by rw [he, resetWith_evq]; exact reset_enables⟩
  case set => rw [exec_eventMask_takes h, eventMask_sets]
  case query => rw [exec_eventMask_takes h, eventMask_queries]
  case length => rw [exec_eventMask_takes h, eventMask_refuses h0 h4]; rfl

end Sys2Proof.Settled
end

section
/-! Order (R61, R62, R178, R181): what every operation of the engine leaves of the memories in canonical form, of the
event queue's size, of the cue queue and of the transfer in flight, and that every step keeps the orderly state. -/

-- One proof after another: side by side they take more thread stacks than the memory of a compile holds.
set_option Elab.async false

namespace Sys2Proof.Machine

/-! ## Walks over the units -/

/-- A walk keeps what each of its steps keeps. -/
theorem foldl_induct {α : Type} {I : Engine → Prop} {f : α → Engine → Engine} (hf : ∀ x e, I e → I (f x e)) :
    ∀ (xs : List α) {e : Engine}, I e → I (xs.foldl (fun e x => f x e) e)
  | [], _, h => h
  | x :: xs, _, h => foldl_induct hf xs (hf x _ h)

theorem eachLayer_induct {I : Engine → Prop} {f : LayerIx → Engine → Engine} (hf : ∀ l e, I e → I (f l e))
    {e : Engine} (h : I e) : I (eachLayer f e) := foldl_induct hf layerIxs h

theorem eachQuad_induct {I : Engine → Prop} {f : Fin 4 → Engine → Engine} (hf : ∀ l e, I e → I (f l e))
    {e : Engine} (h : I e) : I (eachQuad f e) := foldl_induct hf quadIxs h

theorem eachSlot_induct {I : Engine → Prop} {f : SlotIx → Engine → Engine} (hf : ∀ s e, I e → I (f s e))
    {e : Engine} (h : I e) : I (eachSlot f e) := foldl_induct hf slotIxs h

/-! ## What an operation leaves in order -/

/-- What tells a pending cue from the others: its number and its target (R61, R62). -/
def Cue.name (c : Cue) : Nat × Target := (c.number, c.target)

/-- Engine `t` comes from engine `a` by operations that keep order: loop memory canonical, the event queue within its size,
no cue named that was not pending, and a transfer in flight exactly if one was. -/
structure Keeps (a t : Engine) : Prop where
  cells : cellsWf a.mem.cells = true → cellsWf t.mem.cells = true
  reports : a.evq.list.length ≤ Config.maxReports → t.evq.list.length ≤ Config.maxReports
  next : t.cues.nextNumber = a.cues.nextNumber
  cues : List.Sublist (t.cues.list.map Cue.name) (a.cues.list.map Cue.name)
  xfer : t.xfer.isSome = a.xfer.isSome

theorem Keeps.refl (a : Engine) : Keeps a a := ⟨id, id, rfl, .refl _, rfl⟩

theorem Keeps.trans {a e t : Engine} (h : Keeps a e) (h' : Keeps e t) : Keeps a t :=
  ⟨h'.cells ∘ h.cells, h'.reports ∘ h.reports, h'.next.trans h.next, h'.cues.trans h.cues, h'.xfer.trans h.xfer⟩

variable {a e : Engine}

theorem Keeps.ite {c : Prop} [Decidable c] {x y : Engine} (hx : Keeps a x) (hy : Keeps a y) :
    Keeps a (if c then x else y) := by
  split
  · exact hx
  · exact hy

theorem post_keeps (ev : Event) (h : Keeps a e) : Keeps a (post ev e) :=
  { h with reports := fun hr => queueReport_length (h.reports hr) ev _ _ }

theorem onFollower_keeps {f : Engine → Engine} (hf : ∀ e, Keeps a e → Keeps a (f e)) (h : Keeps a e) :
    Keeps a (onFollower f e) := by
  obtain ⟨heard, he⟩ := onFollower_only f e
  rw [he]
  exact { hf e h with }

/-- Cues that keep their names. -/
theorem Keeps.rename {f : Cue → Cue} (hf : ∀ c, (f c).name = c.name) (h : Keeps a e) :
    Keeps a { e with cues := { e.cues with list := e.cues.list.map f } } := by
  have hnames : (e.cues.list.map f).map Cue.name = e.cues.list.map Cue.name := by simp [Function.comp_def, hf]
  exact { h with cues := hnames ▸ h.cues }

/-! ## Shared operations -/

theorem reportClip_keeps (h : Keeps a e) : Keeps a (reportClip e) := by
  unfold reportClip
  split
  · exact h
  · split
    · exact { h with }
    · exact post_keeps _ { h with }

theorem setFollowState_keeps (st : FollowState) (c : FollowCause) (h : Keeps a e) :
    Keeps a (setFollowState st c e) := by
  unfold setFollowState
  split
  · exact { h with }
  · exact post_keeps _ { h with }

theorem setLayerState_keeps (l : LayerIx) (st : LayerState) (c : LayerCause) (n : Nat) (h : Keeps a e) :
    Keeps a (setLayerState l st c n e) := post_keeps _ { h with }

theorem pageWrite_keeps (l : LayerIx) (key pos : Nat) (x : Sample) (h : Keeps a e) :
    Keeps a (pageWrite l key pos x e) :=
  { h with
    cells := fun hc => pageWrite_wf l key pos x e (h.cells hc)
    reports := by unfold pageWrite; split <;> exact h.reports
    next := by unfold pageWrite; split <;> exact h.next
    cues := by unfold pageWrite; split <;> exact h.cues
    xfer := by unfold pageWrite; split <;> exact h.xfer }

theorem chainWrite_keeps (l : LayerIx) (key pos : Nat) (x : Sample) (h : Keeps a e) :
    Keeps a (chainWrite l key pos x e) := by
  unfold chainWrite
  split
  · exact { h with }
  · exact pageWrite_keeps l key pos x h

theorem chainWrites_keeps (l : LayerIx) (key : Nat) :
    ∀ (xs : List Sample) (pos : Nat) {e : Engine}, Keeps a e → Keeps a (chainWrites l key pos xs e)
  | [], _, _, h => h
  | x :: xs, pos, _, h => chainWrites_keeps l key xs _ (chainWrite_keeps l key pos x h)

theorem drainWrites_keeps (l : LayerIx) (key : Nat) :
    ∀ (ws : List (Nat × Sample)) {e : Engine}, Keeps a e → Keeps a (drainWrites l key ws e)
  | [], _, h => h
  | w :: ws, _, h => drainWrites_keeps l key ws (pageWrite_keeps l key w.1 w.2 h)

theorem freeChain_keeps (l : LayerIx) (chain : Option (List Nat)) (h : Keeps a e) :
    Keeps a (freeChain l chain e) := by
  unfold freeChain
  split
  · exact { h with }
  · exact h

/-! ## Voices and the splice -/

theorem leaveSplice_keeps (v : LayerIx) (h : Keeps a e) : Keeps a (leaveSplice v e) := by
  unfold leaveSplice
  split
  · exact h
  · split
    · exact { h with }
    · exact h
  · split
    · exact { h with }
    · exact h

theorem playVoice_keeps (l : LayerIx) (h : Keeps a e) : Keeps a (playVoice l e) := by
  unfold playVoice
  split
  · exact { h with }
  · exact h

theorem stopVoice_keeps (l : LayerIx) (h : Keeps a e) : Keeps a (stopVoice l e) := by
  have h1 := leaveSplice_keeps l h
  unfold stopVoice
  dsimp only
  split
  · exact { h1 with }
  · exact h1

theorem clearVoice_keeps (l : LayerIx) (h : Keeps a e) : Keeps a (clearVoice l e) :=
  { leaveSplice_keeps l h with }

theorem recoverVoice_keeps (l : LayerIx) (h : Keeps a e) : Keeps a (recoverVoice l e) := by
  unfold recoverVoice
  dsimp only
  split
  · exact post_keeps _ { h with }
  · exact { h with }

theorem clearFadeDone_keeps (l : LayerIx) (h : Keeps a e) : Keeps a (clearFadeDone l e) := by
  unfold clearFadeDone
  dsimp only
  split <;> exact { h with }

theorem runVoice_keeps (adv : Nat) (l : LayerIx) (h : Keeps a e) : Keeps a (runVoice adv l e) := by
  unfold runVoice
  dsimp only
  split
  · exact post_keeps _ { h with }
  · exact { h with }

theorem modVoices_keeps (f : Engine → LayerIx → Voice → Voice) (vs : List LayerIx) (h : Keeps a e) :
    Keeps a (vs.foldl (fun e v => modVoice v (f e v) e) e) :=
  foldl_induct (fun _ _ h => { h with }) vs h

theorem requestSplice_keeps (j : Int) (h : Keeps a e) : Keeps a (requestSplice j e) := by
  unfold requestSplice
  split
  · exact modVoices_keeps _ _ { h with }
  · exact h

theorem discardStreams_keeps (vs : List LayerIx) (h : Keeps a e) : Keeps a (discardStreams vs e) :=
  modVoices_keeps _ vs h

theorem abandonSplice_keeps (r : SkipReason) (h : Keeps a e) : Keeps a (abandonSplice r e) := by
  unfold abandonSplice
  split
  · exact post_keeps _ (discardStreams_keeps _ { h with })
  · exact h

theorem captureStops_keeps (h : Keeps a e) : Keeps a (captureStops e) := by
  unfold captureStops
  split
  · split
    · exact discardStreams_keeps _ { h with }
    · exact abandonSplice_keeps _ h
  · exact h

theorem endCrossfade_keeps (h : Keeps a e) : Keeps a (endCrossfade e) := by
  unfold endCrossfade
  split
  · exact modVoices_keeps _ _ { h with }
  · exact h

theorem alignStreams_keeps (h : Keeps a e) : Keeps a (alignStreams e) := by
  unfold alignStreams
  split
  · exact modVoices_keeps _ _ h
  · exact h

theorem jumpVoice_keeps (r : SpliceRec) (v : LayerIx) (h : Keeps a e) : Keeps a (jumpVoice r v e) := by
  unfold jumpVoice
  dsimp only
  split
  · exact { h with }
  · exact { h with }
  · split
    · exact { h with }
    · exact h
  · exact h

/-! ## Loop memory -/

theorem reclaimOne_keeps (l : LayerIx) (k : AgeKind) (h : Keeps a e) : Keeps a (reclaimOne l k e) :=
  post_keeps _ { freeChain_keeps l _ h with }

theorem reclaimWalk_keeps (need extra : Nat) (own : Option LayerIx) :
    ∀ (list : List (LayerIx × AgeKind)) {e : Engine}, Keeps a e → Keeps a (reclaimWalk need extra own list e)
  | [], _, h => h
  | (l, k) :: rest, _, h => by
    unfold reclaimWalk
    split
    · exact h
    · split
      · exact reclaimWalk_keeps need extra own rest h
      · exact reclaimWalk_keeps need extra own rest (reclaimOne_keeps l k h)

theorem allocChain_keeps (n : Nat) (h : Keeps a e) : Keeps a (allocChain n e).2 := by
  have h1 := reclaimWalk_keeps n 0 none e.mem.age h
  unfold allocChain
  dsimp only
  split
  · exact { h1 with }
  · exact h1

theorem grantHold_keeps (l : LayerIx) (h : Keeps a e) : Keeps a (grantHold l e) := by
  unfold grantHold
  split
  · exact post_keeps _ { h with }
  · exact h

theorem grantHolds_keeps (h : Keeps a e) : Keeps a (grantHolds e) :=
  eachLayer_induct (fun l _ h => grantHold_keeps l h) h

theorem zeroFeed_keeps (l : LayerIx) (h : Keeps a e) : Keeps a (zeroFeed l e) := by
  unfold zeroFeed
  extract_lets len pos n e1 stream spos
  have h1 : Keeps a e1 := Keeps.ite { h with } h
  clear_value e1
  exact Keeps.ite { h1 with } h1

theorem arbitrate_keeps (h : Keeps a e) : Keeps a (arbitrate e) := by
  unfold arbitrate
  split
  · exact h
  · have h1 : Keeps a (eachLayer zeroFeed e) := eachLayer_induct (fun l _ h => zeroFeed_keeps l h) h
    generalize eachLayer zeroFeed e = e1 at h1
    exact { h1 with }

theorem voiceDone_keeps (g : Grant) (l : LayerIx) (h : Keeps a e) : Keeps a (voiceDone g l e) := by
  unfold voiceDone
  dsimp only
  split
  · exact h
  · exact { h with }

theorem spliceDone_keeps (g : Grant) (l : LayerIx) (h : Keeps a e) : Keeps a (spliceDone g l e) := by
  unfold spliceDone
  split
  · exact { h with }
  · exact h

theorem jobDone_keeps (l : LayerIx) (k : FillKind) (h : Keeps a e) : Keeps a (jobDone l k e) :=
  grantHolds_keeps (post_keeps _ { h with })

theorem zeroFillDone_keeps (l : LayerIx) (h : Keeps a e) : Keeps a (zeroFillDone l e) := by
  unfold zeroFillDone
  extract_lets e1 e2
  have h1 : Keeps a e1 := jobDone_keeps l .zeroFill h
  clear_value e1
  have h2 : Keeps a e2 := Keeps.ite { h1 with } h1
  clear_value e2
  exact Keeps.ite { h2 with } h2

theorem fillerDone_keeps (g : Grant) (h : Keeps a e) : Keeps a (fillerDone g e) := by
  unfold fillerDone
  split
  · exact h
  · split
    · split
      · extract_lets xs e1 mem e2
        have h1 : Keeps a e1 := chainWrites_keeps g.layer g.key xs g.first h
        have h2 : Keeps a e2 := { h1 with }
        clear_value e2
        split
        · exact Keeps.ite (jobDone_keeps _ _ { h2 with }) { h2 with }
        · exact h2
      · exact { h with }
    · extract_lets e1 done
      have h1 : Keeps a e1 := chainWrites_keeps g.layer g.key _ g.first h
      clear_value e1
      exact Keeps.ite (zeroFillDone_keeps _ h1) { h1 with }

theorem drainDone_keeps (g : Grant) (s : SlotIx) (h : Keeps a e) : Keeps a (drainDone g s e) :=
  { drainWrites_keeps g.layer g.key ((headRun e e.slots[s]).take g.count) h with }

/-- What the completion of a grant keeps: a transfer that it completes, and answers, is no longer in flight. -/
structure Completes (e : Engine) (out : Engine × Option LateReply) : Prop where
  going : out.2 = none → Keeps e out.1
  ended : ∀ r, out.2 = some r → e.xfer.isSome = true ∧ Keeps { e with xfer := none } out.1

theorem Keeps.completes {e t : Engine} (h : Keeps e t) : Completes e (t, none) := ⟨fun _ => h, fun _ hr => (nomatch hr)⟩

theorem transferDone_completes (g : Grant) (e : Engine) : Completes e (transferDone g e) := by
  unfold transferDone
  split
  · exact (Keeps.refl e).completes
  next t ht =>
    extract_lets e1 data t1 e2 e3
    have h1 : Keeps e e1 := Keeps.ite (chainWrites_keeps _ _ _ _ (Keeps.refl e)) (Keeps.refl e)
    have hin : e.xfer.isSome = true := by simp [ht]
    clear_value e1
    split
    · have h2 : Keeps { e with xfer := none } e2 := { h1 with xfer := rfl }
      exact ⟨fun hn => (nomatch hn), fun _ _ => ⟨hin, Keeps.ite { h2 with } h2⟩⟩
    · exact Keeps.completes { h1 with xfer := hin.symm }

theorem completeGrant_completes (e : Engine) : Completes e (completeGrant e) := by
  unfold completeGrant
  split
  · exact (Keeps.refl e).completes
  next g _ =>
    extract_lets mem e0 out
    have h0 : Keeps e e0 := { Keeps.refl e with }
    have hout : Completes e0 out := by
      unfold out
      split
      · exact (Keeps.refl e0).completes
      · cases g.who with
        | slot s => exact (drainDone_keeps g s (Keeps.refl e0)).completes
        | voice l => exact (voiceDone_keeps g l (Keeps.refl e0)).completes
        | splice l => exact (spliceDone_keeps g l (Keeps.refl e0)).completes
        | transfer => exact transferDone_completes g e0
        | filler => exact (fillerDone_keeps g (Keeps.refl e0)).completes
    clear_value out
    refine ⟨fun hn => arbitrate_keeps (h0.trans (hout.going hn)), fun r hr => ?_⟩
    obtain ⟨hin, hk⟩ := hout.ended r hr
    exact ⟨hin, arbitrate_keeps { hk with }⟩

/-! ## Capture slots and layers -/

theorem closeGap_keeps (s : SlotIx) (h : Keeps a e) : Keeps a (closeGap s e) := by
  unfold closeGap
  split
  · exact post_keeps _ { h with }
  · exact h

theorem releaseSlot_keeps (l : LayerIx) (h : Keeps a e) : Keeps a (releaseSlot l e) := by
  unfold releaseSlot
  split
  · exact { h with }
  · exact h

theorem stageNew_keeps (s : SlotIx) (l : LayerIx) (key pos : Nat) (x : Sample) (h : Keeps a e) :
    Keeps a (stageNew s l key pos x e) := Keeps.ite { h with } { closeGap_keeps s h with }

theorem stageAgain_keeps (s : SlotIx) (l : LayerIx) (key pos : Nat) (x : Sample) (h : Keeps a e) :
    Keeps a (stageAgain s l key pos x e) := by
  unfold stageAgain
  split
  · exact h
  · exact Keeps.ite { h with } (stageNew_keeps s l key pos x h)
  · exact stageNew_keeps s l key pos x h

theorem stageWrite_keeps (s : SlotIx) (l : LayerIx) (w : SlotWrite) (h : Keeps a e) :
    Keeps a (stageWrite s l w e) := by
  unfold stageWrite
  split
  · exact Keeps.ite (stageAgain_keeps _ _ _ _ _ h) (stageNew_keeps _ _ _ _ _ h)
  · exact h

theorem growWritten_keeps (l : LayerIx) (h : Keeps a e) : Keeps a (growWritten l e) := by
  unfold growWritten
  split
  · exact { h with }
  · exact h

theorem commitWrite_keeps (s : SlotIx) (w : SlotWrite) (h : Keeps a e) : Keeps a (commitWrite s e w) := by
  unfold commitWrite
  extract_lets sl
  split
  · exact h
  next l _ =>
    split
    · exact h
    · exact { stageWrite_keeps s l w (Keeps.ite { h with } h : Keeps a (basePage l w.pos e)) with }
    · exact { stageWrite_keeps s l w h with }
    · extract_lets e1
      have h1 : Keeps a e1 := { stageWrite_keeps s l w h with }
      exact Keeps.ite h1 (growWritten_keeps l h1)

theorem commitSlot_keeps (s : SlotIx) (h : Keeps a e) : Keeps a (commitSlot s e) :=
  { foldl_induct (fun w _ h => commitWrite_keeps s w h) e.slots[s].pendingWrites h with }

theorem endSlot_keeps (l : LayerIx) (h : Keeps a e) : Keeps a (endSlot l e) := by
  unfold endSlot
  split
  · exact releaseSlot_keeps l (closeGap_keeps _ h)
  · exact h

theorem noteTaken_keeps (s : SlotIx) (l : LayerIx) (h : Keeps a e) : Keeps a (noteTaken s l e) := by
  obtain ⟨lanes, he⟩ := noteTaken_only s l e
  rw [he]
  exact { h with }

theorem completeFixed_keeps (s : SlotIx) (h : Keeps a e) : Keeps a (completeFixed s e) := by
  unfold completeFixed
  split
  · exact grantHolds_keeps (playVoice_keeps _ (closeGap_keeps s (setLayerState_keeps _ _ _ _
      (releaseSlot_keeps _ (commitSlot_keeps s (noteTaken_keeps s _ h))))))
  · exact h

theorem closeEarly_keeps (l : LayerIx) (n : Nat) (h : Keeps a e) : Keeps a (closeEarly l n e) := by
  unfold closeEarly
  split
  · exact playVoice_keeps l (setLayerState_keeps _ _ _ _ { endSlot_keeps l h with })
  · exact h

theorem endOverdub_keeps (l : LayerIx) (h : Keeps a e) : Keeps a (endOverdub l e) :=
  Keeps.ite { endSlot_keeps l h with } (endSlot_keeps l h)

theorem recoverDone_keeps (l : LayerIx) (h : Keeps a e) : Keeps a (recoverDone l e) := by
  have h1 := recoverVoice_keeps l h
  unfold recoverDone
  dsimp only
  split
  · exact { h1 with }
  · exact h1

theorem stopLayer_keeps (l : LayerIx) (n : Nat) (h : Keeps a e) : Keeps a (stopLayer l n e) :=
  stopVoice_keeps l (setLayerState_keeps _ _ _ _ (Keeps.ite (endOverdub_keeps l h) h : Keeps a (endIfOverdubbing l e)))

theorem playLayer_keeps (l : LayerIx) (n : Nat) (h : Keeps a e) : Keeps a (playLayer l n e) :=
  playVoice_keeps l (setLayerState_keeps _ _ _ _ h)

theorem finishOverdub_keeps (l : LayerIx) (n : Nat) (h : Keeps a e) : Keeps a (finishOverdub l n e) :=
  setLayerState_keeps _ _ _ _ (endOverdub_keeps l h)

theorem releaseLayer_keeps (l : LayerIx) (h : Keeps a e) : Keeps a (releaseLayer l e) := by
  have h1 : Keeps a (dropJob l (releaseSlot l e)) := { releaseSlot_keeps l h with }
  have h2 : Keeps a (dropAge l (freeChain l e.layers[l].redo (freeChain l e.layers[l].undo
      (freeChain l e.layers[l].cur (dropJob l (releaseSlot l e)))))) :=
    { freeChain_keeps l _ (freeChain_keeps l _ (freeChain_keeps l _ h1)) with }
  exact { clearVoice_keeps l h2 with }

theorem emptyLayer_keeps (l : LayerIx) (c : LayerCause) (n : Nat) (h : Keeps a e) : Keeps a (emptyLayer l c n e) :=
  setLayerState_keeps _ _ _ _ (releaseLayer_keeps l h)

theorem disarm_keeps (l : LayerIx) (n : Nat) (h : Keeps a e) : Keeps a (disarm l n e) :=
  Keeps.ite (setLayerState_keeps _ _ _ _ { h with }) h

theorem undoLayer_keeps (l : LayerIx) (h : Keeps a e) : Keeps a (undoLayer l e) := by
  have h0 : Keeps a (dropJobs (fun j => j.layer == l && j.kind == .finishCopy) e) := { h with }
  exact Keeps.ite { freeChain_keeps l e.layers[l].cur h0 with } { h with }

theorem startBase_keeps (s : SlotIx) (l : LayerIx) (lane : LaneIx) (n : Nat) (h : Keeps a e) :
    Keeps a (startBase s l lane n e) := by
  have h3 : Keeps a (setLayerState l .capturing .cue n
      (modLayer l (fun r => { r with cur := some [] }) (takeSlot s .base l lane none e))) :=
    setLayerState_keeps _ _ _ _ { h with }
  exact { h3 with }

theorem startFixed_keeps (s : SlotIx) (l : LayerIx) (n : Nat) (lane : LaneIx) (pages : List Nat) (num : Nat)
    (h : Keeps a e) : Keeps a (startFixed s l n lane pages num e) :=
  captureStops_keeps (setLayerState_keeps _ _ _ _ { h with })

theorem overdubChains_keeps (l : LayerIx) (n : Nat) (h : Keeps a e) : Keeps a (overdubChains l n e) := by
  unfold overdubChains
  extract_lets r e1 t
  have h1 : Keeps a e1 := { freeChain_keeps l r.undo (freeChain_keeps l r.redo h) with }
  clear_value e1
  exact { h1 with }

theorem startOverdub_keeps (s : SlotIx) (l : LayerIx) (lane : LaneIx) (level fb n : Nat) (h : Keeps a e) :
    Keeps a (startOverdub s l lane level fb n e) := by
  unfold startOverdub
  extract_lets i e1 e2 e3 e4
  have h3 : Keeps a e3 := { overdubChains_keeps l (pagesFor (layerLen e l)) h with }
  have h4 : Keeps a e4 := leaveSplice_keeps l (captureStops_keeps (setLayerState_keeps _ _ _ _ h3))
  exact { h4 with }

theorem importLayer_keeps (l : LayerIx) (n : Nat) (h : Keeps a e) : Keeps a (importLayer l n e).1 := by
  have h1 := allocChain_keeps (pagesFor (n * e.cyc.c)) h
  unfold importLayer
  split
  · exact h
  · split
    · exact h
    · split
      · exact h
      · split
        next e1 hal =>
          rw [hal] at h1
          dsimp only at h1 ⊢
          exact grantHolds_keeps h1
        next pages e1 hal =>
          rw [hal] at h1
          extract_lets e2
          dsimp only at h1 ⊢
          have h2 : Keeps a e2 := { h1 with }
          clear_value e2
          exact grantHolds_keeps (setLayerState_keeps _ _ _ _ { h2 with })

/-! ## The follower and the cycle clock -/

theorem trimWith_keeps (b : Nat) (h : Keeps a e) : Keeps a (trimWith b e) := Keeps.ite { h with } h

theorem followBeat_keeps (h : Keeps a e) : Keeps a (followBeat e) :=
  onFollower_keeps (fun _ h => Keeps.ite { h with } h) h

theorem coast_keeps (h : Keeps a e) : Keeps a (coast e) :=
  onFollower_keeps (fun _ h => Keeps.ite (setFollowState_keeps _ _ h) h) h

theorem followLapse_keeps (c : FollowCause) (h : Keeps a e) : Keeps a (followLapse c e) :=
  onFollower_keeps (fun _ h => Keeps.ite (setFollowState_keeps _ _ h) h) h

theorem clearDecision_keeps (h : Keeps a e) : Keeps a (clearDecision e) :=
  onFollower_keeps (fun _ h => { h with }) h

theorem noteGrid_keeps (h : Keeps a e) : Keeps a (noteGrid e) := { h with }

theorem acceptOnset_keeps (err : Int) (b : Nat) (h : Keeps a e) : Keeps a (acceptOnset err b e) :=
  trimWith_keeps b (Keeps.ite (post_keeps _ { h with }) { h with })

theorem measureOnset_keeps (k : OnsetKind) (h : Keeps a e) : Keeps a (measureOnset k e) :=
  onFollower_keeps (fun e h => by
    dsimp only
    split
    · exact h
    · exact Keeps.ite (acceptOnset_keeps _ _ { h with }) { h with }) h

theorem detect_keeps (h : Keeps a e) : Keeps a (detect e).1 := by
  unfold detect
  split
  · exact h
  · split
    · exact { h with }
    · split
      · exact { h with }
      · exact h

theorem decideSplice_keeps (h : Keeps a e) : Keeps a (decideSplice e) :=
  Keeps.ite h (Keeps.ite { h with } (requestSplice_keeps _ { h with }))

theorem followJump_keeps (j : Int) (h : Keeps a e) : Keeps a (followJump j e) :=
  Keeps.ite (trimWith_keeps _ { h with }) h

theorem changeSource_keeps (src : BeatSource) (h : Keeps a e) : Keeps a (changeSource src e) :=
  Keeps.ite h (setFollowState_keeps _ _ { h with })

theorem setFollower_keeps (p : List Byte) (src : BeatSource) (h : Keeps a e) : Keeps a (setFollower p src e) :=
  onFollower_keeps (fun e h => by
    have h1 : Keeps a (changeSource src { e with fol := followParams p e.fol }) := changeSource_keeps src { h with }
    exact trimWith_keeps _ { h1 with }) h

theorem followSet_keeps (p : List Byte) (h : Keeps a e) : Keeps a (followSet p e).1 := by
  unfold followSet
  split
  · exact h
  · split
    · exact h
    · split
      · exact h
      · exact setFollower_keeps p _ h

theorem holdFollower_keeps (h : Keeps a e) : Keeps a (holdFollower e) :=
  onFollower_keeps (fun _ h => Keeps.ite h (setFollowState_keeps _ _ { h with })) h

theorem releaseFollower_keeps (h : Keeps a e) : Keeps a (releaseFollower e) :=
  onFollower_keeps (fun _ h => Keeps.ite (Keeps.ite { h with } (setFollowState_keeps _ _ { h with })) h) h

theorem countList_names (b : Boundary) :
    ∀ (wave : Nat) (list : List Cue), (countList b wave list).map Cue.name = list.map Cue.name
  | _, [] => rfl
  | wave, c :: rest => by
    have hc : (c.count b wave).name = c.name := by unfold Cue.count; split <;> rfl
    simp only [countList, List.map_cons, hc, countList_names b _ rest]

theorem countCues_keeps (b : Boundary) (w : Nat) (h : Keeps a e) : Keeps a (countCues b w e) :=
  { h with cues := (countList_names b w e.cues.list).symm ▸ h.cues }

theorem beatBoundary_keeps (w : Nat) (h : Keeps a e) : Keeps a (beatBoundary w e) :=
  followBeat_keeps (countCues_keeps _ w (post_keeps _ h))

theorem bareBoundary_keeps (w : Nat) (h : Keeps a e) : Keeps a (bareBoundary w e) :=
  beatBoundary_keeps w (countCues_keeps _ w { h with })

theorem cycleBoundary_keeps (w : Nat) (h : Keeps a e) : Keeps a (cycleBoundary w e) :=
  eachLayer_induct (fun _ _ h => Keeps.ite (countCues_keeps _ w (post_keeps _ h)) h) (bareBoundary_keeps w h)

theorem fireBeats_keeps (q : Nat) : ∀ (fuel : Nat) {e : Engine}, Keeps a e → Keeps a (fireBeats q fuel e)
  | 0, _, h => h
  | fuel + 1, _, h => Keeps.ite (fireBeats_keeps q fuel (beatBoundary_keeps 0 { h with })) h

theorem wrapCycle_keeps (h : Keeps a e) : Keeps a (wrapCycle e) := by
  unfold wrapCycle
  extract_lets e1 e2 e3
  have h2 : Keeps a e2 := clearDecision_keeps (abandonSplice_keeps _ { h with })
  exact cycleBoundary_keeps 0 (Keeps.ite (trimWith_keeps _ h2) h2)

theorem takeJump_keeps (h : Keeps a e) : Keeps a (takeJump e).1 := by
  unfold takeJump
  split
  · split
    · exact abandonSplice_keeps _ h
    · exact { h with }
  · exact h

theorem landJump_keeps (r : SpliceRec) (h : Keeps a e) : Keeps a (landJump r e) :=
  eachLayer_induct (fun v _ h => jumpVoice_keeps r v h)
    (post_keeps _ (followJump_keeps r.j (fireBeats_keeps _ _ h)))

theorem advanceCycle_keeps (jump : Bool) (h : Keeps a e) : Keeps a (advanceCycle jump e) := by
  unfold advanceCycle
  extract_lets e1 q out e2 e3
  have h1 : Keeps a e1 := { h with }
  clear_value e1
  have hout : Keeps a out.1 := by
    unfold out
    split
    · exact takeJump_keeps h1
    · exact h1
  clear_value out
  have h2 : Keeps a e2 := fireBeats_keeps _ _ hout
  have h3 : Keeps a e3 := Keeps.ite (decideSplice_keeps h2) h2
  clear_value e3
  split
  · exact wrapCycle_keeps h1
  · split
    · exact h3
    · exact landJump_keeps _ h3

theorem startCycle_keeps (len : Nat) (h : Keeps a e) : Keeps a (startCycle len e) := clearDecision_keeps { h with }

theorem closeBase_keeps (l : LayerIx) (count : Nat) (c : LayerCause) (n w : Nat) (h : Keeps a e) :
    Keeps a (closeBase l count c n w e) := by
  unfold closeBase
  extract_lets e1 e2
  have h1 : Keeps a e1 := startCycle_keeps count (endSlot_keeps l h)
  clear_value e1
  exact post_keeps _ (cycleBoundary_keeps w (playVoice_keeps l (setLayerState_keeps _ _ _ _ { h1 with })))

theorem leaveBase_keeps (h : Keeps a e) : Keeps a (leaveBase e) :=
  clearDecision_keeps (followLapse_keeps _ { h with })

theorem autoClose_keeps (h : Keeps a e) : Keeps a (autoClose e) := by
  unfold autoClose
  split
  · split
    next l n _ => exact grantHolds_keeps (noteGrid_keeps (closeBase_keeps l n .autoClose 0 0 h))
    · exact h
  · exact h

theorem enterPaused_keeps (h : Keeps a e) : Keeps a (enterPaused e) :=
  followLapse_keeps _ (endCrossfade_keeps (abandonSplice_keeps _ { h with }))

theorem returnToUnset_keeps (h : Keeps a e) : Keeps a (returnToUnset e) :=
  post_keeps _ (clearDecision_keeps (followLapse_keeps _ (endCrossfade_keeps (abandonSplice_keeps _ { h with }))))

theorem handOnset_keeps (k : OnsetKind) (h : Keeps a e) : Keeps a (handOnset k e) :=
  measureOnset_keeps k (countCues_keeps _ 0 (coast_keeps (autoClose_keeps h)))

theorem handTaps_keeps : ∀ (n : Nat) {e : Engine}, Keeps a e → Keeps a (handTaps n e)
  | 0, _, h => h
  | n + 1, _, h => handTaps_keeps n (handOnset_keeps .tap h)

end Sys2Proof.Machine
end

section
/-! Order (R61, R62, R178, R181), continued: the pedals, the ports, the cues, the commands and the frame. -/

set_option Elab.async false

namespace Sys2Proof.Machine

variable {a e : Engine}

/-! ## The pedals and the mixer -/

theorem writeTarget_keeps (t : PedalTarget) (v : Nat) (h : Keeps a e) : Keeps a (writeTarget t v e) := by
  cases t <;> exact { h with }

theorem applyEntry_keeps (i : MapIx) (h : Keeps a e) : Keeps a (applyEntry i e) := by
  obtain he | ⟨t, v, m, he⟩ := applyEntry_cases i e
  · rw [he]; exact h
  · rw [he]; exact { writeTarget_keeps t v h with }

theorem samplingEvent_keeps (pins : Vector (BitVec 10) 4) (h : Keeps a e) : Keeps a (samplingEvent pins e) := by
  unfold samplingEvent
  split
  · extract_lets ped e1
    have h1 : Keeps a e1 := { h with }
    exact Keeps.ite h1 (foldl_induct (fun i _ h => applyEntry_keeps i h) mapIxs { h1 with })
  · exact h

theorem tickSampling_keeps (h : Keeps a e) : Keeps a (tickSampling e) := Keeps.ite { h with } { h with }

theorem tickGrant_keeps (h : Keeps a e) : Keeps a (tickGrant e) := { h with }

theorem releasePedals_keeps (h : Keeps a e) : Keeps a (releasePedals e) := Keeps.ite { h with } h

theorem clipWindowEnd_keeps (h : Keeps a e) : Keeps a (clipWindowEnd e) := Keeps.ite { h with } h

theorem muteOutput_keeps (h : Keeps a e) : Keeps a (muteOutput e) := { h with }

theorem mixFrame_keeps (h : Keeps a e) : Keeps a (mixFrame e) := by
  unfold mixFrame
  extract_lets e1
  have h1 : Keeps a e1 := { h with }
  clear_value e1
  exact Keeps.ite { h1 with } { h1 with }

theorem recoverFrame_keeps (l : LayerIx) (h : Keeps a e) : Keeps a (recoverFrame l e) := by
  unfold recoverFrame
  extract_lets e1
  have h1 : Keeps a e1 := recoverDone_keeps l h
  clear_value e1
  exact Keeps.ite { h1 with } h1

/-! ## Ports and lanes -/

theorem unreport_length (q : EventQueue) (r : Report) : (q.unreport r).list.length ≤ q.list.length := by
  unfold EventQueue.unreport
  split
  next x _ => simpa using List.length_erase_le (a := x) (l := q.list.reverse)
  · exact Nat.le_refl _

theorem uncount_name (without : List Cue) (c : Cue) : (c.uncount without).name = c.name := by
  unfold Cue.uncount
  split
  next w hw =>
    have hsame := List.find?_some hw
    simp only [Bool.and_eq_true, beq_iff_eq] at hsame
    split
    · rfl
    · simp [Cue.name, hsame.1.1, hsame.2]
  · rfl

/-- Reports that leave the queue and reports that join it keep it within its size. -/
theorem unhear_reports (gone new : List Report) {q : EventQueue} (hq : q.list.length ≤ Config.maxReports) :
    (new.foldl (fun q r => queueReport r.event r.k r.p q) (gone.foldl EventQueue.unreport q)).list.length
      ≤ Config.maxReports := by
  have hgone : (gone.foldl EventQueue.unreport q).list.length ≤ Config.maxReports := by
    induction gone generalizing q with
    | nil => exact hq
    | cons r rest ih => exact ih (Nat.le_trans (unreport_length q r) hq)
  generalize gone.foldl EventQueue.unreport q = kept at hgone
  induction new generalizing kept with
  | nil => exact hgone
  | cons r rest ih => exact ih _ (queueReport_length hgone _ _ _)

theorem unhear_keeps (hd : Heard) (h : Keeps a e) : Keeps a (unhear hd e) :=
  { Keeps.rename (uncount_name hd.cues) h with reports := fun hr => unhear_reports _ _ (h.reports hr) }

theorem deafen_keeps (l : LaneIx) (h : Keeps a e) : Keeps a (deafen l e) := by
  unfold deafen
  split
  · exact Keeps.ite (unhear_keeps _ h) h
  · exact h

theorem silenceLane_keeps (l : LaneIx) (h : Keeps a e) : Keeps a (silenceLane l e) := by
  unfold silenceLane
  extract_lets e0 ln e1 e2
  have h0 : Keeps a e0 := deafen_keeps l h
  clear_value e0
  exact { h0 with }

theorem silenceLanes_keeps (p : PortIx) (h : Keeps a e) : Keeps a (silenceLanes p e) :=
  eachQuad_induct (fun l _ h => Keeps.ite (silenceLane_keeps l h) h) h

theorem adoptPort0_keeps (c : ClockCause) (h : Keeps a e) : Keeps a (adoptPort0 c e) := post_keeps _ { h with }

theorem fallback_keeps (h : Keeps a e) : Keeps a (fallback e) := post_keeps _ { h with }

theorem dropWaiting_keeps (p : PortIx) (h : Keeps a e) : Keeps a (dropWaiting p e) := Keeps.ite { h with } h

theorem endRecovery_keeps (p : PortIx) (h : Keeps a e) : Keeps a (endRecovery p e) :=
  Keeps.ite h (post_keeps _ { h with })

theorem dropLock_keeps (p : PortIx) (k : Lock) (h : Keeps a e) : Keeps a (dropLock p k e) := by
  unfold dropLock
  split
  · exact h
  · extract_lets e1 e2
    have h1 : Keeps a e1 := { endRecovery_keeps p h with }
    have h2 : Keeps a e2 := post_keeps _ (dropWaiting_keeps p (silenceLanes_keeps p h1))
    exact Keeps.ite (Keeps.ite (fallback_keeps h2) h2) (post_keeps _ h1)

theorem acquireLock_keeps (p : PortIx) (h : Keeps a e) : Keeps a (acquireLock p e) := by
  unfold acquireLock
  split
  · extract_lets e1
    have h1 : Keeps a e1 := post_keeps _ { h with }
    exact Keeps.ite (adoptPort0_keeps _ h1) h1
  · exact h

theorem loseLock_keeps (p : PortIx) (h : Keeps a e) : Keeps a (loseLock p e) :=
  Keeps.ite { dropLock_keeps p .searching h with } h

theorem relockPort_keeps (p : PortIx) (h : Keeps a e) : Keeps a (relockPort p e) :=
  Keeps.ite (dropLock_keeps p _ h) { h with }

theorem beginRelock_keeps (rate : Nat) (h : Keeps a e) : Keeps a (beginRelock rate e) := by
  unfold beginRelock
  extract_lets e0 clk e1 clk2 e2
  have h0 : Keeps a e0 := samplingEvent_keeps e.ped.pins h
  clear_value e0
  have h1 : Keeps a e1 := post_keeps _ { h0 with }
  clear_value e1
  have h2 : Keeps a e2 := Keeps.ite (post_keeps _ { h1 with }) h1
  clear_value e2
  exact muteOutput_keeps (reportClip_keeps (eachQuad_induct (fun p _ h => relockPort_keeps p h) h2))

theorem endRelock_keeps (h : Keeps a e) : Keeps a (endRelock e) :=
  Keeps.ite h (Keeps.ite { h with } (post_keeps _ { h with }))

theorem goodFrame_keeps (p : PortIx) (w : Sample × Sample) (h : Keeps a e) : Keeps a (goodFrame p w e) := by
  unfold goodFrame
  split
  · exact h
  · exact { h with }
  · exact Keeps.ite { h with } { h with }

theorem badFrame_keeps (p : PortIx) (h : Keeps a e) : Keeps a (badFrame p e) := by
  unfold badFrame
  split
  · exact h
  · exact { h with }
  · exact Keeps.ite { h with } { h with }

theorem fillDone_keeps (p : PortIx) (h : Keeps a e) : Keeps a (fillDone p e) := Keeps.ite { h with } h

theorem slipEnd_keeps (k : Recovery) (p : PortIx) (h : Keeps a e) : Keeps a (slipEnd k p e) :=
  Keeps.ite (endRecovery_keeps p h) h

theorem settlePort_keeps (p : PortIx) (h : Keeps a e) : Keeps a (settlePort p e) :=
  slipEnd_keeps _ p (slipEnd_keeps _ p (loseLock_keeps p (acquireLock_keeps p h)))

theorem portArrival_keeps (p : PortIx) (bits : List Bool) (h : Keeps a e) : Keeps a (portArrival p bits e) := by
  unfold portArrival
  extract_lets e1 q judged
  have h1 : Keeps a e1 := settlePort_keeps p h
  clear_value e1
  have hj : Keeps a judged := Keeps.ite h1 (Keeps.ite (goodFrame_keeps p _ h1) (badFrame_keeps p h1))
  exact Keeps.ite h1 { hj with }

theorem silentPeriod_keeps (p : PortIx) (h : Keeps a e) : Keeps a (silentPeriod p e) :=
  Keeps.ite (badFrame_keeps p (settlePort_keeps p h)) (settlePort_keeps p h)

theorem removeFrame_keeps (p : PortIx) (h : Keeps a e) : Keeps a (removeFrame p e) :=
  Keeps.ite h (Keeps.ite (fillDone_keeps p h) { fillDone_keeps p h with })

theorem takeP0_keeps (h : Keeps a e) : Keeps a (takeP0 e) := by
  unfold takeP0
  split
  · exact h
  · exact { h with }

theorem enablePort_keeps (p : PortIx) (on : Bool) (h : Keeps a e) : Keeps a (enablePort p on e) := by
  unfold enablePort
  extract_lets e1 q
  have h1 : Keeps a e1 := { h with }
  exact Keeps.ite (dropLock_keeps p _ h1) (Keeps.ite (dropLock_keeps p _ h1) h1)

theorem holdPort_keeps (p : PortIx) (h : Keeps a e) : Keeps a (holdPort p e) :=
  Keeps.ite h (dropLock_keeps p _ { h with })

theorem releasePort_keeps (p : PortIx) (h : Keeps a e) : Keeps a (releasePort p e) := by
  unfold releasePort
  split
  · extract_lets e1
    have h1 : Keeps a e1 := { h with }
    exact Keeps.ite (dropLock_keeps p _ h1) h1
  · exact h

theorem selectSource_keeps (src : ClockSource) (h : Keeps a e) : Keeps a (selectSource src e) := by
  unfold selectSource
  extract_lets clk e1
  have h1 : Keeps a e1 := { h with }
  clear_value e1
  cases src with
  | port0 => exact Keeps.ite (adoptPort0_keeps _ h1) h1
  | internal =>
    have hs : Keeps a (post (.clockSource .internal .set) { e1 with clk := { e1.clk with active := .internal } }) :=
      post_keeps _ { h1 with }
    exact Keeps.ite (silenceLanes_keeps 0 { hs with }) h1

/-! ## Cues that execute -/

theorem removeCue_keeps (n : Nat) (h : Keeps a e) : Keeps a (removeCue n e) :=
  { h with cues := (List.filter_sublist.map _).trans h.cues }

theorem deferCue_keeps (n : Nat) (h : Keeps a e) : Keeps a (deferCue n e) :=
  h.rename fun c => by split <;> rfl

/-- The engine an action leaves keeps order. -/
def KeepsOut (a : Engine) (out : Outcome) : Prop := Keeps a out.1

theorem done_keeps (h : Keeps a e) : KeepsOut a (done e) := h

theorem failed_keeps (r : FailReason) (h : Keeps a e) : KeepsOut a (failed r e) := h

theorem KeepsOut.ite {c : Prop} [Decidable c] {x y : Outcome} (hx : KeepsOut a x) (hy : KeepsOut a y) :
    KeepsOut a (if c then x else y) := by
  split
  · exact hx
  · exact hy

theorem recordCue_keeps (n : Nat) (lane : LaneIx) (num : Nat) (l : LayerIx) (h : Keeps a e) :
    KeepsOut a (recordCue n lane num l e) := by
  have h1 := allocChain_keeps (pagesFor (n * e.cyc.c)) h
  unfold recordCue
  extract_lets r
  refine KeepsOut.ite (failed_keeps _ h) ?_
  split
  · refine KeepsOut.ite (failed_keeps _ h) ?_
    split
    · exact failed_keeps _ h
    · exact done_keeps (startBase_keeps _ l lane num h)
  · refine KeepsOut.ite (failed_keeps _ h) ?_
    split
    · exact failed_keeps _ h
    · split
      next hal => rw [hal] at h1; exact failed_keeps _ h1
      next hal => rw [hal] at h1; exact done_keeps (startFixed_keeps _ l n lane _ num h1)
  · exact failed_keeps _ h

theorem closeBaseCue_keeps (l : LayerIx) (count n w : Nat) (h : Keeps a e) : KeepsOut a (closeBaseCue l count n w e) :=
  KeepsOut.ite (failed_keeps _ (leaveBase_keeps (emptyLayer_keeps l _ n h))) (done_keeps (closeBase_keeps l count _ n w h))

theorem closeCue_keeps (n w : Nat) (l : LayerIx) (h : Keeps a e) : KeepsOut a (closeCue n w l e) := by
  refine KeepsOut.ite (failed_keeps _ h) ?_
  split
  · exact KeepsOut.ite (closeBaseCue_keeps l _ n w h) (done_keeps (closeEarly_keeps l n h))
  · exact done_keeps (closeEarly_keeps l n h)

theorem overdubCue_keeps (lane : LaneIx) (level fb n : Nat) (l : LayerIx) (h : Keeps a e) :
    KeepsOut a (overdubCue lane level fb n l e) := by
  unfold overdubCue
  extract_lets r need own e1
  refine KeepsOut.ite (failed_keeps _ h) (KeepsOut.ite (failed_keeps _ h) (KeepsOut.ite (failed_keeps _ h) ?_))
  split
  · exact failed_keeps _ h
  · have h1 : Keeps a e1 := reclaimWalk_keeps need own (some l) e.mem.age h
    exact KeepsOut.ite (failed_keeps _ h1) (done_keeps (startOverdub_keeps _ l lane level fb n h1))

theorem clearLayer_keeps (n : Nat) (l : LayerIx) (h : Keeps a e) : Keeps a (clearLayer n l e) := by
  unfold clearLayer
  extract_lets e1 e2
  have h1 : Keeps a e1 := Keeps.ite h (emptyLayer_keeps l _ n h)
  have h2 : Keeps a e2 := Keeps.ite (leaveBase_keeps h1) h1
  exact Keeps.ite (returnToUnset_keeps h2) h2

theorem pauseLayer_keeps (n : Nat) (l : LayerIx) (h : Keeps a e) : Keeps a (pauseLayer n l e) := by
  unfold pauseLayer
  split
  · exact finishOverdub_keeps l n h
  · exact closeEarly_keeps l n h
  · exact h

theorem pauseCue_keeps (n w : Nat) (h : Keeps a e) : KeepsOut a (pauseCue n w e) := by
  unfold pauseCue
  split
  · exact done_keeps (enterPaused_keeps (eachLayer_induct (fun l _ h => pauseLayer_keeps n l h) h))
  · split
    next l count _ =>
      have h1 := closeBaseCue_keeps l count n w h
      split
      next hc => rw [hc] at h1; exact done_keeps (enterPaused_keeps h1)
      · exact h1
    · exact failed_keeps _ h
  · exact failed_keeps _ h

theorem clearAllLayer_keeps (n : Nat) (l : LayerIx) (h : Keeps a e) : Keeps a (clearAllLayer n l e) :=
  Keeps.ite h (Keeps.ite (setLayerState_keeps _ _ _ _ (releaseLayer_keeps l h)) (emptyLayer_keeps l _ n h))

theorem clearAllCue_keeps (n : Nat) (h : Keeps a e) : KeepsOut a (clearAllCue n e) := by
  have h1 : Keeps a (eachLayer (clearAllLayer n) e) := eachLayer_induct (fun l _ h => clearAllLayer_keeps n l h) h
  refine KeepsOut.ite (failed_keeps _ h) ?_
  dsimp only
  split
  · exact done_keeps (leaveBase_keeps h1)
  · exact done_keeps (returnToUnset_keeps h1)
  · exact done_keeps (returnToUnset_keeps h1)
  · exact done_keeps h1

theorem actOn_keeps (c : Cue) (h : Keeps a e) : KeepsOut a (actOn c e) := by
  unfold actOn
  split
  · exact recordCue_keeps _ _ _ _ h
  · exact closeCue_keeps _ _ _ h
  · exact overdubCue_keeps _ _ _ _ _ h
  · exact KeepsOut.ite (done_keeps (finishOverdub_keeps _ _ h)) (failed_keeps _ h)
  · exact KeepsOut.ite (done_keeps (playLayer_keeps _ _ h)) (failed_keeps _ h)
  · exact KeepsOut.ite (done_keeps (stopLayer_keeps _ _ h)) (failed_keeps _ h)
  · exact KeepsOut.ite (failed_keeps _ h) (done_keeps { h with })
  · exact KeepsOut.ite (failed_keeps _ h) (done_keeps { h with })
  · exact KeepsOut.ite (failed_keeps _ h) (KeepsOut.ite (failed_keeps _ h) (done_keeps (undoLayer_keeps _ h)))
  · exact KeepsOut.ite (failed_keeps _ h) (KeepsOut.ite (failed_keeps _ h) (done_keeps { h with }))
  · exact KeepsOut.ite (failed_keeps _ h) (done_keeps (clearLayer_keeps _ _ h))
  · exact done_keeps (eachLayer_induct (fun l _ h => Keeps.ite (stopLayer_keeps l _ h) h) h)
  · exact done_keeps (eachLayer_induct (fun l _ h => Keeps.ite (playLayer_keeps l _ h) h) h)
  · exact pauseCue_keeps _ _ h
  · exact KeepsOut.ite (done_keeps { h with }) (failed_keeps _ h)
  · exact clearAllCue_keeps _ h
  · exact failed_keeps _ h

theorem disarmFor_keeps (c : Cue) (h : Keeps a e) : Keeps a (disarmFor c e) := by
  unfold disarmFor
  split
  · exact disarm_keeps _ _ h
  · exact h

theorem reportCue_keeps (c : Cue) (k : Nat) {out : Outcome} (h : KeepsOut a out) : Keeps a (reportCue c k out) := by
  unfold reportCue
  split
  · exact grantHolds_keeps (post_keeps _ h)
  · exact grantHolds_keeps (disarmFor_keeps c (post_keeps _ h))

theorem executeCue_keeps (c : Cue) (h : Keeps a e) : Keeps a (executeCue c e) := by
  have h1 := removeCue_keeps c.number h
  unfold executeCue
  dsimp only
  split
  · exact reportCue_keeps c _ (actOn_keeps c h1)
  · exact Keeps.ite (reportCue_keeps c _ (actOn_keeps c h1))
      (Keeps.ite (deferCue_keeps _ h) (reportCue_keeps c _ (failed_keeps _ h1)))

theorem runDue_keeps (want : Action → Bool) (h : Keeps a e) : Keeps a (runDue want e) := by
  unfold runDue
  split
  · exact Keeps.ite (executeCue_keeps _ h) h
  · exact h

theorem runCues_keeps : ∀ (fuel : Nat) {e : Engine}, Keeps a e → Keeps a (runCues fuel e)
  | 0, _, h => h
  | fuel + 1, _, h => by
    unfold runCues
    split
    · exact runCues_keeps fuel (executeCue_keeps _ h)
    · exact h

theorem settleCues_keeps (h : Keeps a e) : Keeps a (settleCues e) := coast_keeps (runCues_keeps 24 (autoClose_keeps h))

theorem cueCancel_keeps (b : List Byte) (h : Keeps a e) : Keeps a (cueCancel b e).1 := by
  unfold cueCancel
  split
  · exact h
  · split
    · exact h
    · dsimp only
      exact grantHolds_keeps (disarmFor_keeps _ (removeCue_keeps _ h))

/-! ## Commands that neither accept a cue nor start a transfer -/

/-- The command keeps order, whatever its payload. -/
def KeepsCommand (cmd : List Byte → Engine → Engine × Answer) : Prop := ∀ b e, Keeps e (cmd b e).1

theorem portSet_keeps : KeepsCommand portSet := by
  intro b e
  unfold portSet
  split
  · exact .refl e
  · split
    · exact enablePort_keeps _ _ { Keeps.refl e with }
    · exact .refl e

theorem laneSet_keeps : KeepsCommand laneSet := by
  intro b e
  unfold laneSet
  split
  · exact .refl e
  · split
    · exact { Keeps.refl e with }
    · exact .refl e

theorem clockSet_keeps : KeepsCommand clockSet := by
  intro b e
  have h := Keeps.refl e
  unfold clockSet
  split
  · exact h
  · extract_lets rate e1
    split
    · exact h
    next src _ =>
      split
      · exact h
      · split
        · exact h
        · split
          · exact h
          · extract_lets e2
            have h1 : Keeps e e1 := Keeps.ite h (beginRelock_keeps rate h)
            have h2 : Keeps e e2 := Keeps.ite h1 (selectSource_keeps src h1)
            exact Keeps.ite h2 (settleCues_keeps h2)

theorem gridSet_keeps : KeepsCommand gridSet := by
  intro b e
  unfold gridSet
  split
  · exact .refl e
  · exact { Keeps.refl e with }

theorem layerMix_keeps : KeepsCommand layerMix := by
  intro b e
  unfold layerMix
  split
  · exact .refl e
  · split
    · exact .refl e
    · exact { Keeps.refl e with }

theorem liveMix_keeps : KeepsCommand liveMix := by
  intro b e
  unfold liveMix
  split
  · exact .refl e
  · split
    · exact { Keeps.refl e with }
    · exact .refl e

theorem masterSet_keeps : KeepsCommand masterSet := by
  intro b e
  unfold masterSet
  split
  · exact .refl e
  · exact { Keeps.refl e with }

theorem fadeSet_keeps : KeepsCommand fadeSet := by
  intro b e
  unfold fadeSet
  split
  · exact .refl e
  · exact { Keeps.refl e with }

theorem pedalMap_keeps : KeepsCommand pedalMap := by
  intro b e
  unfold pedalMap
  split
  · exact .refl e
  · split
    · exact .refl e
    · split
      · split
        · exact .refl e
        · exact { Keeps.refl e with }
      · exact .refl e

theorem pedalUnmap_keeps : KeepsCommand pedalUnmap := by
  intro b e
  unfold pedalUnmap
  split
  · exact .refl e
  · split
    · exact .refl e
    · split
      · exact .refl e
      · exact { Keeps.refl e with }

theorem eventMask_keeps : KeepsCommand Machine.eventMask := by
  intro b e
  unfold Machine.eventMask
  split
  · exact { Keeps.refl e with }
  · split <;> exact .refl e

theorem createCycle_keeps (len : Nat) (h : Keeps a e) : Keeps a (createCycle len e) := by
  unfold createCycle
  extract_lets e1 cyc e2
  have h1 : Keeps a e1 := noteGrid_keeps (startCycle_keeps len h)
  have h2 : Keeps a e2 := Keeps.ite (bareBoundary_keeps 0 h1) { h1 with }
  exact post_keeps _ h2

theorem cycleSet_keeps : KeepsCommand cycleSet := by
  intro b e
  unfold cycleSet
  split
  · exact .refl e
  · split
    · exact .refl e
    · exact createCycle_keeps _ (.refl e)

theorem tap_keeps : KeepsCommand tap := by
  intro b e
  unfold tap
  split
  · exact .refl e
  · split
    · exact handOnset_keeps _ (.refl e)
    · exact { Keeps.refl e with }

theorem holdBlock_keeps (n : Nat) (h : Keeps a e) : Keeps a (holdBlock n e) := by
  refine Keeps.ite (holdFollower_keeps h) ?_
  split
  · exact holdPort_keeps _ h
  · exact { h with }

theorem releaseBlock_keeps (n : Nat) (h : Keeps a e) : Keeps a (releaseBlock n e) := by
  refine Keeps.ite (releaseFollower_keeps h) ?_
  split
  · exact releasePort_keeps _ h
  · exact releasePedals_keeps h

theorem blockCommand_keeps {act : Nat → Engine → Engine} (hact : ∀ n e, Keeps e (act n e)) :
    KeepsCommand (blockCommand act) := by
  intro b e
  unfold blockCommand
  split
  · exact .refl e
  · dsimp only
    split
    · exact .refl e
    · exact hact _ e

theorem laneQuery_keeps : KeepsCommand laneQuery := by
  intro b e
  unfold laneQuery
  split
  · exact .refl e
  · split
    · exact .refl e
    · exact { Keeps.refl e with }

theorem layerQuery_keeps : KeepsCommand layerQuery := by
  intro b e
  unfold layerQuery
  split
  · exact .refl e
  · split <;> exact .refl e

theorem cycleQuery_keeps : KeepsCommand cycleQuery := by
  intro b e
  unfold cycleQuery
  split <;> exact .refl e

theorem memoryQuery_keeps : KeepsCommand memoryQuery := by
  intro b e
  unfold memoryQuery
  split <;> exact .refl e

theorem holdLayer_keeps (l : LayerIx) (n : Nat) (h : Keeps a e) : Keeps a (holdLayer l n e).1 := by
  unfold holdLayer
  split
  · exact { h with xfer := (Option.isSome_map).trans h.xfer }
  · exact h
  · split
    · exact importLayer_keeps l n h
    · split <;> exact { h with }

theorem layerHold_keeps : KeepsCommand layerHold := by
  intro b e
  unfold layerHold
  split
  · exact .refl e
  · split
    · exact .refl e
    · exact holdLayer_keeps _ _ (.refl e)

theorem layerRelease_keeps : KeepsCommand layerRelease := by
  intro b e
  have h := Keeps.refl e
  unfold layerRelease
  split
  · exact h
  · split
    · exact h
    · split
      · exact h
      · exact { h with }
      · exact Keeps.ite { h with xfer := (Option.isSome_map).trans h.xfer } { h with }

theorem followSet_keepsCommand : KeepsCommand followSet := fun b e => followSet_keeps b (.refl e)

theorem cueCancel_keepsCommand : KeepsCommand cueCancel := fun b e => cueCancel_keeps b (.refl e)

theorem configCommand_keeps (kind : Nat) : KeepsCommand (configCommand kind) := by
  intro b e
  unfold configCommand
  split
  · exact portSet_keeps b e
  · exact laneSet_keeps b e
  · exact clockSet_keeps b e
  · exact gridSet_keeps b e
  · exact followSet_keepsCommand b e
  · exact layerMix_keeps b e
  · exact liveMix_keeps b e
  · exact masterSet_keeps b e
  · exact fadeSet_keeps b e
  · exact pedalMap_keeps b e
  · exact pedalUnmap_keeps b e
  · exact eventMask_keeps b e
  · exact cycleSet_keeps b e
  · exact blockCommand_keeps (fun n e => holdBlock_keeps n (.refl e)) b e
  · exact blockCommand_keeps (fun n e => releaseBlock_keeps n (.refl e)) b e
  · exact .refl e

theorem runEmbedded_keeps : ∀ (i : Nat) (msgs : List (Byte × List Byte)) {e : Engine}, Keeps a e →
    Keeps a (runEmbedded i msgs e).1
  | _, [], _, h => h
  | i, (kind, payload) :: rest, e, h => by
    have h1 := h.trans (configCommand_keeps kind.toNat payload e)
    unfold runEmbedded
    dsimp only
    split
    · exact runEmbedded_keeps (i + 1) rest h1
    · exact h1

theorem applySetup_keeps (cells : List Host.Cell) (k0 k1 : Byte) (h : Keeps a e) :
    Keeps a (applySetup cells k0 k1 e).1 := by
  unfold applySetup
  split
  · exact h
  · exact h
  · split
    · exact h
    · exact runEmbedded_keeps _ _ h

theorem storeApply_keeps (st : Store) : KeepsCommand fun b e => storeApply b st e := by
  intro b e
  dsimp only
  unfold storeApply
  split
  · split
    · exact .refl e
    · exact applySetup_keeps _ _ _ (.refl e)
  · exact .refl e

theorem bootApply_keeps (cells : List Host.Cell) (h : Keeps a e) : Keeps a (bootApply cells e) := by
  have h1 : Keeps a (post (.ready (applySetup cells 0x42 0x53 e).2.1 (applySetup cells 0x42 0x53 e).2.2)
    (applySetup cells 0x42 0x53 e).1) := post_keeps _ (applySetup_keeps cells _ _ h)
  exact { h1 with }

/-! ## The frame -/

theorem settleClock_keeps (h : Keeps a e) : Keeps a (settleClock e) := by
  unfold settleClock
  extract_lets e1
  have h1 : Keeps a e1 := coast_keeps (Keeps.ite { h with } h)
  exact Keeps.ite (endCrossfade_keeps h1) h1

theorem settleSlot_keeps (s : SlotIx) (h : Keeps a e) : Keeps a (settleSlot s e) :=
  Keeps.ite (completeFixed_keeps s h) (commitSlot_keeps s h)

theorem settleVoice_keeps (l : LayerIx) (h : Keeps a e) : Keeps a (settleVoice l e) := by
  unfold settleVoice
  extract_lets e1
  have h1 : Keeps a e1 := Keeps.ite (recoverFrame_keeps l h) h
  clear_value e1
  exact Keeps.ite { h1 with } h1

theorem settleFade_keeps (l : LayerIx) (h : Keeps a e) : Keeps a (settleFade l e) := by
  unfold settleFade
  extract_lets e1
  have h1 : Keeps a e1 := Keeps.ite { h with } h
  exact Keeps.ite (clearFadeDone_keeps l h1) h1

theorem settleSplice_keeps (h : Keeps a e) : Keeps a (settleSplice e) := by
  unfold settleSplice
  extract_lets e1
  have h1 : Keeps a e1 := arbitrate_keeps (alignStreams_keeps h)
  exact Keeps.ite (abandonSplice_keeps _ h1) h1

/-- What is due on the frame that ends, once its cues and its grant are settled. -/
theorem settleUnits_keeps (h : Keeps a e) :
    Keeps a (let e1 := eachLayer settleFade (eachSlot settleSlot (eachLayer settleVoice e))
      settleSplice (clipWindowEnd (reportClip (samplingEvent e1.ped.pins e1)))) := by
  have h1 : Keeps a (eachLayer settleFade (eachSlot settleSlot (eachLayer settleVoice e))) :=
    eachLayer_induct (fun l _ h => settleFade_keeps l h) (eachSlot_induct (fun s _ h => settleSlot_keeps s h)
      (eachLayer_induct (fun l _ h => settleVoice_keeps l h) h))
  exact settleSplice_keeps (clipWindowEnd_keeps (reportClip_keeps (samplingEvent_keeps _ h1)))

theorem cycleFrame_keeps (jump : Bool) (h : Keeps a e) : Keeps a (cycleFrame jump e) :=
  Keeps.ite (bareBoundary_keeps 0 { h with }) (Keeps.ite (advanceCycle_keeps jump h) h)

theorem openFrame_keeps (h : Keeps a e) : Keeps a (openFrame e) := by
  have h1 : Keeps a (takeP0 (latchTargets e)) := by
    refine takeP0_keeps ?_
    have h0 : Keeps a (eachLayer (fun l e => modVoice l (fun v => { v with target := voiceTarget e l }) e) e) :=
      eachLayer_induct (fun _ _ h => { h with }) h
    exact { h0 with }
  exact { h1 with }

theorem hearOnset_keeps (l : LaneIx) (e : Engine) {d : Engine} (h : Keeps a d) : Keeps a (hearOnset l e d) :=
  { handOnset_keeps .detector h with }

theorem frameOnsets_keeps (h : Keeps a e) : Keeps a (frameOnsets e) := by
  unfold frameOnsets
  extract_lets cyc e1 d
  have h1 : Keeps a e1 := handTaps_keeps _ { h with }
  have hd : Keeps a d.1 := detect_keeps h1
  split
  · exact Keeps.ite (hearOnset_keeps _ _ hd) hd
  · exact hd

theorem frameAudio_keeps (adv : Nat) (h : Keeps a e) : Keeps a (frameAudio adv e) := by
  have h1 : Keeps a (eachQuad runLane (eachQuad removeFrame e)) :=
    eachQuad_induct (fun _ _ h => { h with }) (eachQuad_induct (fun p _ h => removeFrame_keeps p h) h)
  exact mixFrame_keeps (eachLayer_induct (fun l _ h => runVoice_keeps adv l h)
    (eachSlot_induct (fun _ _ h => { h with }) h1))

theorem runFrame_keeps (h : Keeps a e) : Keeps a (runFrame e) := by
  unfold runFrame
  extract_lets adv e1
  have h1 : Keeps a e1 :=
    countCues_keeps .frame 0 (noteGrid_keeps (cycleFrame_keeps (readyToJump e) (openFrame_keeps h)))
  clear_value e1
  exact frameOnsets_keeps (tickGrant_keeps (tickSampling_keeps (frameAudio_keeps adv h1)))

end Sys2Proof.Machine
end

section
/-! Order (R61, R62, R178, R181), concluded: the cue queue through CUE, the transfers, the link and the store, and the
step. -/

set_option Elab.async false

namespace Sys2Proof.Machine

/-! ## The next cue number is free (R62) -/

theorem succNumber_iterate {n : Nat} (h1 : 1 ≤ n) (h2 : n ≤ 65535) :
    ∀ i, succNumber^[i] n = (n - 1 + i) % 65535 + 1
  | 0 => by simp only [Function.iterate_zero, id]; omega
  | i + 1 => by
    rw [Function.iterate_succ_apply', succNumber_iterate h1 h2 i, succNumber]
    split <;> omega

theorem freeNumber_mem {pending : List Nat} : ∀ {fuel n : Nat}, freeNumber pending fuel n ∈ pending →
    ∀ i ≤ fuel, succNumber^[i] n ∈ pending
  | 0, n, h, i, hi => by
    obtain rfl : i = 0 := by omega
    exact h
  | fuel + 1, n, h, i, hi => by
    unfold freeNumber at h
    split at h
    next hn =>
      cases i with
      | zero => exact hn
      | succ i => exact freeNumber_mem h i (by omega)
    next hn => exact absurd h hn

/-- Thirteen numbers in turn are not all taken by twelve cues. -/
theorem freeNumber_free {pending : List Nat} (h : pending.length ≤ 12) (n : Nat) :
    freeNumber pending 13 (succNumber n) ∉ pending := by
  intro hmem
  have hlow : 1 ≤ succNumber n := by unfold succNumber; split <;> omega
  have hhigh : succNumber n ≤ 65535 := by unfold succNumber; split <;> omega
  have hnodup : ((List.range 13).map fun i => succNumber^[i] (succNumber n)).Nodup := by
    refine List.Nodup.map_on (fun i hi j hj hij => ?_) List.nodup_range
    rw [succNumber_iterate hlow hhigh, succNumber_iterate hlow hhigh] at hij
    simp only [List.mem_range] at hi hj
    omega
  have hsub : ((List.range 13).map fun i => succNumber^[i] (succNumber n)) ⊆ pending := by
    intro m hm
    obtain ⟨i, hi, rfl⟩ := List.mem_map.mp hm
    exact freeNumber_mem hmem i (by simp only [List.mem_range] at hi; omega)
  have := (hnodup.subperm hsub).length_le
  simp only [List.length_map, List.length_range] at this
  omega

/-! ## An orderly engine -/

/-- The engine's part of the orderly state. -/
structure Engine.Ordered (e : Engine) : Prop where
  cells : cellsWf e.mem.cells = true
  reports : e.evq.list.length ≤ Config.maxReports
  few : e.cues.list.length ≤ Config.maxCues
  numbers : (e.cues.list.map Cue.number).Nodup
  next : e.cues.nextNumber ∉ e.cues.list.map Cue.number
  targets : (e.cues.list.map Cue.target).Nodup

theorem names_number (cs : List Cue) : (cs.map Cue.name).map Prod.fst = cs.map Cue.number := by
  simp [Function.comp_def, Cue.name]

theorem names_target (cs : List Cue) : (cs.map Cue.name).map Prod.snd = cs.map Cue.target := by
  simp [Function.comp_def, Cue.name]

theorem Keeps.numbers {a t : Engine} (h : Keeps a t) :
    List.Sublist (t.cues.list.map Cue.number) (a.cues.list.map Cue.number) := by
  rw [← names_number, ← names_number]
  exact h.cues.map _

theorem Keeps.targets {a t : Engine} (h : Keeps a t) :
    List.Sublist (t.cues.list.map Cue.target) (a.cues.list.map Cue.target) := by
  rw [← names_target, ← names_target]
  exact h.cues.map _

theorem Keeps.ordered {a t : Engine} (h : Keeps a t) (ha : a.Ordered) : t.Ordered where
  cells := h.cells ha.cells
  reports := h.reports ha.reports
  few := by simpa using h.cues.length_le.trans (by simpa using ha.few)
  numbers := ha.numbers.sublist h.numbers
  next := fun hn => ha.next (h.next ▸ h.numbers.subset hn)
  targets := ha.targets.sublist h.targets

/-! ## CUE (R62) -/

theorem supersede_keeps (n : Nat) (c : Cue) (e : Engine) : Keeps (removeCue c.number e) (supersede n c e) :=
  disarmFor_keeps c (post_keeps _ (.refl _))

theorem removeCue_number (n : Nat) (e : Engine) : n ∉ (removeCue n e).cues.list.map Cue.number := by
  simp [removeCue]

/-- The cues superseded leave the queue. -/
theorem superseded_leave (n : Nat) : ∀ (cs : List Cue) (e : Engine),
    Keeps e (cs.foldl (fun e c => supersede n c e) e) ∧
      ∀ c ∈ cs, c.number ∉ (cs.foldl (fun e c => supersede n c e) e).cues.list.map Cue.number
  | [], e => ⟨.refl e, by simp⟩
  | c :: cs, e => by
    obtain ⟨hk, hgone⟩ := superseded_leave n cs (supersede n c e)
    have hsup : Keeps (removeCue c.number e) (supersede n c e) := supersede_keeps n c e
    refine ⟨(removeCue_keeps c.number (.refl e)).trans (hsup.trans hk), fun d hd => ?_⟩
    rcases List.mem_cons.mp hd with rfl | hd
    · exact fun hin => removeCue_number d.number e ((hsup.trans hk).numbers.subset hin)
    · exact hgone d hd

theorem armFor_keeps (k : CueAsk) (n : Nat) {a e : Engine} (h : Keeps a e) : Keeps a (armFor k n e) := by
  unfold armFor
  split
  · exact Keeps.ite (setLayerState_keeps _ _ _ _ h) h
  · exact h

/-- A cue joins a queue in which it has room, and its target no cue. -/
theorem appendCue_ordered {e : Engine} (k : CueAsk) (h : e.Ordered) (hroom : e.cues.list.length < Config.maxCues)
    (htarget : k.target ∉ e.cues.list.map Cue.target) : (appendCue k e.cues.nextNumber e).Ordered where
  cells := h.cells
  reports := h.reports
  few := by
    show (e.cues.list ++ [_]).length ≤ Config.maxCues
    rw [List.length_append]
    exact hroom
  numbers := by
    simpa [appendCue, List.nodup_append] using ⟨h.numbers, fun c hc hn => h.next (hn ▸ List.mem_map_of_mem hc)⟩
  next := by
    refine freeNumber_free ?_ _
    show ((e.cues.list ++ [_]).map Cue.number).length ≤ Config.maxCues
    rw [List.length_map, List.length_append]
    exact hroom
  targets := by
    simpa [appendCue, List.nodup_append] using ⟨h.targets, fun c hc hn => htarget (hn ▸ List.mem_map_of_mem hc)⟩

/-- A cue of the target left in the queue would be one of those superseded. -/
theorem superseded_target {e t : Engine} {k : CueAsk} (hk : Keeps e t)
    (hgone : ∀ c ∈ superseded k e, c.number ∉ t.cues.list.map Cue.number) :
    k.target ∉ t.cues.list.map Cue.target := by
  intro htarget
  obtain ⟨c, hc, hct⟩ := List.mem_map.mp htarget
  obtain ⟨d, hd, hname⟩ := List.mem_map.mp (hk.cues.subset (List.mem_map_of_mem hc))
  obtain ⟨hnumber, hdt⟩ := Prod.mk.inj hname
  have hmem : d ∈ superseded k e := by
    unfold superseded
    split
    · exact hd
    · exact List.mem_filter.mpr ⟨hd, by simp [hdt, hct]⟩
  exact hgone d hmem (hnumber ▸ List.mem_map_of_mem hc)

theorem acceptCue_ordered {e : Engine} (k : CueAsk) (h : e.Ordered) (hroom : e.cues.list.length < Config.maxCues) :
    (acceptCue k e).1.Ordered ∧ (acceptCue k e).1.xfer.isSome = e.xfer.isSome := by
  obtain ⟨hk, hgone⟩ := superseded_leave e.cues.nextNumber (superseded k e) e
  unfold acceptCue
  extract_lets number replaced e1 e2
  have hk1 : Keeps e e1 := hk
  have hlen : e1.cues.list.length < Config.maxCues := by
    simpa using Nat.lt_of_le_of_lt hk1.cues.length_le (by simpa using hroom)
  have happ : (appendCue k number e1).Ordered := by
    have := appendCue_ordered k (hk1.ordered h) hlen (superseded_target hk1 hgone)
    rwa [hk1.next] at this
  have h2 : Keeps (appendCue k number e1) e2 := grantHolds_keeps (armFor_keeps k number (.refl _))
  clear_value e2
  dsimp only
  exact ⟨h2.ordered happ, h2.xfer.trans hk1.xfer⟩

/-! ## What a command leaves -/

/-- A command at once answered leaves the engine orderly, and in flight what was. -/
def OrderlyCommand (cmd : List Byte → Engine → Engine × Answer) : Prop :=
  ∀ b e, e.Ordered → (cmd b e).1.Ordered ∧ (cmd b e).1.xfer.isSome = e.xfer.isSome

theorem KeepsCommand.orderly {cmd : List Byte → Engine → Engine × Answer} (h : KeepsCommand cmd) :
    OrderlyCommand cmd := fun b e he => ⟨(h b e).ordered he, (h b e).xfer⟩

theorem cueCommand_orderly : OrderlyCommand cueCommand := by
  intro b e h
  unfold cueCommand
  split
  · exact ⟨h, rfl⟩
  · split
    · exact ⟨h, rfl⟩
    · split
      · exact ⟨h, rfl⟩
      · split
        · exact ⟨h, rfl⟩
        · split
          · exact ⟨h, rfl⟩
          · exact acceptCue_ordered _ h (by omega)

/-- A command that may be in flight: refused, it changes nothing; started, it is the transfer in flight. -/
def StartsTransfer (out : Engine × Option Answer) (e : Engine) : Prop :=
  (out.1 = e ∧ out.2.isSome = true) ∨ (∃ t, out.1 = { e with xfer := some t }) ∧ e.xfer = none ∧ out.2 = none

theorem startTransfer_starts (t : Transfer) (e : Engine) : StartsTransfer (startTransfer t e) e := by
  unfold startTransfer
  split
  · exact .inl ⟨rfl, rfl⟩
  · split
    · exact .inl ⟨rfl, rfl⟩
    · split
      · exact .inl ⟨rfl, rfl⟩
      · exact .inr ⟨⟨t, rfl⟩, by simp_all, rfl⟩

theorem audioRead_starts (tag : Byte) (b : List Byte) (e : Engine) : StartsTransfer (audioRead tag b e) e := by
  unfold audioRead
  split
  · exact .inl ⟨rfl, rfl⟩
  · extract_lets count
    split
    · exact .inl ⟨rfl, rfl⟩
    · split
      · exact .inl ⟨rfl, rfl⟩
      · exact startTransfer_starts _ e

theorem audioWrite_starts (tag : Byte) (b : List Byte) (e : Engine) : StartsTransfer (audioWrite tag b e) e := by
  unfold audioWrite
  split
  · exact .inl ⟨rfl, rfl⟩
  · split
    · exact .inl ⟨rfl, rfl⟩
    · exact startTransfer_starts _ e

/-! ## An orderly state -/

/-- The state with power is orderly but for `taken` commands that have left the inbound queue and are neither in flight nor
answered. -/
structure State.Orderly (taken : Nat) (s : State) : Prop where
  powered : s.powered = true
  eng : s.eng.Ordered
  store : cellsWf s.store.cells = true
  account : s.link.unanswered = s.link.inbound.length + s.link.replies.length + s.inFlight + taken
  bound : s.link.unanswered ≤ Config.maxUnanswered

theorem State.orderly_iff {s : State} (hp : s.powered = true) : s.orderly = true ↔ s.Orderly 0 := by
  simp only [State.orderly, State.linkSound, CueQueue.distinct, hp, if_true, Bool.and_eq_true, decide_eq_true_eq]
  constructor
  · rintro ⟨⟨⟨⟨⟨hc, hs⟩, hr⟩, hf⟩, ⟨hn, hx⟩, ht⟩, ha, hb⟩
    exact ⟨hp, ⟨hc, hr, hf, hn, hx, ht⟩, hs, ha, hb⟩
  · rintro ⟨_, ⟨hc, hr, hf, hn, hx, ht⟩, hs, ha, hb⟩
    exact ⟨⟨⟨⟨⟨hc, hs⟩, hr⟩, hf⟩, ⟨hn, hx⟩, ht⟩, ha, hb⟩

variable {s : State} {n : Nat}

theorem State.Orderly.give (h : s.Orderly n) {e : Engine} (he : e.Ordered) (hx : e.xfer.isSome = s.eng.xfer.isSome) :
    State.Orderly n { s with eng := e } :=
  { h with eng := he, account := by rw [h.account]; simp only [State.inFlight, hx] }

theorem State.Orderly.onEng (h : s.Orderly n) {f : Engine → Engine} (hf : ∀ e, Keeps e (f e)) :
    (s.onEng f).Orderly n :=
  h.give ((hf s.eng).ordered h.eng) (hf s.eng).xfer

theorem State.Orderly.reply (h : s.Orderly (n + 1)) (kind tag : Byte) (a : Answer) : (s.reply kind tag a).Orderly n where
  powered := h.powered
  eng := h.eng
  store := h.store
  account := by
    have hacc := h.account
    have hin : (s.reply kind tag a).inFlight = s.inFlight := rfl
    rw [hin]
    simp only [State.reply, queueReply, List.length_append, List.length_singleton]
    omega
  bound := h.bound

/-! ## The link (R175 to R179) -/

theorem offer_orderly (m : Message) (h : s.Orderly n) : (s.offer m).Orderly n := by
  unfold State.offer
  split
  next hroom =>
    exact { h with
      account := by
        have := h.account
        simp only [State.inFlight, List.length_append, List.length_singleton] at this ⊢
        omega
      bound := hroom }
  · exact { h with }

theorem collected_orderly (h : s.Orderly n) : s.collected.Orderly n := by
  have hacc := h.account
  have hb := h.bound
  unfold State.collected
  split
  next r rest hr =>
    rw [hr, List.length_cons] at hacc
    exact { h with
      account := by simp only [State.inFlight] at hacc ⊢; omega
      bound := by dsimp only; omega }
  next ev rest _ hev =>
    have hreports := h.eng.reports
    rw [hev, List.length_cons] at hreports
    exact { h with eng := { h.eng with reports := by dsimp only; omega } }
  · exact h

theorem read_orderly (k : Nat) (h : s.Orderly n) : (s.read k).Orderly n := by
  unfold State.read
  extract_lets m sent
  split
  · exact { collected_orderly h with }
  · exact { h with }

theorem message_orderly (kind tag : Byte) (payload : List Byte) (h : s.Orderly n) :
    (s.message kind tag payload).Orderly n := by
  unfold State.message
  split
  · exact read_orderly _ h
  · exact { offer_orderly _ h with }

theorem transaction_orderly (sent : List Byte) (h : s.Orderly n) : (s.transaction sent).Orderly n := by
  unfold State.transaction
  split
  · exact { h with }
  · split
    · split
      · exact read_orderly _ h
      · exact message_orderly _ _ _ h
    · exact h

theorem take_orderly (want : Byte → Bool) {f : Message → State → State}
    (hf : ∀ m t, State.Orderly 1 t → State.Orderly 0 (f m t)) (h : s.Orderly 0) : (s.take want f).Orderly 0 := by
  unfold State.take
  split
  · exact h
  next m rest hin =>
    split
    · refine hf m _ { h with account := ?_ }
      have := h.account
      rw [hin, List.length_cons] at this
      simp only [State.inFlight] at this ⊢
      omega
    · exact h

theorem answerWith_orderly {cmd : List Byte → Engine → Engine × Answer} (hc : OrderlyCommand cmd) (m : Message)
    (h : s.Orderly (n + 1)) : (answerWith cmd m s).Orderly n := by
  unfold answerWith
  split
  · exact h.reply _ _ _
  · obtain ⟨he, hx⟩ := hc m.payload s.eng h.eng
    exact (h.give he hx).reply _ _ _

theorem startWith_orderly {cmd : Byte → List Byte → Engine → Engine × Option Answer}
    (hc : ∀ tag b e, StartsTransfer (cmd tag b e) e) (m : Message) (h : s.Orderly 1) :
    (startWith cmd m s).Orderly 0 := by
  unfold startWith
  split
  · exact h.reply _ _ _
  · dsimp only
    obtain ⟨hsame, ha⟩ | ⟨⟨t, ht⟩, hidle, hnone⟩ := hc m.tag m.payload s.eng
    · obtain ⟨a, ha⟩ := Option.isSome_iff_exists.mp ha
      simp only [ha, hsame]
      exact h.reply _ _ _
    · simp only [hnone, ht]
      refine { h with eng := { h.eng with }, account := ?_ }
      have := h.account
      simp only [State.inFlight, hidle, Option.isSome_none, Option.isSome_some] at this ⊢
      simp only [Bool.false_eq_true, if_false, if_true] at this ⊢
      omega

/-! ## The store (R189 to R192) -/

theorem programWord_job (st : Store) : (programWord st).job.isSome = st.job.isSome := by
  unfold programWord
  split
  next j hj =>
    split
    · simp [hj]
    · rfl
  · rfl

theorem finishInterrupted_job (b : Bool) (st : Store) : (finishInterrupted b st).job = st.job := by
  unfold finishInterrupted
  split <;> rfl

/-- STORE_WRITE refused changes nothing; started, it is the write in flight. -/
theorem storeWrite_cases (tag : Byte) (b : List Byte) (st : Store) :
    (∃ a, storeWrite tag b st = (st, some a)) ∨
      st.job = none ∧ ∃ j, storeWrite tag b st = ({ st with job := some j }, none) := by
  unfold storeWrite
  extract_lets off data
  split
  · exact .inl ⟨_, rfl⟩
  · split
    · exact .inl ⟨_, rfl⟩
    · split
      · exact .inl ⟨_, rfl⟩
      · split
        · exact .inl ⟨_, rfl⟩
        · exact .inr ⟨by simp_all, _, rfl⟩

theorem storeWriteWith_orderly (m : Message) (h : s.Orderly 1) : (storeWriteWith m s).Orderly 0 := by
  unfold storeWriteWith
  split
  · exact h.reply _ _ _
  · obtain ⟨a, ha⟩ | ⟨hidle, j, hj⟩ := storeWrite_cases m.tag m.payload s.store
    · simp only [ha]
      exact h.reply _ _ _
    · simp only [hj]
      refine { h with account := ?_ }
      have := h.account
      simp only [State.inFlight, hidle, Option.isSome_none, Option.isSome_some] at this ⊢
      simp only [Bool.false_eq_true, if_false, if_true] at this ⊢
      omega

theorem storeApplyWith_orderly (m : Message) (h : s.Orderly 1) : (storeApplyWith m s).Orderly 0 :=
  answerWith_orderly (storeApply_keeps s.store).orderly m h

theorem finishWrite_orderly (h : s.Orderly 0) : s.finishWrite.Orderly 0 := by
  unfold State.finishWrite
  split
  next j hj =>
    split
    · have hdone : State.Orderly 1 { s with store := { s.store with job := none } } := by
        refine { h with account := ?_ }
        have := h.account
        simp only [State.inFlight, hj, Option.isSome_some, if_true, Option.isSome_none] at this ⊢
        simp only [Bool.false_eq_true, if_false] at this ⊢
        omega
      exact (hdone.reply _ _ _).onEng fun e => post_keeps _ (.refl e)
    · exact h
  · exact h

theorem wordComplete_orderly (h : s.Orderly 0) : s.wordComplete.Orderly 0 := by
  unfold State.wordComplete
  split
  · refine { h with store := finishInterrupted_wf _ _ h.store, account := ?_ }
    rw [h.account]
    simp only [State.inFlight, finishInterrupted_job]
  · extract_lets s1
    have h1 : s1.Orderly 0 := by
      refine { h with store := programWord_wf _ h.store, account := ?_ }
      rw [h.account]
      simp only [s1, State.inFlight, programWord_job]
    split
    · exact finishWrite_orderly h1
    · exact h1

/-! ## Reset and power (R185, R191, R193) -/

theorem resetWith_ordered {cells : List (Nat × Sample)} (h : cellsWf cells = true) (pins : Vector (BitVec 10) 4) :
    (Engine.resetWith cells pins).Ordered where
  cells := h
  reports := Nat.zero_le _
  few := Nat.zero_le _
  numbers := List.nodup_nil
  next := List.not_mem_nil
  targets := List.nodup_nil

theorem interruptJob_job (st : Store) : (interruptJob st).job = none := by
  unfold interruptJob
  split
  · rfl
  next h => exact h

theorem interruptJob_cells (st : Store) : (interruptJob st).cells = st.cells := by
  unfold interruptJob
  split <;> rfl

theorem resetEngine_orderly (m : Message) (h : s.Orderly 1) : (resetEngine m s).Orderly 0 := by
  unfold resetEngine
  split
  · exact h.reply _ _ _
  · refine State.Orderly.reply ?_ _ _ _
    exact
      { powered := h.powered
        eng := resetWith_ordered h.eng.cells _
        store := (interruptJob_cells s.store).symm ▸ h.store
        account := by simp [State.inFlight, interruptJob_job, Link.reset, Engine.resetWith]
        bound := (by decide : 1 ≤ Config.maxUnanswered) }

theorem gainPower_orderly (hs : cellsWf s.store.cells = true) (hj : s.store.job = none) : s.gainPower.Orderly 0 where
  powered := rfl
  eng := resetWith_ordered rfl _
  store := hs
  account := by simp [State.inFlight, State.gainPower, hj, Link.reset, Engine.resetWith]
  bound := Nat.zero_le _

theorem losePower_store (s : State) (h : cellsWf s.store.cells = true) :
    cellsWf s.losePower.store.cells = true ∧ s.losePower.store.job = none := by
  have hc : cellsWf (interruptJob s.store).cells = true := (interruptJob_cells s.store).symm ▸ h
  unfold State.losePower
  dsimp only
  split
  · exact ⟨finishInterrupted_wf _ _ hc, by rw [finishInterrupted_job, interruptJob_job]⟩
  · exact ⟨hc, interruptJob_job _⟩

theorem losePower_orderly (h : s.orderly = true) (hp : s.powered = true) : s.losePower.orderly = true := by
  have ho := (State.orderly_iff hp).mp h
  obtain ⟨hc, hj⟩ := losePower_store s ho.store
  have hoff : s.losePower.powered = false := by unfold State.losePower; dsimp only; split <;> rfl
  have heng : s.losePower.eng = s.eng := by unfold State.losePower; dsimp only; split <;> rfl
  simp only [State.orderly, CueQueue.distinct, hoff, heng, hc, hj, ho.eng.cells]
  simp [ho.eng.reports, ho.eng.few, ho.eng.numbers, ho.eng.targets, ho.eng.next]

/-! ## The frame -/

theorem settleGrant_orderly (h : s.Orderly 0) : (settleGrant s).Orderly 0 := by
  unfold settleGrant
  split
  · extract_lets out s1
    have hc : Completes s.eng out := completeGrant_completes s.eng
    split
    next r hr =>
      obtain ⟨hin, hk⟩ := hc.ended r hr
      have h1 : s1.Orderly 1 := by
        refine { h with eng := ?_, account := ?_ }
        · exact hk.ordered { h.eng with }
        · have hout : out.1.xfer.isSome = false := hk.xfer
          have := h.account
          simp only [s1, State.inFlight, hin, hout, if_true, Bool.false_eq_true, if_false] at this ⊢
          omega
      exact h1.reply _ _ _
    next hr => exact h.give ((hc.going hr).ordered h.eng) (hc.going hr).xfer
  · exact h

theorem settleBoot_orderly (h : s.Orderly 0) : (settleBoot s).Orderly 0 := by
  unfold settleBoot
  split
  · exact h.onEng fun e => bootApply_keeps _ (.refl e)
  · exact h

theorem settlePorts_orderly (h : s.Orderly 0) : (settlePorts s).Orderly 0 :=
  h.onEng fun e => eachQuad_induct (fun p _ h => settlePort_keeps p h) (.refl e)

theorem settle_orderly (h : s.Orderly 0) : (settle s).Orderly 0 := by
  unfold settle
  extract_lets s1 s2
  have h1 : s1.Orderly 0 := settleBoot_orderly (h.onEng fun e => settleClock_keeps (.refl e))
  have h2 : s2.Orderly 0 := settleGrant_orderly (h1.onEng fun e => settleCues_keeps (.refl e))
  clear_value s2
  exact State.Orderly.onEng h2 fun e => settleUnits_keeps (.refl e)

theorem newFrame_orderly (h : s.Orderly 0) : s.newFrame.Orderly 0 := by
  unfold State.newFrame
  split
  · exact finishWrite_orderly (h.onEng fun e => runFrame_keeps (.refl e))
  · exact h

theorem frame_orderly (h : s.Orderly 0) : s.frame.Orderly 0 := by
  have h1 := settlePorts_orderly h
  unfold State.frame
  dsimp only
  split
  · exact newFrame_orderly (settle_orderly h1)
  · exact h1

/-! ## The rows -/

/-- The row is a change of the state while the part has power, and keeps the orderly state. -/
def RowKeepsOrder (row : State → Result) : Prop :=
  ∃ f, row = stateRow f ∧ ∀ s : State, s.Orderly 0 → (f s).Orderly 0

theorem stateRow_order {f : State → State} (hf : ∀ s : State, s.Orderly 0 → (f s).Orderly 0) :
    RowKeepsOrder (stateRow f) := ⟨f, rfl, hf⟩

theorem engineRow_order {f : Engine → Engine} (hf : ∀ e, Keeps e (f e)) : RowKeepsOrder (engineRow f) :=
  ⟨State.onEng f, rfl, fun _ h => h.onEng hf⟩

theorem takeRow_order {want : Byte → Bool} {f : Message → State → State}
    (hf : ∀ m s, State.Orderly 1 s → State.Orderly 0 (f m s)) : RowKeepsOrder (stateRow (State.take want f)) :=
  stateRow_order fun _ h => take_orderly want hf h

theorem commandRow_order (kind : Nat) {cmd : List Byte → Engine → Engine × Answer} (hc : OrderlyCommand cmd) :
    RowKeepsOrder (commandRow kind cmd) :=
  ⟨State.take (isKind kind) (answerWith cmd), rfl, fun _ h => take_orderly _ (fun m _ h => answerWith_orderly hc m h) h⟩

theorem cueRow_order (want : Action → Bool) : RowKeepsOrder (cueRow want) :=
  engineRow_order fun e => runDue_keeps want (.refl e)

theorem whenDue_keeps {due : Engine → Bool} {f : Engine → Engine} (hf : ∀ e, Keeps e (f e)) (e : Engine) :
    Keeps e (whenDue due f e) := Keeps.ite (hf e) (.refl e)

theorem exec_order (c : Instr) (hon : c ≠ .powerOn) (hoff : c ≠ .powerOff) : RowKeepsOrder (exec c) := by
  cases c with
  | powerOn => exact absurd rfl hon
  | powerOff => exact absurd rfl hoff
  | relockEnd => exact engineRow_order fun e => endRelock_keeps (.refl e)
  | bootSetupApply => exact stateRow_order fun _ h => settleBoot_orderly h
  | hostMessage kind tag payload => exact stateRow_order fun _ h => message_orderly kind tag payload h
  | shortTransaction sent => exact stateRow_order fun _ h => transaction_orderly sent h
  | read clocked => exact stateRow_order fun _ h => read_orderly clocked h
  | unknownKind => exact takeRow_order fun m _ h => h.reply _ _ _
  | portSet => exact commandRow_order 1 portSet_keeps.orderly
  | laneSet => exact commandRow_order 2 laneSet_keeps.orderly
  | clockSet => exact commandRow_order 3 clockSet_keeps.orderly
  | gridSet => exact commandRow_order 4 gridSet_keeps.orderly
  | followSet => exact commandRow_order 5 followSet_keepsCommand.orderly
  | layerMix => exact commandRow_order 6 layerMix_keeps.orderly
  | liveMix => exact commandRow_order 7 liveMix_keeps.orderly
  | masterSet => exact commandRow_order 8 masterSet_keeps.orderly
  | fadeSet => exact commandRow_order 9 fadeSet_keeps.orderly
  | pedalMap => exact commandRow_order 10 pedalMap_keeps.orderly
  | pedalUnmap => exact commandRow_order 11 pedalUnmap_keeps.orderly
  | eventMask => exact commandRow_order 12 eventMask_keeps.orderly
  | cue => exact commandRow_order 13 cueCommand_orderly
  | cueCancel => exact commandRow_order 14 cueCancel_keepsCommand.orderly
  | tap => exact commandRow_order 15 tap_keeps.orderly
  | cycleSet => exact commandRow_order 16 cycleSet_keeps.orderly
  | layerHold => exact commandRow_order 17 layerHold_keeps.orderly
  | layerRelease => exact commandRow_order 18 layerRelease_keeps.orderly
  | audioRead => exact takeRow_order fun m _ h => startWith_orderly audioRead_starts m h
  | audioWrite => exact takeRow_order fun m _ h => startWith_orderly audioWrite_starts m h
  | layerQuery => exact commandRow_order 21 layerQuery_keeps.orderly
  | cycleQuery => exact commandRow_order 22 cycleQuery_keeps.orderly
  | laneQuery => exact commandRow_order 23 laneQuery_keeps.orderly
  | memoryQuery => exact commandRow_order 24 memoryQuery_keeps.orderly
  | ident => exact takeRow_order fun m _ h => h.reply _ _ _
  | storeRead => exact takeRow_order fun m _ h => h.reply _ _ _
  | storeWrite => exact takeRow_order fun m _ h => storeWriteWith_orderly m h
  | storeWordComplete => exact stateRow_order fun _ h => wordComplete_orderly h
  | storeApply => exact takeRow_order fun m _ h => storeApplyWith_orderly m h
  | blockHold => exact commandRow_order 29 (blockCommand_keeps fun n e => holdBlock_keeps n (.refl e)).orderly
  | blockRelease => exact commandRow_order 30 (blockCommand_keeps fun n e => releaseBlock_keeps n (.refl e)).orderly
  | engineReset => exact takeRow_order fun m _ h => resetEngine_orderly m h
  | frame => exact stateRow_order fun _ h => frame_orderly h
  | spliceWaitLimit => exact engineRow_order (whenDue_keeps fun e => abandonSplice_keeps _ (.refl e))
  | spliceJump =>
    refine stateRow_order fun s h => ?_
    unfold State.jumpFrame
    split
    · exact frame_orderly h
    · exact h
  | crossfadeEnd => exact engineRow_order (whenDue_keeps fun e => endCrossfade_keeps (.refl e))
  | holdOffEnd => exact engineRow_order (whenDue_keeps fun e => { Keeps.refl e with })
  | coast => exact engineRow_order fun e => coast_keeps (.refl e)
  | record => exact cueRow_order _
  | close => exact cueRow_order _
  | autoClose => exact engineRow_order fun e => autoClose_keeps (.refl e)
  | fixedCaptureComplete slot => exact engineRow_order (whenDue_keeps fun e => completeFixed_keeps slot (.refl e))
  | overdub => exact cueRow_order _
  | overdubEnd => exact cueRow_order _
  | play => exact cueRow_order _
  | stop => exact cueRow_order _
  | mute => exact cueRow_order _
  | unmute => exact cueRow_order _
  | undo => exact cueRow_order _
  | redo => exact cueRow_order _
  | clear => exact cueRow_order _
  | stopAll => exact cueRow_order _
  | playAll => exact cueRow_order _
  | pause => exact cueRow_order _
  | resume => exact cueRow_order _
  | clearAll => exact cueRow_order _
  | grantComplete => exact stateRow_order fun _ h => settleGrant_orderly h
  | primingComplete voice => exact engineRow_order (whenDue_keeps fun e => { Keeps.refl e with })
  | recovery voice => exact engineRow_order (whenDue_keeps fun e => recoverFrame_keeps voice (.refl e))
  | voiceIdle voice => exact engineRow_order (whenDue_keeps fun e => { Keeps.refl e with })
  | clearFadeEnd voice => exact engineRow_order (whenDue_keeps fun e => clearFadeDone_keeps voice (.refl e))
  | clipWindowEnd => exact engineRow_order fun e => clipWindowEnd_keeps (.refl e)
  | portFrameArrival port bits => exact engineRow_order fun e => portArrival_keeps port bits (.refl e)
  | silentPeriod port => exact engineRow_order fun e => silentPeriod_keeps port (.refl e)
  | lockAcquired port => exact engineRow_order fun e => acquireLock_keeps port (.refl e)
  | lockLost port => exact engineRow_order fun e => loseLock_keeps port (.refl e)
  | elasticFillDone port => exact engineRow_order fun e => fillDone_keeps port (.refl e)
  | underrunEnd port => exact engineRow_order fun e => slipEnd_keeps .under port (.refl e)
  | overrunEnd port => exact engineRow_order fun e => slipEnd_keeps .over port (.refl e)
  | samplingEvent v0 v1 v2 v3 => exact engineRow_order fun e => samplingEvent_keeps _ (.refl e)

theorem orderly_store (h : s.orderly = true) : cellsWf s.store.cells = true ∧ (s.powered = false → s.store.job = none) := by
  simp only [State.orderly, Bool.and_eq_true] at h
  obtain ⟨⟨⟨⟨⟨_, hs⟩, _⟩, _⟩, _⟩, hl⟩ := h
  refine ⟨hs, fun hp => ?_⟩
  simpa [hp] using hl

theorem execPowerOn_orderly {t : State} (h : s.orderly = true) (ht : execPowerOn s = .next t) : t.orderly = true := by
  obtain ⟨hs, hj⟩ := orderly_store h
  simp only [execPowerOn, Host.Outcome.next.injEq] at ht
  subst ht
  split
  next hp =>
    obtain ⟨hs1, hj1⟩ := losePower_store s hs
    exact (State.orderly_iff rfl).mpr (gainPower_orderly hs1 hj1)
  next hp => exact (State.orderly_iff rfl).mpr (gainPower_orderly hs (hj (by simpa using hp)))

theorem execPowerOff_orderly {t : State} (h : s.orderly = true) (ht : execPowerOff s = .next t) : t.orderly = true := by
  simp only [execPowerOff, stateRow, State.whenOn, Host.Outcome.next.injEq] at ht
  subst ht
  split
  next hp => exact losePower_orderly h hp
  · exact h

theorem exec_orderly (c : Instr) {t : State} (h : s.orderly = true) (ht : exec c s = .next t) : t.orderly = true := by
  by_cases hon : c = .powerOn
  · subst hon
    exact execPowerOn_orderly h ht
  by_cases hoff : c = .powerOff
  · subst hoff
    exact execPowerOff_orderly h ht
  obtain ⟨f, hf, hkeep⟩ := exec_order c hon hoff
  rw [hf, stateRow, Host.Outcome.next.injEq] at ht
  subst ht
  unfold State.whenOn
  split
  next hp =>
    have ho := hkeep s ((State.orderly_iff hp).mp h)
    exact (State.orderly_iff ho.powered).mpr ho
  · exact h

end Sys2Proof.Machine

namespace Sys2Proof.Settled

open Sys2Proof.Machine

/-- Settles O3: every row keeps the orderly state, by what each operation of the engine keeps (`Keeps`) and by the account
of the command that a row has taken (`State.Orderly`). -/
theorem stepKeepsOrder : Obligations.StepKeepsOrder := by
  intro s t hs ht
  unfold step at ht
  split at ht
  · cases ht
    exact hs
  next c rest _ => exact exec_orderly c (s := { s with pending := rest }) hs ht

end Sys2Proof.Settled
end

section
/-! Ranges: what every operation of the engine leaves of the values that `Engine.inRange` names, and that every step keeps
them in their ranges. -/

set_option Elab.async false

namespace Sys2Proof.Machine

/-! ## The ranges of the engine's units -/

/-- The cycle clock's values in their ranges (R2). -/
structure Cycle.Ranged (c : Cycle) : Prop where
  beats : 1 ≤ c.beats ∧ c.beats ≤ 32
  pending : ∀ b, c.pendingBeats = some b → 1 ≤ b ∧ b ≤ 32
  beat : c.beat < c.beats
  still : c.beat = 0 ∨ c.state = .running ∨ c.state = .paused
  base : c.base = none ∨ c.state = .baseCapture
  splice : c.splice = .idle ∨ c.state = .running
  len : ∀ n, c.len = some n → Config.minCycle ≤ n ∧ c.p < n
  frac : c.frac < 65536
  m : c.m < 24
  k : c.k < 4294967296

theorem Cycle.inRange_iff (c : Cycle) : c.inRange = true ↔ c.Ranged := by
  simp only [Cycle.inRange, Bool.and_eq_true, Bool.or_eq_true, between_iff, decide_eq_true_eq, beq_iff_eq,
    Option.isNone_iff_eq_none, Option.all_eq_true, or_assoc]
  constructor
  · rintro ⟨⟨⟨⟨⟨⟨⟨⟨⟨hb, hp⟩, hbeat⟩, hst⟩, hbase⟩, hs⟩, hl⟩, hf⟩, hm⟩, hk⟩
    exact ⟨hb, hp, hbeat, hst, hbase, hs, hl, hf, hm, hk⟩
  · rintro ⟨hb, hp, hbeat, hst, hbase, hs, hl, hf, hm, hk⟩
    exact ⟨⟨⟨⟨⟨⟨⟨⟨⟨hb, hp⟩, hbeat⟩, hst⟩, hbase⟩, hs⟩, hl⟩, hf⟩, hm⟩, hk⟩

/-- Outside RUNNING and PAUSED the beat index is 0 and no splice stands. -/
theorem Cycle.Ranged.rest {c : Cycle} (h : c.Ranged) (hs : c.state = .unset ∨ c.state = .baseCapture) :
    c.beat = 0 ∧ c.splice = .idle := by
  obtain hs | hs := hs
  · exact ⟨by simpa [hs] using h.still, by simpa [hs] using h.splice⟩
  · exact ⟨by simpa [hs] using h.still, by simpa [hs] using h.splice⟩

/-- A port's values in their ranges; with `calm` its bad run has not brought LOCK_LOST (R147, R149). -/
def Port.Ranged (calm : Prop) (q : Port) : Prop := q.inRange = true ∧ (calm → q.lock = .locked → q.bad < 4)

/-- Every value in its range. Beside it stand what an operation may rely on: of which ports LOCK_LOST is not due (`K`),
whether the PLL is LOCKED (`L`), and what the cycle state is (`S`). -/
structure Ranges (K : PortIx → Prop) (L : Prop) (S : CycleState → Prop) (e : Engine) : Prop where
  cyc : e.cyc.Ranged
  fol : e.fol.inRange = true
  cues : e.cues.inRange = true
  mix : e.mix.inRange = true
  ped : e.ped.inRange = true
  layers : ∀ l : LayerIx, e.layers[l].inRange = true
  voices : ∀ l : LayerIx, e.voices[l].inRange = true
  ports : ∀ p : PortIx, e.ports[p].Ranged (K p)
  lanes : ∀ l : LaneIx, e.lanes[l].inRange = true
  heard : e.heard.all Heard.inRange = true
  due : e.clk.pllLocked = true ∨ e.ped.due = false
  clocked : L → e.clk.pllLocked = true
  phase : S e.cyc.state

/-- Nothing is known of the cycle state. -/
abbrev anyPhase : CycleState → Prop := fun _ => True

/-- Nothing is known of the ports. -/
abbrev noPort : PortIx → Prop := fun _ => False

theorem Engine.inRange_iff (e : Engine) : e.inRange = true ↔ Ranges noPort False anyPhase e := by
  simp only [Engine.inRange, Bool.and_eq_true, List.all_eq_true, Bool.or_eq_true, Bool.not_eq_true', Cycle.inRange_iff]
  constructor
  · rintro ⟨⟨⟨⟨⟨⟨⟨⟨hc, hf⟩, hq⟩, hm⟩, hp⟩, hl⟩, hq4⟩, hh⟩, hd⟩
    exact ⟨hc, hf, hq, hm, hp, fun l => (hl l (mem_layerIxs l)).1, fun l => (hl l (mem_layerIxs l)).2,
      fun p => ⟨(hq4 p (mem_quadIxs p)).1, False.elim⟩, fun l => (hq4 l (mem_quadIxs l)).2, hh, hd, False.elim, trivial⟩
  · rintro ⟨hc, hf, hq, hm, hp, hl, hv, hpo, hla, hh, hd, -, -⟩
    exact ⟨⟨⟨⟨⟨⟨⟨⟨hc, hf⟩, hq⟩, hm⟩, hp⟩, fun l _ => ⟨hl l, hv l⟩⟩, fun i _ => ⟨(hpo i).1, hla i⟩⟩, hh⟩, hd⟩

variable {K : PortIx → Prop} {L : Prop} {S : CycleState → Prop} {e : Engine}

theorem Ranges.ite {c : Prop} [Decidable c] {x y : Engine} (hx : Ranges K L S x) (hy : Ranges K L S y) :
    Ranges K L S (if c then x else y) := by
  split
  · exact hx
  · exact hy

/-- The operation may end in any cycle state. -/
theorem Ranges.any (h : Ranges K L S e) : Ranges K L anyPhase e := { h with phase := trivial }

/-- Less is known of the ports and the PLL. -/
theorem Ranges.forget (h : Ranges K L S e) : Ranges noPort False S e :=
  { h with ports := fun p => ⟨(h.ports p).1, False.elim⟩, clocked := False.elim }

/-! ## A change of one unit -/

theorem Ranges.modLayer {l : LayerIx} {f : Layer → Layer} (hf : ∀ r : Layer, r.inRange = true → (f r).inRange = true)
    (h : Ranges K L S e) : Ranges K L S (Machine.modLayer l f e) := by
  refine { h with layers := fun i => ?_ }
  simp only [modLayer_layers, Fin.getElem_fin, upd_get]
  split
  · exact hf _ (h.layers i)
  · exact h.layers i

theorem Ranges.modVoice {l : LayerIx} {f : Voice → Voice} (hf : ∀ v : Voice, v.inRange = true → (f v).inRange = true)
    (h : Ranges K L S e) : Ranges K L S (Machine.modVoice l f e) := by
  refine { h with voices := fun i => ?_ }
  simp only [modVoice_voices, Fin.getElem_fin, upd_get]
  split
  · exact hf _ (h.voices i)
  · exact h.voices i

theorem Ranges.modPort {p : PortIx} {f : Port → Port} (hf : ∀ q : Port, q.Ranged (K p) → (f q).Ranged (K p))
    (h : Ranges K L S e) : Ranges K L S (Machine.modPort p f e) := by
  refine { h with ports := fun i => ?_ }
  simp only [modPort_ports, Fin.getElem_fin, upd_get]
  split
  next hi => exact hi ▸ hf _ (h.ports p)
  · exact h.ports i

theorem Ranges.modLane {l : LaneIx} {f : Lane → Lane} (hf : ∀ n : Lane, n.inRange = true → (f n).inRange = true)
    (h : Ranges K L S e) : Ranges K L S (Machine.modLane l f e) := by
  refine { h with lanes := fun i => ?_ }
  simp only [modLane_lanes, Fin.getElem_fin, upd_get]
  split
  · exact hf _ (h.lanes i)
  · exact h.lanes i

/-- A change of a layer's unranged fields. -/
theorem Ranges.layer {l : LayerIx} {f : Layer → Layer} (h : Ranges K L S e)
    (hf : ∀ r : Layer, (f r).inRange = r.inRange := by intros; rfl) : Ranges K L S (Machine.modLayer l f e) :=
  h.modLayer fun r hr => (hf r).trans hr

/-- A change of a voice's unranged fields. -/
theorem Ranges.voice {l : LayerIx} {f : Voice → Voice} (h : Ranges K L S e)
    (hf : ∀ v : Voice, (f v).inRange = v.inRange := by intros; rfl) : Ranges K L S (Machine.modVoice l f e) :=
  h.modVoice fun v hv => (hf v).trans hv

/-- A splice stands only while RUNNING. -/
theorem Ranges.running (h : Ranges K L S e) (hs : e.cyc.splice ≠ .idle) : e.cyc.state = .running :=
  h.cyc.splice.resolve_left hs

/-- The splice changes while RUNNING. -/
theorem Ranges.spliced (h : Ranges K L S e) (hrun : e.cyc.state = .running) (sp : Splice) :
    Ranges K L S { e with cyc := { e.cyc with splice := sp } } := { h with cyc := { h.cyc with splice := .inr hrun } }

/-- The splice ends. -/
theorem Ranges.unspliced (h : Ranges K L S e) : Ranges K L S { e with cyc := { e.cyc with splice := .idle } } :=
  { h with cyc := { h.cyc with splice := .inl rfl } }

theorem post_ranges (ev : Event) (h : Ranges K L S e) : Ranges K L S (post ev e) := { h with }

theorem onFollower_ranges {f : Engine → Engine} (hf : ∀ e, Ranges K L S e → Ranges K L S (f e)) (h : Ranges K L S e) :
    Ranges K L S (onFollower f e) := by
  unfold onFollower
  split
  · exact hf e h
  next hd hhd =>
    have hheard := h.heard
    simp only [hhd, Option.all_some, Heard.inRange, Bool.and_eq_true] at hheard
    obtain ⟨hfol, hcues⟩ := hheard
    have hnow := hf e h
    have halt := hf { e with fol := hd.without } { h with fol := hfol }
    extract_lets now alt n
    refine { hnow with heard := ?_ }
    simp only [Option.all_some, Heard.inRange, Bool.and_eq_true]
    exact ⟨halt.fol, hcues⟩

/-! ## Shared operations -/

theorem reportClip_ranges (h : Ranges K L S e) : Ranges K L S (reportClip e) := by
  unfold reportClip
  split
  · exact h
  · split
    · exact { h with }
    · exact post_ranges _ { h with }

/-- A follower that leaves TRACKING or WAITING. -/
theorem Follower.inRange_lapsed {f : Follower} (h : f.inRange = true) (st : FollowState) :
    Follower.inRange { f with state := st, err := 0, delta := 0, beatCount := 0, coastDue := false } = true := by
  simp only [Follower.inRange, Bool.and_eq_true, between_iff, decide_eq_true_eq] at h ⊢
  omega

theorem setFollowState_ranges (st : FollowState) (c : FollowCause) (h : Ranges K L S e) :
    Ranges K L S (setFollowState st c e) := by
  have h1 : Ranges K L S { e with fol :=
      { e.fol with state := st, err := 0, delta := 0, beatCount := 0, coastDue := false } } :=
    { h with fol := Follower.inRange_lapsed h.fol st }
  unfold setFollowState
  split
  · exact h1
  · exact post_ranges _ h1

theorem setLayerState_ranges (l : LayerIx) (st : LayerState) (c : LayerCause) (n : Nat) (h : Ranges K L S e) :
    Ranges K L S (setLayerState l st c n e) := post_ranges _ h.layer

theorem pageWrite_ranges (l : LayerIx) (key pos : Nat) (x : Sample) (h : Ranges K L S e) :
    Ranges K L S (pageWrite l key pos x e) := by
  unfold pageWrite
  split
  · exact { h with }
  · exact h

theorem chainWrite_ranges (l : LayerIx) (key pos : Nat) (x : Sample) (h : Ranges K L S e) :
    Ranges K L S (chainWrite l key pos x e) := by
  unfold chainWrite
  split
  · exact { h with }
  · exact pageWrite_ranges l key pos x h

theorem chainWrites_ranges (l : LayerIx) (key : Nat) :
    ∀ (xs : List Sample) (pos : Nat) {e : Engine}, Ranges K L S e → Ranges K L S (chainWrites l key pos xs e)
  | [], _, _, h => h
  | x :: xs, pos, _, h => chainWrites_ranges l key xs _ (chainWrite_ranges l key pos x h)

theorem drainWrites_ranges (l : LayerIx) (key : Nat) :
    ∀ (ws : List (Nat × Sample)) {e : Engine}, Ranges K L S e → Ranges K L S (drainWrites l key ws e)
  | [], _, h => h
  | w :: ws, _, h => drainWrites_ranges l key ws (pageWrite_ranges l key w.1 w.2 h)

theorem freeChain_ranges (l : LayerIx) (chain : Option (List Nat)) (h : Ranges K L S e) :
    Ranges K L S (freeChain l chain e) := by
  unfold freeChain
  split
  · exact { h with }
  · exact h

/-! ## Voices and the splice -/

/-- An envelope moves toward a target in its range. -/
theorem envStep_le {step target env : Nat} (ht : target ≤ 4096) (he : env ≤ 4096) : envStep step target env ≤ 4096 := by
  unfold envStep
  split <;> omega

theorem mergeStreams_inRange (len : Nat) (v : Voice) : (mergeStreams len v).inRange = v.inRange := rfl

theorem leaves_inRange (len : Nat) (r : SpliceRec) (v : Voice) : (v.leaves len r).inRange = v.inRange := by
  unfold Voice.leaves
  split <;> rfl

theorem voiceTake_inRange (fp : FramePos) (st : Stream) (v : Voice) : (voiceTake fp st v).inRange = v.inRange := by
  unfold voiceTake
  dsimp only
  split
  · rfl
  · split
    · rfl
    · split <;> rfl

theorem voiceShort_inRange (running : Bool) {v : Voice} (h : v.inRange = true) : (voiceShort running v).inRange = true := by
  simp only [Voice.inRange, Bool.and_eq_true, between_iff] at h ⊢
  unfold voiceShort
  split
  · exact h
  · split
    · exact h
    · dsimp only; omega
  · split
    · dsimp only; omega
    · dsimp only; omega

theorem voiceStarve_inRange (len : Nat) (running : Bool) (st : Stream) {v : Voice} (h : v.inRange = true) :
    (voiceStarve len running st v).inRange = true := by
  have hshort : (if running = true then v.short - 128 else v.short) ≤ v.short := by split <;> omega
  simp only [Voice.inRange, Bool.and_eq_true, between_iff] at h ⊢
  obtain ⟨⟨henv, htarget⟩, hs⟩ := h
  cases st <;> exact ⟨⟨henv, htarget⟩, Nat.zero_le _, hshort.trans hs.2⟩

theorem voicePresent_inRange (fp : FramePos) (st : Stream) (v : Voice) : (voicePresent fp st v).inRange = v.inRange := by
  unfold voicePresent
  split
  · rfl
  · rfl
  · rfl
  · dsimp only
    split
    · split <;> rfl
    · split <;> rfl

theorem voiceFrame_inRange (fp : FramePos) (st : Stream) (crossing : Bool) (step : Nat) {v : Voice}
    (h : v.inRange = true) : (voiceFrame fp st crossing step v).inRange = true := by
  unfold voiceFrame
  extract_lets v0 v1
  have h0 : v0.inRange = true := (voiceTake_inRange fp st v).trans h
  have h1 : v1.inRange = true := by
    unfold v1
    split
    · exact voiceStarve_inRange _ _ _ h0
    · exact (voicePresent_inRange _ _ _).trans (voiceShort_inRange _ h0)
  clear_value v1
  simp only [updFlag, Voice.inRange, Bool.and_eq_true, between_iff] at h1 ⊢
  obtain ⟨⟨henv, htarget⟩, hs⟩ := h1
  exact ⟨⟨⟨Nat.zero_le _, envStep_le htarget.2 henv.2⟩, htarget⟩, hs⟩

theorem leaveSplice_ranges (v : LayerIx) (h : Ranges K L S e) : Ranges K L S (leaveSplice v e) := by
  unfold leaveSplice
  split
  · exact h
  next r hr =>
    split
    · exact (h.spliced (h.running (by simp [hr])) _).voice
    · exact h
  next r hr =>
    split
    · exact (h.spliced (h.running (by simp [hr])) _).voice fun x => leaves_inRange _ r x
    · exact h

theorem beginPriming_ranges (l : LayerIx) (h : Ranges K L S e) : Ranges K L S (beginPriming l e) := h.voice

theorem playVoice_ranges (l : LayerIx) (h : Ranges K L S e) : Ranges K L S (playVoice l e) :=
  Ranges.ite (beginPriming_ranges l h) h

theorem cancelGrant_ranges (p : Grant → Bool) (h : Ranges K L S e) : Ranges K L S (cancelGrant p e) := { h with }

theorem idleVoice_ranges (l : LayerIx) (h : Ranges K L S e) : Ranges K L S (idleVoice l e) :=
  (cancelGrant_ranges _ h).modVoice fun _ _ => rfl

theorem stopVoice_ranges (l : LayerIx) (h : Ranges K L S e) : Ranges K L S (stopVoice l e) := by
  have h1 := leaveSplice_ranges l h
  unfold stopVoice
  dsimp only
  split
  · exact idleVoice_ranges l h1
  · exact h1

theorem clearVoice_ranges (l : LayerIx) (h : Ranges K L S e) : Ranges K L S (clearVoice l e) := by
  refine (leaveSplice_ranges l h).modVoice fun v hv => ?_
  split
  · exact hv
  · rfl

theorem recoverVoice_ranges (l : LayerIx) (h : Ranges K L S e) : Ranges K L S (recoverVoice l e) := by
  have hv := h.voices l
  unfold recoverVoice
  dsimp only
  split
  · exact post_ranges _ (h.modVoice fun _ _ => voiceShort_inRange true hv)
  · exact h.modVoice fun _ _ => hv

theorem clearFadeDone_ranges (l : LayerIx) (h : Ranges K L S e) : Ranges K L S (clearFadeDone l e) := by
  have h1 : Ranges K L S (modVoice l (fun _ => Voice.reset) e) := h.modVoice fun _ _ => rfl
  exact Ranges.ite (beginPriming_ranges l h1) h1

theorem runVoice_ranges (adv : Nat) (l : LayerIx) (h : Ranges K L S e) : Ranges K L S (runVoice adv l e) := by
  have h1 : Ranges K L S (modVoice l (fun _ => voiceFrame (framePosOf e adv l) (streamOf e.cyc.splice l)
      e.cyc.splice.crossing (ceilDiv 4096 e.mix.fade) e.voices[l]) e) :=
    h.modVoice fun _ _ => voiceFrame_inRange _ _ _ _ (h.voices l)
  exact Ranges.ite (post_ranges _ h1) h1

/-- A walk over voices that changes unranged fields. -/
theorem modVoices_ranges {f : Engine → LayerIx → Voice → Voice} (vs : List LayerIx) (h : Ranges K L S e)
    (hf : ∀ e v x, (f e v x).inRange = x.inRange := by intros; rfl) :
    Ranges K L S (vs.foldl (fun e v => modVoice v (f e v) e) e) :=
  foldl_induct (fun v e h => h.voice (hf e v)) vs h

theorem requestSplice_ranges (j : Int) (h : Ranges K L S e) : Ranges K L S (requestSplice j e) := by
  unfold requestSplice
  split
  next hc => exact modVoices_ranges _ (h.spliced hc.1 _)
  · exact h

theorem discardStreams_ranges (vs : List LayerIx) (h : Ranges K L S e) : Ranges K L S (discardStreams vs e) :=
  modVoices_ranges vs h

theorem abandonSplice_ranges (r : SkipReason) (h : Ranges K L S e) : Ranges K L S (abandonSplice r e) := by
  unfold abandonSplice
  split
  · exact post_ranges _ (discardStreams_ranges _ h.unspliced)
  · exact h

theorem captureStops_ranges (h : Ranges K L S e) : Ranges K L S (captureStops e) := by
  unfold captureStops
  split
  · split
    · exact discardStreams_ranges _ h.unspliced
    · exact abandonSplice_ranges _ h
  · exact h

theorem endCrossfade_ranges (h : Ranges K L S e) : Ranges K L S (endCrossfade e) := by
  unfold endCrossfade
  split
  next r _ => exact modVoices_ranges _ h.unspliced fun _ _ x => leaves_inRange _ r x
  · exact h

/-- A splice ends whatever its state, so that only the engine without it need be in range. -/
theorem endSplice_ranges (r : SkipReason) (h : Ranges K L S { e with cyc := { e.cyc with splice := .idle } }) :
    Ranges K L S (endCrossfade (abandonSplice r e)) := by
  cases hs : e.cyc.splice with
  | idle =>
    have he : endCrossfade (abandonSplice r e) = { e with cyc := { e.cyc with splice := .idle } } := by
      simp only [abandonSplice, endCrossfade, hs]
      rw [← hs]
    exact he ▸ h
  | fetching x =>
    refine endCrossfade_ranges ?_
    simp only [abandonSplice, hs]
    exact post_ranges _ (discardStreams_ranges _ h)
  | crossfading x =>
    simp only [abandonSplice, endCrossfade, hs]
    exact modVoices_ranges _ h fun _ _ v => leaves_inRange _ x v

theorem alignStreams_ranges (h : Ranges K L S e) : Ranges K L S (alignStreams e) := by
  unfold alignStreams
  split
  · exact modVoices_ranges _ h
  · exact h

theorem jumpVoice_ranges (r : SpliceRec) (v : LayerIx) (h : Ranges K L S e) : Ranges K L S (jumpVoice r v e) := by
  have h1 : Ranges K L S (discardRefill v e) := cancelGrant_ranges _ h
  unfold jumpVoice
  dsimp only
  split
  · exact beginPriming_ranges v h1
  · exact h1.voice
  · exact Ranges.ite h1.voice h
  · exact h

/-! ## Loop memory -/

theorem reclaimOne_ranges (l : LayerIx) (k : AgeKind) (h : Ranges K L S e) : Ranges K L S (reclaimOne l k e) := by
  have h1 : ∀ chain, Ranges K L S (dropAge l (freeChain l chain e)) := fun chain => { freeChain_ranges l chain h with }
  cases k <;> exact post_ranges _ (h1 _).layer

theorem reclaimWalk_ranges (need extra : Nat) (own : Option LayerIx) :
    ∀ (list : List (LayerIx × AgeKind)) {e : Engine}, Ranges K L S e → Ranges K L S (reclaimWalk need extra own list e)
  | [], _, h => h
  | (l, k) :: rest, _, h => by
    unfold reclaimWalk
    split
    · exact h
    · split
      · exact reclaimWalk_ranges need extra own rest h
      · exact reclaimWalk_ranges need extra own rest (reclaimOne_ranges l k h)

theorem allocChain_ranges (n : Nat) (h : Ranges K L S e) : Ranges K L S (allocChain n e).2 := by
  have h1 := reclaimWalk_ranges n 0 none e.mem.age h
  unfold allocChain
  dsimp only
  split
  · exact { h1 with }
  · exact h1

theorem grantHold_ranges (l : LayerIx) (h : Ranges K L S e) : Ranges K L S (grantHold l e) :=
  Ranges.ite (post_ranges _ h.layer) h

theorem grantHolds_ranges (h : Ranges K L S e) : Ranges K L S (grantHolds e) :=
  eachLayer_induct (fun l _ h => grantHold_ranges l h) h

theorem zeroFeed_ranges (l : LayerIx) (h : Ranges K L S e) : Ranges K L S (zeroFeed l e) := by
  unfold zeroFeed
  extract_lets len pos n e1 stream spos
  have h1 : Ranges K L S e1 := Ranges.ite h.voice h
  clear_value e1
  exact Ranges.ite h1.voice h1

theorem arbitrate_ranges (h : Ranges K L S e) : Ranges K L S (arbitrate e) := by
  unfold arbitrate
  split
  · exact h
  · have h1 : Ranges K L S (eachLayer zeroFeed e) := eachLayer_induct (fun l _ h => zeroFeed_ranges l h) h
    generalize eachLayer zeroFeed e = e1 at h1
    exact { h1 with }

theorem voiceDone_ranges (g : Grant) (l : LayerIx) (h : Ranges K L S e) : Ranges K L S (voiceDone g l e) := by
  unfold voiceDone
  dsimp only
  split
  · exact h
  · exact h.voice

theorem spliceDone_ranges (g : Grant) (l : LayerIx) (h : Ranges K L S e) : Ranges K L S (spliceDone g l e) := by
  refine Ranges.ite (h.voice fun v => ?_) h
  split <;> rfl

theorem jobDone_ranges (l : LayerIx) (k : FillKind) (h : Ranges K L S e) : Ranges K L S (jobDone l k e) :=
  grantHolds_ranges (post_ranges _ { h with })

theorem addJob_ranges (l : LayerIx) (k : FillKind) (h : Ranges K L S e) : Ranges K L S (addJob l k e) := { h with }

theorem zeroFillDone_ranges (l : LayerIx) (h : Ranges K L S e) : Ranges K L S (zeroFillDone l e) := by
  unfold zeroFillDone
  extract_lets e1 e2
  have h1 : Ranges K L S e1 := jobDone_ranges l .zeroFill h
  clear_value e1
  have h2 : Ranges K L S e2 := Ranges.ite (addJob_ranges _ _ h1) h1
  clear_value e2
  exact Ranges.ite (beginPriming_ranges l h2) h2

theorem fillerDone_ranges (g : Grant) (h : Ranges K L S e) : Ranges K L S (fillerDone g e) := by
  unfold fillerDone
  split
  · exact h
  · split
    · split
      · extract_lets xs e1 mem e2
        have h1 : Ranges K L S e1 := chainWrites_ranges g.layer g.key xs g.first h
        have h2 : Ranges K L S e2 := { h1 with }
        clear_value e2
        split
        · exact Ranges.ite (jobDone_ranges _ _ h2.layer) h2.layer
        · exact h2
      · exact { h with }
    · extract_lets e1 done
      have h1 : Ranges K L S e1 := chainWrites_ranges g.layer g.key _ g.first h
      clear_value e1
      exact Ranges.ite (zeroFillDone_ranges _ h1) { h1 with }

theorem drainDone_ranges (g : Grant) (s : SlotIx) (h : Ranges K L S e) : Ranges K L S (drainDone g s e) :=
  { drainWrites_ranges g.layer g.key ((headRun e e.slots[s]).take g.count) h with }

theorem transferDone_ranges (g : Grant) (h : Ranges K L S e) : Ranges K L S (transferDone g e).1 := by
  unfold transferDone
  split
  · exact h
  next t _ =>
    extract_lets e1 data t1 e2 e3
    have h1 : Ranges K L S e1 := Ranges.ite (chainWrites_ranges _ _ _ _ h) h
    clear_value e1
    split
    · have h2 : Ranges K L S e2 := { h1 with }
      exact Ranges.ite h2.layer h2
    · exact { h1 with }

theorem completeGrant_ranges (h : Ranges K L S e) : Ranges K L S (completeGrant e).1 := by
  unfold completeGrant
  split
  · exact h
  next g _ =>
    extract_lets mem e0 out
    have h0 : Ranges K L S e0 := { h with }
    have hout : Ranges K L S out.1 := by
      unfold out
      split
      · exact h0
      · cases g.who with
        | slot s => exact drainDone_ranges g s h0
        | voice l => exact voiceDone_ranges g l h0
        | splice l => exact spliceDone_ranges g l h0
        | transfer => exact transferDone_ranges g h0
        | filler => exact fillerDone_ranges g h0
    clear_value out
    exact arbitrate_ranges hout

/-! ## Capture slots and layers -/

theorem modSlot_ranges (s : SlotIx) (f : Slot → Slot) (h : Ranges K L S e) : Ranges K L S (modSlot s f e) := { h with }

theorem closeGap_ranges (s : SlotIx) (h : Ranges K L S e) : Ranges K L S (closeGap s e) := by
  unfold closeGap
  split
  · exact post_ranges _ (modSlot_ranges _ _ h)
  · exact h

theorem releaseSlot_ranges (l : LayerIx) (h : Ranges K L S e) : Ranges K L S (releaseSlot l e) := by
  unfold releaseSlot
  split
  · exact (modSlot_ranges _ _ h).layer
  · exact h

theorem stageNew_ranges (s : SlotIx) (l : LayerIx) (key pos : Nat) (x : Sample) (h : Ranges K L S e) :
    Ranges K L S (stageNew s l key pos x e) :=
  Ranges.ite (modSlot_ranges _ _ h) (modSlot_ranges _ _ (closeGap_ranges s h))

theorem stageAgain_ranges (s : SlotIx) (l : LayerIx) (key pos : Nat) (x : Sample) (h : Ranges K L S e) :
    Ranges K L S (stageAgain s l key pos x e) := by
  unfold stageAgain
  split
  · exact h
  · exact Ranges.ite (modSlot_ranges _ _ h) (stageNew_ranges s l key pos x h)
  · exact stageNew_ranges s l key pos x h

theorem stageWrite_ranges (s : SlotIx) (l : LayerIx) (w : SlotWrite) (h : Ranges K L S e) :
    Ranges K L S (stageWrite s l w e) := by
  unfold stageWrite
  split
  · exact Ranges.ite (stageAgain_ranges _ _ _ _ _ h) (stageNew_ranges _ _ _ _ _ h)
  · exact h

theorem growWritten_ranges (l : LayerIx) (h : Ranges K L S e) : Ranges K L S (growWritten l e) := by
  unfold growWritten
  split
  · exact h.layer
  · exact h

theorem basePage_ranges (l : LayerIx) (pos : Nat) (h : Ranges K L S e) : Ranges K L S (basePage l pos e) := by
  have h1 : Ranges K L S (takePages 1 e).2 := { h with }
  exact Ranges.ite h1.layer h

theorem commitWrite_ranges (s : SlotIx) (w : SlotWrite) (h : Ranges K L S e) : Ranges K L S (commitWrite s e w) := by
  unfold commitWrite
  extract_lets sl
  split
  · exact h
  next l _ =>
    split
    · exact h
    · exact modSlot_ranges _ _ (stageWrite_ranges s l w (basePage_ranges l w.pos h))
    · exact modSlot_ranges _ _ (stageWrite_ranges s l w h)
    · extract_lets e1
      have h1 : Ranges K L S e1 := modSlot_ranges _ _ (stageWrite_ranges s l w h)
      exact Ranges.ite h1 (growWritten_ranges l h1)

theorem commitSlot_ranges (s : SlotIx) (h : Ranges K L S e) : Ranges K L S (commitSlot s e) :=
  modSlot_ranges _ _ (foldl_induct (fun w _ h => commitWrite_ranges s w h) e.slots[s].pendingWrites h)

theorem endSlot_ranges (l : LayerIx) (h : Ranges K L S e) : Ranges K L S (endSlot l e) := by
  unfold endSlot
  split
  · exact releaseSlot_ranges l (closeGap_ranges _ h)
  · exact h

theorem noteTaken_ranges (s : SlotIx) (l : LayerIx) (h : Ranges K L S e) : Ranges K L S (noteTaken s l e) := by
  unfold noteTaken
  dsimp only
  split
  · exact h.modLane fun _ hn => hn
  · exact h

theorem completeFixed_ranges (s : SlotIx) (h : Ranges K L S e) : Ranges K L S (completeFixed s e) := by
  unfold completeFixed
  split
  · exact grantHolds_ranges (playVoice_ranges _ (closeGap_ranges s (setLayerState_ranges _ _ _ _
      (releaseSlot_ranges _ (commitSlot_ranges s (noteTaken_ranges s _ h))))))
  · exact h

theorem closeEarly_ranges (l : LayerIx) (n : Nat) (h : Ranges K L S e) : Ranges K L S (closeEarly l n e) := by
  unfold closeEarly
  split
  · exact playVoice_ranges l (setLayerState_ranges _ _ _ _ (addJob_ranges _ _ (endSlot_ranges l h).layer))
  · exact h

theorem endOverdub_ranges (l : LayerIx) (h : Ranges K L S e) : Ranges K L S (endOverdub l e) :=
  Ranges.ite (addJob_ranges _ _ (endSlot_ranges l h)) (endSlot_ranges l h)

theorem recoverDone_ranges (l : LayerIx) (h : Ranges K L S e) : Ranges K L S (recoverDone l e) := by
  have h1 := recoverVoice_ranges l h
  unfold recoverDone
  dsimp only
  split
  · exact modSlot_ranges _ _ h1
  · exact h1

theorem stopLayer_ranges (l : LayerIx) (n : Nat) (h : Ranges K L S e) : Ranges K L S (stopLayer l n e) :=
  stopVoice_ranges l (setLayerState_ranges _ _ _ _
    (Ranges.ite (endOverdub_ranges l h) h : Ranges K L S (endIfOverdubbing l e)))

theorem playLayer_ranges (l : LayerIx) (n : Nat) (h : Ranges K L S e) : Ranges K L S (playLayer l n e) :=
  playVoice_ranges l (setLayerState_ranges _ _ _ _ h)

theorem finishOverdub_ranges (l : LayerIx) (n : Nat) (h : Ranges K L S e) : Ranges K L S (finishOverdub l n e) :=
  setLayerState_ranges _ _ _ _ (endOverdub_ranges l h)

theorem clearedRecord_inRange {r : Layer} (h : r.inRange = true) : (clearedRecord r).inRange = true := by
  simp only [clearedRecord, Layer.inRange, Layer.reset, Bool.and_eq_true, between_iff] at h ⊢
  obtain ⟨⟨⟨⟨hg, hp⟩, _⟩, _⟩, _⟩ := h
  exact ⟨⟨⟨⟨hg, hp⟩, by decide⟩, by decide⟩, rfl⟩

theorem dropJobs_ranges (p : Job → Bool) (h : Ranges K L S e) : Ranges K L S (dropJobs p e) := { h with }

theorem dropAge_ranges (l : LayerIx) (h : Ranges K L S e) : Ranges K L S (dropAge l e) := { h with }

theorem releaseLayer_ranges (l : LayerIx) (h : Ranges K L S e) : Ranges K L S (releaseLayer l e) := by
  have h1 : Ranges K L S (dropJob l (releaseSlot l e)) := dropJobs_ranges _ (releaseSlot_ranges l h)
  have h2 := dropAge_ranges l (freeChain_ranges l e.layers[l].redo (freeChain_ranges l e.layers[l].undo
    (freeChain_ranges l e.layers[l].cur h1)))
  exact (clearVoice_ranges l h2).modLayer fun _ hr => clearedRecord_inRange hr

theorem emptyLayer_ranges (l : LayerIx) (c : LayerCause) (n : Nat) (h : Ranges K L S e) :
    Ranges K L S (emptyLayer l c n e) :=
  setLayerState_ranges _ _ _ _ (releaseLayer_ranges l h)

theorem disarm_ranges (l : LayerIx) (n : Nat) (h : Ranges K L S e) : Ranges K L S (disarm l n e) :=
  Ranges.ite (setLayerState_ranges _ _ _ _ h.layer) h

theorem setAgeKind_ranges (l : LayerIx) (k : AgeKind) (h : Ranges K L S e) : Ranges K L S (setAgeKind l k e) := { h with }

theorem undoLayer_ranges (l : LayerIx) (h : Ranges K L S e) : Ranges K L S (undoLayer l e) := by
  have h0 := dropJobs_ranges (fun j => j.layer == l && j.kind == .finishCopy) h
  exact Ranges.ite (dropAge_ranges l (freeChain_ranges l e.layers[l].cur h0)).layer (setAgeKind_ranges _ _ h.layer)

theorem redoLayer_ranges (l : LayerIx) (h : Ranges K L S e) : Ranges K L S (redoLayer l e) := setAgeKind_ranges _ _ h.layer

theorem takeSlot_ranges (s : SlotIx) (use : SlotUse) (l : LayerIx) (lane : LaneIx) (start : Option Nat)
    (h : Ranges K L S e) : Ranges K L S (takeSlot s use l lane start e) := by
  have h1 : Ranges K L S (modLayer l (fun r => { r with slot := some s }) (modSlot s (fun sl =>
      { sl with use := use, layer := some l, lane := some lane, start := start, last := none, count := 0,
                first := none, pendingWrites := [] }) e)) := (modSlot_ranges _ _ h).layer
  exact { h1 with cyc := { h1.cyc with } }

/-- From UNSET. -/
theorem startBase_ranges (s : SlotIx) (l : LayerIx) (lane : LaneIx) (n : Nat) (h : Ranges K L (· = .unset) e) :
    Ranges K L anyPhase (startBase s l lane n e) := by
  have h1 := takeSlot_ranges s .base l lane none h
  have h2 : Ranges K L (· = .unset) (modLayer l (fun r => { r with cur := some [] })
    (takeSlot s .base l lane none e)) := h1.layer
  have h3 := setLayerState_ranges l .capturing .cue n h2
  obtain ⟨hbeat, hidle⟩ := h3.cyc.rest (.inl h3.phase)
  unfold startBase
  extract_lets e1 e2 e3
  exact { h3 with
    cyc := { h3.cyc with still := .inl hbeat, base := .inr rfl, splice := .inl hidle }
    phase := trivial }

theorem startFixed_ranges (s : SlotIx) (l : LayerIx) {n : Nat} (hn : legalMultiple n = true) (lane : LaneIx)
    (pages : List Nat) (num : Nat) (h : Ranges K L S e) : Ranges K L S (startFixed s l n lane pages num e) := by
  have h1 : Ranges K L S (modLayer l (fun r => { r with mult := some n, cur := some pages }) e) := by
    refine h.modLayer fun r hr => ?_
    simp only [Layer.inRange, Bool.and_eq_true, Option.all_some] at hr ⊢
    exact ⟨hr.1, hn⟩
  exact captureStops_ranges (setLayerState_ranges _ _ _ _ (takeSlot_ranges _ _ _ _ _ h1))

theorem overdubChains_ranges (l : LayerIx) (n : Nat) (h : Ranges K L S e) : Ranges K L S (overdubChains l n e) := by
  unfold overdubChains
  extract_lets r e1 mem t
  have h1 : Ranges K L S e1 := dropAge_ranges l (freeChain_ranges l r.undo (freeChain_ranges l r.redo h))
  clear_value e1
  have ht : Ranges K L S t.2 := { h1 with }
  exact ht.layer

theorem startOverdub_ranges (s : SlotIx) (l : LayerIx) (lane : LaneIx) {level fb : Nat} (hl : level ≤ 32768)
    (hf : fb ≤ 32768) (n : Nat) (h : Ranges K L S e) : Ranges K L S (startOverdub s l lane level fb n e) := by
  unfold startOverdub
  extract_lets i e1 e2 e3 e4
  have h2 : Ranges K L S e2 := by
    refine (overdubChains_ranges l (pagesFor (layerLen e l)) h).modLayer fun r hr => ?_
    simp only [Layer.inRange, Bool.and_eq_true, between_iff] at hr ⊢
    obtain ⟨⟨⟨⟨hg, hp⟩, _⟩, _⟩, hm⟩ := hr
    exact ⟨⟨⟨⟨hg, hp⟩, Nat.zero_le _, hl⟩, Nat.zero_le _, hf⟩, hm⟩
  have h3 : Ranges K L S e3 := takeSlot_ranges s .overdub l lane none h2
  have h4 : Ranges K L S e4 := leaveSplice_ranges l (captureStops_ranges (setLayerState_ranges _ _ _ _ h3))
  exact modSlot_ranges _ _ h4

theorem importLayer_ranges (l : LayerIx) (n : Nat) (h : Ranges K L S e) : Ranges K L S (importLayer l n e).1 := by
  have h1 := allocChain_ranges (pagesFor (n * e.cyc.c)) h
  unfold importLayer
  split
  · exact h
  next hn =>
    split
    · exact h
    · split
      · exact h
      · split
        next e1 hal =>
          rw [hal] at h1
          dsimp only at h1 ⊢
          exact grantHolds_ranges h1
        next pages e1 hal =>
          rw [hal] at h1
          extract_lets e2
          dsimp only at h1 ⊢
          have h2 : Ranges K L S e2 := by
            refine h1.modLayer fun r hr => ?_
            simp only [Layer.inRange, Bool.and_eq_true, Option.all_some] at hr ⊢
            exact ⟨hr.1, by simpa using hn⟩
          clear_value e2
          exact grantHolds_ranges (setLayerState_ranges _ _ _ _ (addJob_ranges _ _ h2))

end Sys2Proof.Machine
end

section
/-! Ranges, continued: the follower and the cycle clock. -/

set_option Elab.async false

namespace Sys2Proof.Machine

variable {K : PortIx → Prop} {L : Prop} {S : CycleState → Prop} {e : Engine}

/-! ## The follower (R24) -/

theorem Follower.inRange_iff (f : Follower) : f.inRange = true ↔
    f.threshold ≤ 8388607 ∧ (480 ≤ f.holdOff ∧ f.holdOff ≤ 24000) ∧ f.window ≤ 4800 ∧ (1 ≤ f.shift ∧ f.shift ≤ 6)
      ∧ (1 ≤ f.span ∧ f.span ≤ 8) ∧ f.deltaMax ≤ 655 ∧ f.spliceThreshold ≤ 4800 ∧ f.jMax ≤ 960
      ∧ (1 ≤ f.coastBeats ∧ f.coastBeats ≤ 64) ∧ f.delta.natAbs ≤ 655 ∧ f.holdCount ≤ f.holdOff ∧ f.beatCount ≤ 64 := by
  simp only [Follower.inRange, Bool.and_eq_true, between_iff, decide_eq_true_eq]
  omega

/-- The trim stays within the largest one (R31). -/
theorem trimOf_le (f : Follower) (b : Nat) : (trimOf f b).natAbs ≤ f.deltaMax := by
  unfold trimOf clampInt
  split_ifs <;> omega

theorem trimWith_ranges (b : Nat) (h : Ranges K L S e) : Ranges K L S (trimWith b e) := by
  have hfol := h.fol
  have htrim := trimOf_le e.fol b
  refine Ranges.ite { h with fol := ?_ } h
  simp only [Follower.inRange_iff] at hfol ⊢
  omega

theorem followBeat_ranges (h : Ranges K L S e) : Ranges K L S (followBeat e) := by
  refine onFollower_ranges (fun e h => Ranges.ite { h with fol := ?_ } h) h
  have hfol := h.fol
  simp only [Follower.inRange_iff] at hfol ⊢
  omega

theorem coast_ranges (h : Ranges K L S e) : Ranges K L S (coast e) :=
  onFollower_ranges (fun _ h => Ranges.ite (setFollowState_ranges _ _ h) h) h

theorem followLapse_ranges (c : FollowCause) (h : Ranges K L S e) : Ranges K L S (followLapse c e) :=
  onFollower_ranges (fun _ h => Ranges.ite (setFollowState_ranges _ _ h) h) h

theorem clearDecision_ranges (h : Ranges K L S e) : Ranges K L S (clearDecision e) :=
  onFollower_ranges (fun _ h => { h with }) h

theorem noteGrid_ranges (h : Ranges K L S e) : Ranges K L S (noteGrid e) := { h with cyc := { h.cyc with } }

theorem acceptOnset_ranges (err : Int) (b : Nat) (h : Ranges K L S e) : Ranges K L S (acceptOnset err b e) := by
  have h1 : Ranges K L S { e with fol := { e.fol with
      err := filterError e.fol.err err e.fol.shift, state := .tracking, beatCount := 0, coastDue := false } } := by
    have hfol := h.fol
    refine { h with fol := ?_ }
    simp only [Follower.inRange_iff] at hfol ⊢
    omega
  exact trimWith_ranges b (Ranges.ite (post_ranges _ h1) h1)

theorem measureOnset_ranges (k : OnsetKind) (h : Ranges K L S e) : Ranges K L S (measureOnset k e) :=
  onFollower_ranges (fun e h => by
    dsimp only
    split
    · exact h
    · exact Ranges.ite (acceptOnset_ranges _ _ { h with }) { h with }) h

theorem detect_ranges (h : Ranges K L S e) : Ranges K L S (detect e).1 := by
  have hfol := h.fol
  unfold detect
  split
  · exact h
  · split
    · refine { h with fol := ?_ }
      simp only [Follower.inRange_iff] at hfol ⊢
      omega
    · split
      · refine { h with fol := ?_ }
        simp only [Follower.inRange_iff] at hfol ⊢
        omega
      · exact h

theorem decideSplice_ranges (h : Ranges K L S e) : Ranges K L S (decideSplice e) :=
  Ranges.ite h (Ranges.ite { h with } (requestSplice_ranges _ { h with }))

theorem followJump_ranges (j : Int) (h : Ranges K L S e) : Ranges K L S (followJump j e) :=
  Ranges.ite (trimWith_ranges _ { h with }) h

theorem restDetector_inRange {f : Follower} (h : f.inRange = true) (held : Bool) :
    Follower.inRange { f.restDetector with held := held } = true := by
  simp only [Follower.restDetector, Follower.inRange_iff] at h ⊢
  omega

/-- The parameters of a FOLLOW_SET are in range with any hold-off count up to the new H. -/
theorem followParams_inRange (p : List Byte) {f : Follower} (h : f.inRange = true) {n : Nat}
    (hn : n ≤ (followParams p f).holdOff) : Follower.inRange { followParams p f with holdCount := n } = true := by
  have hthreshold := clampNat_range (lo := 0) (hi := 8388607) (by omega) (fieldAt p 1 4)
  have hholdOff := clampNat_range (lo := 480) (hi := 24000) (by omega) (fieldAt p 5 2)
  have hwindow := clampNat_range (lo := 0) (hi := 4800) (by omega) (fieldAt p 7 2)
  have hshift := clampNat_range (lo := 1) (hi := 6) (by omega) (fieldAt p 9 1)
  have hspan := clampNat_range (lo := 1) (hi := 8) (by omega) (fieldAt p 10 1)
  have hdelta := clampNat_range (lo := 0) (hi := 655) (by omega) (fieldAt p 11 2)
  have hsplice := clampNat_range (lo := 0) (hi := 4800) (by omega) (fieldAt p 13 2)
  have hjump := clampNat_range (lo := 0) (hi := 960) (by omega) (fieldAt p 15 2)
  have hcoast := clampNat_range (lo := 1) (hi := 64) (by omega) (fieldAt p 17 1)
  simp only [followParams, Follower.inRange_iff] at h hn ⊢
  omega

theorem lowerHoldOff_ranges (h : Ranges K L S e) : Ranges K L S (lowerHoldOff e) := by
  have hfol := h.fol
  unfold lowerHoldOff
  refine { h with fol := ?_ }
  simp only [Follower.inRange_iff] at hfol ⊢
  omega

theorem setFollower_ranges (p : List Byte) (src : BeatSource) (h : Ranges K L S e) :
    Ranges K L S (setFollower p src e) := by
  refine onFollower_ranges (fun e h => trimWith_ranges _ ?_) h
  unfold changeSource
  split
  · exact { h with fol := followParams_inRange p h.fol (Nat.min_le_right _ _) }
  · have h1 : Ranges K L S { e with fol := { (followParams p e.fol).restDetector with source := src } } :=
      { h with fol := followParams_inRange p h.fol (Nat.zero_le _) }
    exact lowerHoldOff_ranges (setFollowState_ranges _ _ h1)

theorem followSet_ranges (p : List Byte) (h : Ranges K L S e) : Ranges K L S (followSet p e).1 := by
  unfold followSet
  split
  · exact h
  · split
    · exact h
    · split
      · exact h
      · exact setFollower_ranges p _ h

theorem holdFollower_ranges (h : Ranges K L S e) : Ranges K L S (holdFollower e) :=
  onFollower_ranges (fun _ h => Ranges.ite h
    (setFollowState_ranges _ _ { h with fol := restDetector_inRange h.fol _ })) h

theorem releaseFollower_ranges (h : Ranges K L S e) : Ranges K L S (releaseFollower e) := by
  refine onFollower_ranges (fun e h => ?_) h
  have h1 : Ranges K L S { e with fol := { e.fol.restDetector with held := false } } :=
    { h with fol := restDetector_inRange h.fol _ }
  exact Ranges.ite (Ranges.ite h1 (setFollowState_ranges _ _ h1)) h

/-! ## Boundaries (R14 to R17, R68) -/

theorem count_inRange (b : Boundary) (wave : Nat) {c : Cue} (h : c.inRange = true) : (c.count b wave).inRange = true := by
  unfold Cue.count
  split
  · simp only [Cue.inRange, Bool.and_eq_true, between_iff] at h ⊢
    obtain ⟨⟨⟨hn, hr⟩, hd⟩, ha⟩ := h
    exact ⟨⟨⟨hn, by omega⟩, hd⟩, ha⟩
  · exact h

theorem countList_inRange (b : Boundary) : ∀ (wave : Nat) {list : List Cue},
    list.all Cue.inRange = true → (countList b wave list).all Cue.inRange = true
  | _, [], h => h
  | wave, c :: rest, h => by
    simp only [List.all_cons, Bool.and_eq_true] at h
    simp only [countList, List.all_cons, Bool.and_eq_true]
    exact ⟨count_inRange b wave h.1, countList_inRange b _ h.2⟩

/-- The cues of a queue in range that keep their ranges. -/
theorem CueQueue.inRange_list {q : CueQueue} (h : q.inRange = true) {cs : List Cue} (hcs : cs.all Cue.inRange = true) :
    CueQueue.inRange { q with list := cs } = true := by
  simp only [CueQueue.inRange, Bool.and_eq_true] at h ⊢
  exact ⟨h.1, hcs⟩

theorem CueQueue.inRange_all {q : CueQueue} (h : q.inRange = true) : q.list.all Cue.inRange = true := by
  simp only [CueQueue.inRange, Bool.and_eq_true] at h
  exact h.2

theorem countCues_ranges (b : Boundary) (w : Nat) (h : Ranges K L S e) : Ranges K L S (countCues b w e) := by
  refine { h with cues := CueQueue.inRange_list h.cues (countList_inRange b w (CueQueue.inRange_all h.cues)), heard := ?_ }
  have hheard := h.heard
  cases hh : e.heard with
  | none => simp [countCues, hh]
  | some hd =>
    simp only [hh, Option.all_some, Heard.inRange, Bool.and_eq_true] at hheard
    simp only [countCues, hh, Option.map_some, Option.all_some, Heard.inRange, Bool.and_eq_true]
    exact ⟨hheard.1, countList_inRange b w hheard.2⟩

theorem beatBoundary_ranges (w : Nat) (h : Ranges K L S e) : Ranges K L S (beatBoundary w e) :=
  followBeat_ranges (countCues_ranges _ w (post_ranges _ h))

theorem bareBoundary_ranges (w : Nat) (h : Ranges K L S e) : Ranges K L S (bareBoundary w e) :=
  beatBoundary_ranges w (countCues_ranges _ w { h with })

theorem cycleBoundary_ranges (w : Nat) (h : Ranges K L S e) : Ranges K L S (cycleBoundary w e) :=
  eachLayer_induct (fun _ _ h => Ranges.ite (countCues_ranges _ w (post_ranges _ h)) h) (bareBoundary_ranges w h)

/-! ## The advance (R13, R15, R19) -/

/-- The cycle runs. -/
abbrev isRunning : CycleState → Prop := fun st => st = .running

theorem fireBeats_ranges (q : Nat) : ∀ (fuel : Nat) {e : Engine}, Ranges K L isRunning e →
    Ranges K L isRunning (fireBeats q fuel e)
  | 0, _, h => h
  | fuel + 1, e, h => by
    unfold fireBeats
    split
    next hc =>
      exact fireBeats_ranges q fuel
        (beatBoundary_ranges 0 { h with cyc := { h.cyc with beat := hc.1, still := .inr (.inl h.phase) } })
    · exact h

theorem bringBeats_ranges (q : Nat) (h : Ranges K L isRunning e) : Ranges K L isRunning (bringBeats q e) :=
  fireBeats_ranges q _ h

/-- The position moves by at most two frames (R13). -/
theorem advance_bounds {c : Cycle} (h : c.frac < 65536) {delta : Int} (hd : delta.natAbs ≤ 655) :
    (c.advance delta).p ≤ c.p + 2 ∧ (c.advance delta).frac < 65536 := by
  simp only [Cycle.advance]
  omega

/-- The wrap brings the position below C again (R15). -/
theorem wrap_ranged {c : Cycle} (h : c.Ranged) {delta : Int} (hd : delta.natAbs ≤ 655) (busy : Bool) :
    ((c.advance delta).wrap busy).Ranged := by
  obtain ⟨hp, hf⟩ := advance_bounds h.frac hd
  have hbeats : 1 ≤ c.pendingBeats.getD c.beats ∧ c.pendingBeats.getD c.beats ≤ 32 := by
    cases hb : c.pendingBeats with
    | none => exact h.beats
    | some b => exact h.pending b hb
  refine { beats := hbeats, pending := fun b hb => (nomatch hb), beat := hbeats.1, still := .inl rfl, base := h.base,
           splice := h.splice, len := fun n hn => ?_, frac := hf, m := ?_, k := ?_ }
  · obtain ⟨hmin, hlt⟩ := h.len n hn
    have hc : (c.advance delta).c = n := by
      have : (c.advance delta).len = some n := hn
      simp [Cycle.c, this]
    refine ⟨hmin, ?_⟩
    show (c.advance delta).p - (c.advance delta).c < n
    simp only [Config.minCycle] at hmin
    omega
  · exact Nat.mod_lt _ (by omega)
  · exact Nat.mod_lt _ (by omega)

/-- An advance that does not reach C leaves the cycle clock in range. -/
theorem advance_ranged {c : Cycle} (h : c.Ranged) {delta : Int} (hd : delta.natAbs ≤ 655)
    (hlt : ¬ (c.advance delta).c ≤ (c.advance delta).p) : (c.advance delta).Ranged := by
  refine { h with len := fun n hn => ⟨(h.len n hn).1, ?_⟩, frac := (advance_bounds h.frac hd).2 }
  have hc : (c.advance delta).c = n := by simp [Cycle.c, hn]
  omega

theorem wrapCycle_ranges (h : Ranges K L S { e with cyc := e.cyc.wrap (slotBusy e) }) : Ranges K L S (wrapCycle e) := by
  have h2 := clearDecision_ranges (abandonSplice_ranges .cycleEnd h)
  exact cycleBoundary_ranges 0 (Ranges.ite (trimWith_ranges _ h2) h2)

theorem takeJump_ranges (h : Ranges K L S e) : Ranges K L S (takeJump e).1 := by
  unfold takeJump
  split
  next r hr =>
    split
    · exact abandonSplice_ranges _ h
    next hlt =>
      refine { h with cyc := { h.cyc with splice := .inr (h.running (by simp [hr])), len := fun n hn => ?_ } }
      obtain ⟨hmin, hp⟩ := h.cyc.len n hn
      have hc : e.cyc.c = n := by
        have : e.cyc.len = some n := hn
        simp [Cycle.c, this]
      refine ⟨hmin, ?_⟩
      show ((e.cyc.p : Int) - r.j).toNat < n
      simp only [Config.minCycle] at hmin
      omega
  · exact h

theorem landJump_ranges (r : SpliceRec) (h : Ranges K L isRunning e) : Ranges K L isRunning (landJump r e) :=
  eachLayer_induct (fun v _ h => jumpVoice_ranges r v h)
    (post_ranges _ (followJump_ranges r.j (bringBeats_ranges _ h)))

theorem delta_le (h : Ranges K L S e) : e.fol.delta.natAbs ≤ 655 := by
  have hfol := h.fol
  simp only [Follower.inRange_iff] at hfol
  omega

theorem advanceCycle_ranges (jump : Bool) (h : Ranges K L isRunning e) : Ranges K L isRunning (advanceCycle jump e) := by
  have hd := delta_le h
  unfold advanceCycle
  extract_lets e1 q out e2 e3
  split
  · exact wrapCycle_ranges { h with cyc := wrap_ranged h.cyc hd _ }
  next hlt =>
    have h1 : Ranges K L isRunning e1 := { h with cyc := advance_ranged h.cyc hd hlt }
    have hout : Ranges K L isRunning out.1 := by
      unfold out
      split
      · exact takeJump_ranges h1
      · exact h1
    clear_value out
    have h2 : Ranges K L isRunning e2 := bringBeats_ranges _ hout
    have h3 : Ranges K L isRunning e3 := Ranges.ite (decideSplice_ranges h2) h2
    clear_value e3
    split
    · exact h3
    · exact landJump_ranges _ h3

/-! ## Starting, pausing and clearing a cycle (R5 to R10) -/

/-- A cycle of at least 4,800 frames starts. -/
theorem startCycle_ranges {len : Nat} (hlen : Config.minCycle ≤ len) (h : Ranges K L S e) :
    Ranges K L isRunning (startCycle len e) := by
  refine clearDecision_ranges { h with cyc := ?_, phase := rfl }
  exact { h.cyc with
    beat := h.cyc.beats.1, still := .inl rfl, base := .inl rfl, splice := .inr rfl
    len := fun n hn => by
      obtain rfl : len = n := by simpa [Cycle.start] using hn
      refine ⟨hlen, ?_⟩
      simp only [Config.minCycle] at hlen
      exact Nat.lt_of_lt_of_le (by decide : 0 < 4800) hlen
    frac := (by decide : 0 < 65536), m := (by decide : 0 < 24), k := (by decide : 0 < 4294967296) }

theorem closeBase_ranges (l : LayerIx) {count : Nat} (hcount : Config.minCycle ≤ count) (c : LayerCause) (n w : Nat)
    (h : Ranges K L S e) : Ranges K L isRunning (closeBase l count c n w e) := by
  unfold closeBase
  extract_lets e1 e2
  have h1 : Ranges K L isRunning e1 := startCycle_ranges hcount (endSlot_ranges l h)
  clear_value e1
  have h2 : Ranges K L isRunning (modLayer l (fun r => { r with mult := some 1 }) e1) := by
    refine h1.modLayer fun r hr => ?_
    simp only [Layer.inRange, Bool.and_eq_true, Option.all_some] at hr ⊢
    exact ⟨hr.1, rfl⟩
  exact post_ranges _ (cycleBoundary_ranges w (playVoice_ranges l (setLayerState_ranges _ _ _ _ h2)))

/-- From BASE_CAPTURE. -/
theorem leaveBase_ranges (h : Ranges K L (· = .baseCapture) e) : Ranges K L anyPhase (leaveBase e) := by
  obtain ⟨hbeat, hidle⟩ := h.cyc.rest (.inr h.phase)
  refine clearDecision_ranges (followLapse_ranges _ { h with cyc := ?_, phase := trivial })
  exact { h.cyc with still := .inl hbeat, base := .inl rfl, splice := .inl hidle }

theorem autoClose_ranges (h : Ranges K L S e) : Ranges K L anyPhase (autoClose e) := by
  unfold autoClose
  split
  next hdue =>
    split
    next l n hb =>
      have hn : Config.maxCycle ≤ n := by
        simp only [autoCloseDue, hb, Bool.and_eq_true, decide_eq_true_eq] at hdue
        exact hdue.2
      have hmin : Config.minCycle ≤ n := by simp only [Config.maxCycle, Config.minCycle] at hn ⊢; omega
      exact grantHolds_ranges (noteGrid_ranges (closeBase_ranges l hmin .autoClose 0 0 h).any)
    · exact h.any
  · exact h.any

/-- From RUNNING. -/
theorem enterPaused_ranges (h : Ranges K L isRunning e) : Ranges K L anyPhase (enterPaused e) := by
  have hbase : e.cyc.base = none := h.cyc.base.resolve_right fun hb => absurd (h.phase.symm.trans hb) (by decide)
  refine followLapse_ranges _ (endSplice_ranges _ { h with cyc := ?_, phase := trivial })
  exact { h.cyc with still := .inr (.inr rfl), base := .inl hbase, splice := .inl rfl }

theorem returnToUnset_ranges (h : Ranges K L S e) : Ranges K L anyPhase (returnToUnset e) := by
  refine post_ranges _ (clearDecision_ranges (followLapse_ranges _ (endSplice_ranges _
    { h with cyc := ?_, phase := trivial })))
  have hbeats : 1 ≤ e.cyc.pendingBeats.getD e.cyc.beats ∧ e.cyc.pendingBeats.getD e.cyc.beats ≤ 32 := by
    cases hb : e.cyc.pendingBeats with
    | none => exact h.cyc.beats
    | some b => exact h.cyc.pending b hb
  exact
    { beats := hbeats, pending := fun b hb => (nomatch hb), beat := hbeats.1, still := .inl rfl, base := .inl rfl,
      splice := .inl rfl, len := fun n hn => (nomatch hn), frac := (by decide : 0 < 65536), m := (by decide : 0 < 24),
      k := (by decide : 0 < 4294967296) }

/-- From PAUSED. -/
theorem resume_ranges (h : Ranges K L S e) (hp : e.cyc.state = .paused) :
    Ranges K L anyPhase (setCycleState .running e) := by
  have hbase : e.cyc.base = none := h.cyc.base.resolve_right fun hb => absurd (hp.symm.trans hb) (by decide)
  refine { h with cyc := ?_, phase := trivial }
  exact { h.cyc with still := .inr (.inl rfl), base := .inl hbase, splice := .inr rfl }

theorem handOnset_ranges (k : OnsetKind) (h : Ranges K L S e) : Ranges K L anyPhase (handOnset k e) :=
  measureOnset_ranges k (countCues_ranges _ 0 (coast_ranges (autoClose_ranges h)))

theorem handTaps_ranges : ∀ (n : Nat) {e : Engine}, Ranges K L anyPhase e → Ranges K L anyPhase (handTaps n e)
  | 0, _, h => h
  | n + 1, _, h => handTaps_ranges n (handOnset_ranges .tap h)

end Sys2Proof.Machine
end

section
/-! Ranges, continued: the pedals, the mixer, the ports and the lanes. -/

set_option Elab.async false

namespace Sys2Proof.Machine

variable {K : PortIx → Prop} {L : Prop} {S : CycleState → Prop} {e : Engine}

/-! ## The mixer (R136, R141, R142) -/

theorem Mixer.inRange_iff (mx : Mixer) : mx.inRange = true ↔
    mx.master ≤ 8191 ∧ (32 ≤ mx.fade ∧ mx.fade ≤ 4096) ∧ (32 ≤ mx.cross ∧ mx.cross ≤ 256)
      ∧ ∀ i : LaneIx, mx.live[i].inRange = true := by
  simp only [Mixer.inRange, Bool.and_eq_true, between_iff, List.all_eq_true]
  exact ⟨fun ⟨⟨⟨hm, hf⟩, hc⟩, hl⟩ => ⟨hm.2, hf, hc, fun i => hl i (mem_quadIxs i)⟩,
    fun ⟨hm, hf, hc, hl⟩ => ⟨⟨⟨⟨Nat.zero_le _, hm⟩, hf⟩, hc⟩, fun i _ => hl i⟩⟩

/-- A walk over the live values keeps what each of its steps keeps. -/
theorem Mixer.inRange_walk {mx : Mixer} (h : mx.inRange = true) {f : LaneIx → Live → Live}
    (hf : ∀ i v, v.inRange = true → (f i v).inRange = true) :
    Mixer.inRange { mx with live := quadIxs.foldl (fun lv i => upd lv i (f i)) mx.live } = true := by
  rw [Mixer.inRange_iff] at h ⊢
  obtain ⟨hm, hfade, hc, hl⟩ := h
  refine ⟨hm, hfade, hc, fun i => ?_⟩
  have := foldl_quadIxs_get f mx.live i
  simp only [Fin.getElem_fin] at this ⊢
  rw [this]
  exact hf i _ (hl i)

theorem modLive_ranges {l : LaneIx} {f : Live → Live} (hf : ∀ v : Live, v.inRange = true → (f v).inRange = true)
    (h : Ranges K L S e) : Ranges K L S (modLive l f e) := by
  have hmix := h.mix
  refine { h with mix := ?_ }
  rw [Mixer.inRange_iff] at hmix ⊢
  obtain ⟨hm, hfade, hc, hl⟩ := hmix
  refine ⟨hm, hfade, hc, fun i => ?_⟩
  simp only [modLive, Fin.getElem_fin, upd_get]
  split
  · exact hf _ (hl i)
  · exact hl i

theorem stepLive_ranges (h : Ranges K L S e) : Ranges K L S (stepLive e) := by
  refine { h with mix := Mixer.inRange_walk h.mix fun i v hv => ?_ }
  simp only [Live.inRange, Bool.and_eq_true, between_iff] at hv ⊢
  obtain ⟨⟨hgp, henv⟩, htarget⟩ := hv
  exact ⟨⟨hgp, Nat.zero_le _, envStep_le htarget.2 henv.2⟩, htarget⟩

theorem clipWindowEnd_ranges (h : Ranges K L S e) : Ranges K L S (clipWindowEnd e) := Ranges.ite { h with } h

theorem muteOutput_ranges (h : Ranges K L S e) : Ranges K L S (muteOutput e) := { h with }

theorem mixFrame_ranges (h : Ranges K L S e) : Ranges K L S (mixFrame e) := by
  have h1 := stepLive_ranges h
  unfold mixFrame
  extract_lets e1
  have h2 : Ranges K L S e1 := h1
  clear_value e1
  exact Ranges.ite { h2 with } { h2 with }

theorem shift_inRange (d : Int) (w : Nat × Nat) (mx : Mixer) : (mx.shift d w).inRange = mx.inRange := by
  unfold Mixer.shift
  split <;> rfl

theorem shiftMix_ranges (d : Int) (w : Nat × Nat) (h : Ranges K L S e) :
    Ranges K L S { e with mix := e.mix.shift d w } := { h with mix := (shift_inRange d w e.mix).trans h.mix }

theorem recoverFrame_ranges (l : LayerIx) (h : Ranges K L S e) : Ranges K L S (recoverFrame l e) := by
  unfold recoverFrame
  extract_lets e1
  have h1 : Ranges K L S e1 := recoverDone_ranges l h
  clear_value e1
  exact Ranges.ite (shiftMix_ranges _ _ h1) h1

/-! ## The pedals (R159, R161) -/

theorem Pedals.inRange_iff (p : Pedals) : p.inRange = true ↔
    p.count < 32 ∧ (∀ i : PedalIx, p.chan[i].raw ≤ 1023 ∧ p.chan[i].smooth ≤ 1023)
      ∧ ∀ i : MapIx, p.map[i].all Mapping.inRange = true := by
  simp only [Pedals.inRange, Bool.and_eq_true, between_iff, List.all_eq_true, decide_eq_true_eq]
  exact ⟨fun ⟨⟨hc, hch⟩, hm⟩ =>
      ⟨hc, fun i => ⟨(hch i (mem_quadIxs i)).1.2, (hch i (mem_quadIxs i)).2.2⟩, fun i => hm i (mem_mapIxs i)⟩,
    fun ⟨hc, hch, hm⟩ =>
      ⟨⟨hc, fun i _ => ⟨⟨Nat.zero_le _, (hch i).1⟩, Nat.zero_le _, (hch i).2⟩⟩, fun i _ => hm i⟩⟩

theorem modMap_ranges {i : MapIx} {f : Option Mapping → Option Mapping}
    (hf : ∀ m : Option Mapping, m.all Mapping.inRange = true → (f m).all Mapping.inRange = true)
    (h : Ranges K L S e) : Ranges K L S (modMap i f e) := by
  have hped := h.ped
  refine { h with ped := ?_ }
  rw [Pedals.inRange_iff] at hped ⊢
  obtain ⟨hc, hch, hm⟩ := hped
  refine ⟨hc, hch, fun j => ?_⟩
  simp only [modMap, Fin.getElem_fin, upd_get]
  split
  · exact hf _ (hm j)
  · exact hm j

theorem writeTarget_ranges {t : PedalTarget} {v : Nat} (hv : v ≤ t.top) (h : Ranges K L S e) :
    Ranges K L S (writeTarget t v e) := by
  have hlayer : ∀ {l : LayerIx} {f : Layer → Layer}, (∀ r : Layer, r.inRange = true → (f r).inRange = true) →
      Ranges K L S (modLayer l f e) := fun hf => h.modLayer hf
  cases t with
  | layerGain l | layerPan l | overdubLevel l | overdubFeedback l =>
    refine h.modLayer fun r hr => ?_
    simp only [Layer.inRange, Bool.and_eq_true, between_iff, PedalTarget.top] at hr hv ⊢
    simp [hr, hv]
  | liveGain l | livePan l =>
    refine modLive_ranges (fun x hx => ?_) h
    simp only [Live.inRange, Bool.and_eq_true, between_iff, PedalTarget.top] at hx hv ⊢
    simp [hx, hv]
  | masterGain =>
    have hmix := h.mix
    refine { h with mix := ?_ }
    rw [Mixer.inRange_iff] at hmix ⊢
    exact ⟨hv, hmix.2⟩

theorem applyEntry_ranges (i : MapIx) (h : Ranges K L S e) : Ranges K L S (applyEntry i e) := by
  obtain ⟨_, hch, hm⟩ := (Pedals.inRange_iff _).mp h.ped
  unfold applyEntry
  split
  · exact h
  next m hmi =>
    have hin := hm i
    rw [hmi, Option.all_some] at hin
    have hv := (hch m.channel).2
    have hle := (m.value_eq_and_le hv).2
    simp only [Mapping.inRange, Bool.and_eq_true, between_iff] at hin
    obtain ⟨⟨⟨hlow, hhigh⟩, hband⟩, _⟩ := hin
    have hvalue : m.value e.ped.chan[m.channel].smooth ≤ m.target.top := hle.trans (Nat.max_le.mpr ⟨hlow.2, hhigh.2⟩)
    refine Ranges.ite (modMap_ranges (fun _ _ => ?_) (writeTarget_ranges hvalue h)) h
    simp only [Option.all_some, Mapping.inRange, Bool.and_eq_true, between_iff]
    exact ⟨⟨⟨hlow, hhigh⟩, hband⟩, Nat.zero_le _, hv⟩

theorem convert_le {c : Pedal} (hc : c.smooth ≤ 1023) (x : BitVec 10) :
    (c.convert x.toNat).raw ≤ 1023 ∧ (c.convert x.toNat).smooth ≤ 1023 := by
  have hx : x.toNat ≤ 1023 := by have := x.isLt; omega
  refine ⟨hx, ?_⟩
  cases hs : c.seed with
  | true => rw [Pedal.convert_smooth_seeded hs]; exact hx
  | false =>
    have := Pedal.convert_smooth_unseeded hs x.toNat
    omega

theorem convertAll_ranges (pins : Vector (BitVec 10) 4) (h : Ranges K L S e) : Ranges K L S (convertAll pins e) := by
  have hped := h.ped
  refine { h with ped := ?_ }
  rw [Pedals.inRange_iff] at hped ⊢
  obtain ⟨hc, hch, hm⟩ := hped
  refine ⟨hc, fun i => ?_, hm⟩
  have := foldl_quadIxs_get (fun i : Fin 4 => Pedal.convert pins[i].toNat) e.ped.chan i
  simp only [convertAll, Fin.getElem_fin] at this ⊢
  rw [this]
  exact convert_le (hch i).2 _

theorem samplingEvent_ranges (pins : Vector (BitVec 10) 4) (h : Ranges K L S e) : Ranges K L S (samplingEvent pins e) := by
  unfold samplingEvent
  split
  · extract_lets ped e1
    have h1 : Ranges K L S e1 := { h with due := .inr rfl }
    exact Ranges.ite h1 (foldl_induct (fun i _ h => applyEntry_ranges i h) mapIxs (convertAll_ranges pins h1))
  · exact h

theorem applyEntry_due (i : MapIx) (e : Engine) : (applyEntry i e).ped.due = e.ped.due := by
  obtain he | ⟨t, v, m, he⟩ := applyEntry_cases i e
  · rw [he]
  · rw [he]; cases t <;> rfl

theorem applyEntries_due : ∀ (is : List MapIx) (e : Engine),
    (is.foldl (fun e i => applyEntry i e) e).ped.due = e.ped.due
  | [], _ => rfl
  | i :: is, e => (applyEntries_due is (applyEntry i e)).trans (applyEntry_due i e)

theorem samplingEvent_due (pins : Vector (BitVec 10) 4) (e : Engine) : (samplingEvent pins e).ped.due = false := by
  unfold samplingEvent
  split
  · dsimp only
    split
    · rfl
    · rw [applyEntries_due]
      rfl
  next h => simpa using h

/-- A frame runs, so the PLL is LOCKED. -/
theorem tickSampling_ranges (h : Ranges K True S e) : Ranges K True S (tickSampling e) := by
  have hped := h.ped
  rw [Pedals.inRange_iff] at hped
  obtain ⟨hc, hch, hm⟩ := hped
  unfold tickSampling
  split
  · exact { h with
      ped := (Pedals.inRange_iff _).mpr ⟨(by decide : 0 < 32), hch, hm⟩, due := .inl (h.clocked trivial) }
  · exact { h with ped := (Pedals.inRange_iff _).mpr ⟨(by omega : e.ped.count + 1 < 32), hch, hm⟩ }

theorem tickGrant_ranges (h : Ranges K L S e) : Ranges K L S (tickGrant e) := { h with }

theorem releasePedals_ranges (h : Ranges K L S e) : Ranges K L S (releasePedals e) := by
  have hped := h.ped
  refine Ranges.ite { h with ped := ?_ } h
  rw [Pedals.inRange_iff] at hped ⊢
  obtain ⟨hc, hch, hm⟩ := hped
  refine ⟨hc, fun i => ?_, hm⟩
  have := foldl_quadIxs_get (fun (_ : Fin 4) (c : Pedal) => { c with seed := true }) e.ped.chan i
  simp only [Fin.getElem_fin] at this ⊢
  rw [this]
  exact hch i

/-! ## A detector onset taken back (entry 51) -/

theorem uncount_inRange {without : List Cue} (hw : without.all Cue.inRange = true) {c : Cue} (h : c.inRange = true) :
    (c.uncount without).inRange = true := by
  unfold Cue.uncount
  split
  next w hfind =>
    split
    · exact h
    · exact List.all_eq_true.mp hw w (List.mem_of_find?_eq_some hfind)
  · exact h

theorem unhear_ranges {hd : Heard} (hh : hd.inRange = true) (h : Ranges K L S e) : Ranges K L S (unhear hd e) := by
  simp only [Heard.inRange, Bool.and_eq_true] at hh
  have hcues : (e.cues.list.map (Cue.uncount hd.cues)).all Cue.inRange = true := by
    have hall := CueQueue.inRange_all h.cues
    simp only [List.all_map, List.all_eq_true, Function.comp] at hall ⊢
    exact fun c hc => uncount_inRange hh.2 (hall c hc)
  exact { h with fol := hh.1, cues := CueQueue.inRange_list h.cues hcues, heard := rfl }

theorem deafen_ranges (l : LaneIx) (h : Ranges K L S e) : Ranges K L S (deafen l e) := by
  unfold deafen
  split
  next hd hhd =>
    have hh := h.heard
    rw [hhd, Option.all_some] at hh
    exact Ranges.ite (unhear_ranges hh h) h
  · exact h

theorem silenceLane_ranges (l : LaneIx) (h : Ranges K L S e) : Ranges K L S (silenceLane l e) := by
  have h0 := deafen_ranges l h
  unfold silenceLane
  extract_lets e0 ln e1 e2
  have h1 : Ranges K L S e1 := by
    refine Ranges.modLane (fun n hn => ?_) h0
    simp only [Lane.inRange, Bool.and_eq_true, between_iff] at hn ⊢
    exact ⟨⟨hn.1.1, hn.2⟩, hn.2⟩
  clear_value e1
  have h2 : Ranges K L S e2 := eachSlot_induct (fun s _ h => modSlot_ranges s _ h) h1
  clear_value e2
  exact shiftMix_ranges _ _ h2

theorem silenceLanes_ranges (p : PortIx) (h : Ranges K L S e) : Ranges K L S (silenceLanes p e) :=
  eachQuad_induct (fun l _ h => Ranges.ite (silenceLane_ranges l h) h) h

/-! ## Ports and the clock (R143 to R153) -/

theorem Port.ranged_iff (k : Prop) (q : Port) : q.Ranged k ↔
    (2 ≤ q.fill ∧ q.fill ≤ 14) ∧ q.buf.length ≤ 16 ∧ q.good ≤ 8 ∧ q.bad ≤ 4 ∧ (k → q.lock = .locked → q.bad < 4) := by
  simp only [Port.Ranged, Port.inRange, Bool.and_eq_true, between_iff, decide_eq_true_eq, and_assoc]

/-- A change of a port's unranged fields. -/
theorem Ranges.port {p : PortIx} {f : Port → Port} (h : Ranges K L S e)
    (hf : ∀ q : Port, q.Ranged (K p) → (f q).Ranged (K p) := by intro _ hq; exact hq) :
    Ranges K L S (Machine.modPort p f e) := h.modPort hf

theorem emptyBuffer_ranged {k : Prop} {q : Port} (h : q.Ranged k) (filling slipEnds : Bool) (r : Recovery) (n : Nat) :
    Port.Ranged k { q with buf := [], filling := filling, recovery := r, slip := n, slipEnds := slipEnds } := by
  rw [Port.ranged_iff] at h ⊢
  exact ⟨h.1, Nat.zero_le _, h.2.2⟩

theorem adoptPort0_ranges (c : ClockCause) (h : Ranges K L S e) : Ranges K L S (adoptPort0 c e) := by
  have h1 : Ranges K L S { e with clk := { e.clk with active := .port0 } } := { h with }
  exact post_ranges _ (h1.modPort fun q hq => emptyBuffer_ranged hq _ _ _ _)

theorem fallback_ranges (h : Ranges K L S e) : Ranges K L S (fallback e) := post_ranges _ { h with }

theorem dropWaiting_ranges (p : PortIx) (h : Ranges K L S e) : Ranges K L S (dropWaiting p e) := Ranges.ite { h with } h

theorem endRecovery_ranges (p : PortIx) (h : Ranges K L S e) : Ranges K L S (endRecovery p e) :=
  Ranges.ite h (post_ranges _ h.port)

theorem emptied_ranged {k j : Prop} {q : Port} (h : q.Ranged k) (lock : Lock) (seen : Bool) :
    Port.Ranged j { q.emptied with lock := lock, markerSeen := seen } := by
  rw [Port.ranged_iff] at h ⊢
  exact ⟨h.1, Nat.zero_le _, Nat.zero_le _, Nat.zero_le _, fun _ _ => (by decide : 0 < 4)⟩

theorem dropLock_ranges (p : PortIx) (k : Lock) (h : Ranges K L S e) : Ranges K L S (dropLock p k e) := by
  unfold dropLock
  split
  · exact h
  · extract_lets e1 e2
    have h1 : Ranges K L S e1 := (endRecovery_ranges p h).modPort fun q hq => emptied_ranged hq _ _
    clear_value e1
    have h2 : Ranges K L S e2 := post_ranges _ (dropWaiting_ranges p (silenceLanes_ranges p h1))
    exact Ranges.ite (Ranges.ite (fallback_ranges h2) h2) (post_ranges _ h1)

theorem acquireLock_ranges (p : PortIx) (h : Ranges K L S e) : Ranges K L S (acquireLock p e) := by
  unfold acquireLock
  split
  · extract_lets e1
    have h1 : Ranges K L S e1 := by
      refine post_ranges _ (h.modPort fun q hq => ?_)
      rw [Port.ranged_iff] at hq ⊢
      obtain ⟨hfill, _, hgood, _, _⟩ := hq
      exact ⟨hfill, Nat.zero_le _, hgood, Nat.zero_le _, fun _ _ => (by decide : 0 < 4)⟩
    exact Ranges.ite (adoptPort0_ranges _ h1) h1
  · exact h

theorem search_ranged {k : Prop} (good : Bool) {q : Port} (h : q.Ranged k) : (q.search good).Ranged k := by
  rw [Port.ranged_iff] at h ⊢
  obtain ⟨hfill, hbuf, _, hbad, hcalm⟩ := h
  refine ⟨hfill, hbuf, ?_, hbad, hcalm⟩
  unfold Port.search
  dsimp only
  split <;> omega

/-- The frames of P0 that wait as it loses its lock are judged for its good run. -/
theorem searches_ranged {k : Prop} : ∀ (ws : List (Option (Sample × Sample))) {q : Port}, q.Ranged k →
    (ws.foldl (fun q w => q.search w.isSome) q).Ranged k
  | [], _, h => h
  | w :: ws, _, h => searches_ranged ws (search_ranged w.isSome h)

theorem loseLock_ranges (p : PortIx) (h : Ranges K L S e) : Ranges K L S (loseLock p e) :=
  Ranges.ite ((dropLock_ranges p .searching h).modPort fun _ hq => searches_ranged _ hq) h

theorem slipEnd_ranges (k : Recovery) (p : PortIx) (h : Ranges K L S e) : Ranges K L S (slipEnd k p e) :=
  Ranges.ite (endRecovery_ranges p h) h

theorem relockPort_ranges (p : PortIx) (h : Ranges K L S e) : Ranges K L S (relockPort p e) := by
  refine Ranges.ite (dropLock_ranges p _ h) (h.modPort fun q hq => ?_)
  rw [Port.ranged_iff] at hq ⊢
  obtain ⟨hfill, hbuf, _, hbad, hcalm⟩ := hq
  exact ⟨hfill, hbuf, Nat.zero_le _, hbad, hcalm⟩

theorem beginRelock_ranges (rate : Nat) (h : Ranges K L S e) : Ranges K False S (beginRelock rate e) := by
  unfold beginRelock
  extract_lets e0 clk e1 clk2 e2
  have h0 : Ranges K L S e0 := samplingEvent_ranges e.ped.pins h
  have hdue : e0.ped.due = false := samplingEvent_due e.ped.pins e
  clear_value e0
  have h1 : Ranges K False S e1 := post_ranges _ { h0 with due := .inr hdue, clocked := False.elim }
  clear_value e1
  have h2 : Ranges K False S e2 := Ranges.ite (post_ranges _ { h1 with }) h1
  clear_value e2
  exact muteOutput_ranges (reportClip_ranges (eachQuad_induct (fun p _ h => relockPort_ranges p h) h2))

theorem endRelock_ranges (h : Ranges K L S e) : Ranges K L S (endRelock e) := by
  have h1 : Ranges K L S { e with clk := { e.clk with pllLocked := true, startRelock := false } } :=
    { h with due := .inl rfl, clocked := fun _ => rfl }
  exact Ranges.ite h (Ranges.ite h1 (post_ranges _ h1))

theorem offer_ranged {k : Prop} (w : Sample × Sample) {q : Port} (h : q.Ranged k) : (q.offer w).Ranged k := by
  have hjoin : q.buf.length < 16 → Port.Ranged k { q with buf := q.buf ++ [w] } := fun hlt => by
    rw [Port.ranged_iff] at h ⊢
    refine ⟨h.1, ?_, h.2.2⟩
    rw [List.length_append]
    exact hlt
  unfold Port.offer
  split
  · exact h
  · split
    · exact h
    next hlt => exact hjoin (by omega)
  · split
    · exact h
    next hlt => exact hjoin (by omega)

theorem calmed_ranged {k : Prop} {q : Port} (h : q.Ranged k) : Port.Ranged k { q with bad := 0 } := by
  rw [Port.ranged_iff] at h ⊢
  obtain ⟨hfill, hbuf, hgood, _, _⟩ := h
  exact ⟨hfill, hbuf, hgood, Nat.zero_le _, fun _ _ => (by decide : 0 < 4)⟩

theorem queueP0_ranges (w : Option (Sample × Sample)) (h : Ranges K L S e) : Ranges K L S (queueP0 w e) := { h with }

theorem goodFrame_ranges (p : PortIx) (w : Sample × Sample) (h : Ranges K L S e) : Ranges K L S (goodFrame p w e) := by
  unfold goodFrame
  split
  · exact h
  · exact h.modPort fun _ hq => search_ranged true hq
  · exact Ranges.ite (queueP0_ranges _ h) (h.modPort fun _ hq => offer_ranged w (calmed_ranged hq))

/-- A bad frame on a port of which LOCK_LOST is not due. -/
theorem badFrame_ranges (p : PortIx) (hp : K p) (h : Ranges K L S e) : Ranges noPort L S (badFrame p e) := by
  have h0 : Ranges noPort L S e := { h with ports := fun p => ⟨(h.ports p).1, False.elim⟩ }
  have hq := h.ports p
  rw [Port.ranged_iff] at hq
  unfold badFrame
  split
  · exact h0
  · exact h0.modPort fun _ hq => search_ranged false hq
  next hlock =>
    refine Ranges.ite (queueP0_ranges _ h0) { h0 with ports := fun i => ?_ }
    simp only [modPort_ports, Fin.getElem_fin, upd_get]
    split
    next hi =>
      subst hi
      have hcalm := hq.2.2.2.2 hp hlock
      refine (Port.ranged_iff _ _).mpr ⟨hq.1, hq.2.1, hq.2.2.1, ?_, False.elim⟩
      exact hcalm
    · exact h0.ports i

theorem fillDone_ranges (p : PortIx) (h : Ranges K L S e) : Ranges K L S (fillDone p e) := Ranges.ite h.port h

/-! ## What is due on a port (entry 3) -/

@[simp] theorem silenceLane_ports (l : LaneIx) (e : Engine) : (silenceLane l e).ports = e.ports := by
  unfold silenceLane
  have hd : (deafen l e).ports = e.ports := by
    unfold deafen
    split
    · split <;> rfl
    · rfl
  exact hd

@[simp] theorem silenceLanes_ports (p : PortIx) (e : Engine) : (silenceLanes p e).ports = e.ports :=
  eachQuad_induct (I := fun t => t.ports = e.ports) (fun l t h => by
    split
    · exact (silenceLane_ports l t).trans h
    · exact h) rfl

/-- The port has the lock state it is given. -/
theorem dropLock_lock (p : PortIx) (k : Lock) (e : Engine) : (dropLock p k e).ports[p].lock = k := by
  unfold dropLock
  split
  next h => exact h
  · have hdrop : ∀ e1 : Engine, (dropWaiting p e1).ports = e1.ports := fun e1 => by
      unfold dropWaiting
      split <;> rfl
    have hfall : ∀ e1 : Engine, (fallback e1).ports = e1.ports := fun e1 => rfl
    dsimp only
    split
    · split <;> simp [hfall, hdrop]
    · simp

theorem searches_lock : ∀ (ws : List (Option (Sample × Sample))) (q : Port),
    (ws.foldl (fun q w => q.search w.isSome) q).lock = q.lock
  | [], _ => rfl
  | w :: ws, q => searches_lock ws (q.search w.isSome)

/-- LOCK_LOST is not due any more. -/
theorem loseLock_calms (p : PortIx) (e : Engine) (hlock : (loseLock p e).ports[p].lock = .locked) :
    (loseLock p e).ports[p].bad < 4 := by
  unfold loseLock at hlock ⊢
  split at hlock
  next hdue =>
    have hk := dropLock_lock p .searching e
    simp only [Fin.getElem_fin] at hk
    simp [searches_lock, hk] at hlock
  next hdue =>
    simp only [hdue, Bool.false_eq_true, if_false]
    simp only [lockLostDue, hlock, beq_self_eq_true, Bool.true_and, decide_eq_true_eq] at hdue
    omega

theorem settlePort_ranges (p : PortIx) (h : Ranges K L S e) : Ranges (fun q => K q ∨ q = p) L S (settlePort p e) := by
  have h1 := loseLock_ranges p (acquireLock_ranges p h)
  have h2 : Ranges (fun q => K q ∨ q = p) L S (loseLock p (acquireLock p e)) := by
    refine { h1 with ports := fun q => ⟨(h1.ports q).1, ?_⟩ }
    rintro (hk | rfl) hlock
    · exact (h1.ports q).2 hk hlock
    · exact loseLock_calms q _ hlock
  exact slipEnd_ranges .over p (slipEnd_ranges .under p h2)

theorem portArrival_ranges (p : PortIx) (bits : List Bool) (h : Ranges K L S e) :
    Ranges noPort L S (portArrival p bits e) := by
  have h1 := settlePort_ranges p h
  unfold portArrival
  extract_lets e1 q judged
  have h2 : Ranges (fun q => K q ∨ q = p) L S e1 := h1
  clear_value e1
  have hforget : ∀ {t : Engine}, Ranges (fun q => K q ∨ q = p) L S t → Ranges noPort L S t := fun h =>
    { h with ports := fun p => ⟨(h.ports p).1, False.elim⟩ }
  have hj : Ranges noPort L S judged := Ranges.ite (hforget h2)
    (Ranges.ite (hforget (goodFrame_ranges p _ h2)) (badFrame_ranges p (.inr rfl) h2))
  exact Ranges.ite (hforget h2) hj.port

theorem silentPeriod_ranges (p : PortIx) (h : Ranges K L S e) : Ranges noPort L S (silentPeriod p e) := by
  have h1 := settlePort_ranges p h
  exact Ranges.ite (badFrame_ranges p (.inr rfl) h1) { h1 with ports := fun p => ⟨(h1.ports p).1, False.elim⟩ }

/-! ## The buffers and the lanes on a frame (R150 to R156) -/

theorem remove_ranged {k : Prop} {q : Port} (h : q.Ranged k) : q.remove.Ranged k := by
  rw [Port.ranged_iff] at h
  obtain ⟨hfill, hbuf, hrest⟩ := h
  unfold Port.remove
  split
  next hb =>
    rw [hb, List.length_cons] at hbuf
    split <;> refine (Port.ranged_iff _ _).mpr ⟨hfill, ?_, hrest⟩
    · dsimp only; omega
    · dsimp only; rw [hb, List.length_cons]; exact hbuf
  · exact (Port.ranged_iff _ _).mpr ⟨hfill, hbuf, hrest⟩
  next hb =>
    rw [hb, List.length_cons] at hbuf
    exact (Port.ranged_iff _ _).mpr ⟨hfill, by dsimp only; omega, hrest⟩
  · exact (Port.ranged_iff _ _).mpr ⟨hfill, hbuf, hrest⟩
  next hb =>
    rw [hb, List.length_cons] at hbuf
    exact (Port.ranged_iff _ _).mpr ⟨hfill, by dsimp only; omega, hrest⟩
  · exact (Port.ranged_iff _ _).mpr ⟨hfill, hbuf, hrest⟩

theorem removeFrame_ranges (p : PortIx) (h : Ranges K L S e) : Ranges K L S (removeFrame p e) := by
  have h1 := fillDone_ranges p h
  unfold removeFrame
  split
  · exact h
  · exact Ranges.ite h1 (h1.modPort fun _ hq => remove_ranged hq)

/-- The frame of P0 that makes the engine frame finds LOCK_LOST not due. -/
theorem takeP0_ranges (hp : K 0) (h : Ranges K L S e) : Ranges noPort L S (takeP0 e) := by
  have h0 : Ranges noPort L S e := { h with ports := fun p => ⟨(h.ports p).1, False.elim⟩ }
  unfold takeP0
  split
  · exact h0
  next w rest _ =>
    refine { h0 with ports := fun i => ?_ }
    simp only [modPort_ports, Fin.getElem_fin, upd_get]
    split
    next hi =>
      subst hi
      have hq := (Port.ranged_iff _ _).mp (h.ports 0)
      obtain ⟨hfill, hbuf, hgood, hbad, hcalm⟩ := hq
      unfold Port.source
      split
      · exact h0.ports 0
      next hlock =>
        have hlt := hcalm hp (by simpa using hlock)
        split
        · exact (Port.ranged_iff _ _).mpr ⟨hfill, hbuf, hgood, Nat.zero_le _, False.elim⟩
        · exact (Port.ranged_iff _ _).mpr ⟨hfill, hbuf, hgood, hlt, False.elim⟩
    · exact h0.ports i

theorem magnitude_le (x : Sample) : magnitude x ≤ 8388608 := by
  have h := sample_range x
  unfold magnitude
  omega

theorem runLane_ranges (l : LaneIx) (h : Ranges K L S e) : Ranges K L S (runLane l e) := by
  have hx := magnitude_le (laneSample e e.lanes[l])
  refine h.modLane fun n hn => ?_
  simp only [Lane.inRange, Bool.and_eq_true, between_iff] at hn ⊢
  omega

/-! ## Port settings (R145, R154, R155) -/

theorem enablePort_ranges (p : PortIx) (on : Bool) (h : Ranges K L S e) : Ranges K L S (enablePort p on e) := by
  have h1 : Ranges K L S (modPort p (fun q => { q with enabled := on }) e) := h.port
  exact Ranges.ite (dropLock_ranges p _ h1) (Ranges.ite (dropLock_ranges p _ h1) h1)

theorem holdPort_ranges (p : PortIx) (h : Ranges K L S e) : Ranges K L S (holdPort p e) :=
  Ranges.ite h (dropLock_ranges p _ h.port)

theorem releasePort_ranges (p : PortIx) (h : Ranges K L S e) : Ranges K L S (releasePort p e) := by
  have h1 : Ranges K L S (modPort p (fun q => { q with held := false }) e) := h.port
  exact Ranges.ite (Ranges.ite (dropLock_ranges p _ h1) h1) h

theorem refillPort0_ranges (h : Ranges K L S e) : Ranges K L S (refillPort0 e) := by
  refine silenceLanes_ranges 0 (h.modPort fun q hq => ?_)
  rw [Port.ranged_iff] at hq ⊢
  exact ⟨hq.1, Nat.zero_le _, hq.2.2⟩

theorem selectSource_ranges (src : ClockSource) (h : Ranges K L S e) : Ranges K L S (selectSource src e) := by
  unfold selectSource
  extract_lets clk e1
  have h1 : Ranges K L S e1 := { h with }
  clear_value e1
  cases src with
  | port0 => exact Ranges.ite (adoptPort0_ranges _ h1) h1
  | internal =>
    have hs : Ranges K L S (post (.clockSource .internal .set) { e1 with clk := { e1.clk with active := .internal } }) :=
      post_ranges _ { h1 with }
    exact Ranges.ite (refillPort0_ranges hs) h1

end Sys2Proof.Machine
end

section
/-! Ranges, concluded: the cues, the commands, the frame and the step. -/

set_option Elab.async false

namespace Sys2Proof.Machine

variable {K : PortIx → Prop} {L : Prop} {S : CycleState → Prop} {e : Engine}

/-! ## Cues that execute -/

theorem removeCue_ranges (n : Nat) (h : Ranges K L S e) : Ranges K L S (removeCue n e) := by
  refine { h with cues := CueQueue.inRange_list h.cues ?_ }
  have hall := CueQueue.inRange_all h.cues
  simp only [List.all_eq_true, List.mem_filter] at hall ⊢
  exact fun c hc => hall c hc.1

theorem deferCue_ranges (n : Nat) (h : Ranges K L S e) : Ranges K L S (deferCue n e) := by
  refine { h with cues := CueQueue.inRange_list h.cues ?_ }
  have hall := CueQueue.inRange_all h.cues
  simp only [List.all_map, List.all_eq_true, Function.comp] at hall ⊢
  intro c hc
  have hin := hall c hc
  split
  · simp only [Cue.inRange, Bool.and_eq_true, between_iff] at hin ⊢
    obtain ⟨⟨⟨hn, _⟩, _⟩, ha⟩ := hin
    exact ⟨⟨⟨hn, by omega⟩, by omega⟩, ha⟩
  · exact hin

/-- The engine an action leaves is in range, in whatever cycle state. -/
def RangesOut (K : PortIx → Prop) (L : Prop) (out : Outcome) : Prop := Ranges K L anyPhase out.1

theorem done_ranges (h : Ranges K L anyPhase e) : RangesOut K L (done e) := h

theorem failed_ranges (r : FailReason) (h : Ranges K L anyPhase e) : RangesOut K L (failed r e) := h

theorem RangesOut.ite {c : Prop} [Decidable c] {x y : Outcome} (hx : RangesOut K L x) (hy : RangesOut K L y) :
    RangesOut K L (if c then x else y) := by
  split
  · exact hx
  · exact hy

theorem recordCue_ranges {n : Nat} (hn : legalMultiple n = true) (lane : LaneIx) (num : Nat) (l : LayerIx)
    (h : Ranges K L S e) : Ranges K L anyPhase (recordCue n lane num l e).1 := by
  have h1 := allocChain_ranges (pagesFor (n * e.cyc.c)) h
  unfold recordCue
  extract_lets r
  split
  · exact h.any
  · split
    next hunset =>
      split
      · exact h.any
      · split
        · exact h.any
        · exact startBase_ranges _ l lane num { h with phase := hunset }
    · split
      · exact h.any
      · split
        · exact h.any
        · split
          next hal => rw [hal] at h1; exact h1.any
          next hal => rw [hal] at h1; exact (startFixed_ranges _ l hn lane _ num h1).any
    · exact h.any

/-- A base capture stands only in BASE_CAPTURE. -/
theorem Ranges.capturing (h : Ranges K L S e) {l : LayerIx} (hb : e.cyc.base = some l) : e.cyc.state = .baseCapture :=
  h.cyc.base.resolve_left (by simp [hb])

theorem baseCapture_base {b : LayerIx × Nat} (h : baseCapture e = some b) : e.cyc.base.isSome = true := by
  unfold baseCapture at h
  split at h
  next hb => rw [hb]; rfl
  · cases h

theorem Ranges.basing (h : Ranges K L S e) {b : LayerIx × Nat} (hb : baseCapture e = some b) :
    Ranges K L (· = .baseCapture) e := by
  obtain ⟨l, hl⟩ := Option.isSome_iff_exists.mp (baseCapture_base hb)
  exact { h with phase := h.capturing hl }

/-- The base capture closes, and the cycle runs; or it is discarded. -/
theorem closeBaseCue_ranges (l : LayerIx) (count n w : Nat) (h : Ranges K L (· = .baseCapture) e) :
    Ranges K L anyPhase (closeBaseCue l count n w e).1
      ∧ ((closeBaseCue l count n w e).2 = none → Ranges K L isRunning (closeBaseCue l count n w e).1) := by
  unfold closeBaseCue
  split
  · exact ⟨leaveBase_ranges (emptyLayer_ranges l _ n h), fun hn => (nomatch hn)⟩
  next hcount =>
    have h1 := closeBase_ranges l (by omega : Config.minCycle ≤ count) .cue n w h
    exact ⟨h1.any, fun _ => h1⟩

theorem closeCue_ranges (n w : Nat) (l : LayerIx) (h : Ranges K L S e) : Ranges K L anyPhase (closeCue n w l e).1 := by
  unfold closeCue
  split
  · exact h.any
  · split
    next hb =>
      split
      · exact (closeBaseCue_ranges l _ n w (h.basing hb)).1
      · exact (closeEarly_ranges l n h).any
    · exact (closeEarly_ranges l n h).any

theorem overdubCue_ranges (lane : LaneIx) {level fb : Nat} (hl : level ≤ 32768) (hf : fb ≤ 32768) (n : Nat)
    (l : LayerIx) (h : Ranges K L S e) : Ranges K L S (overdubCue lane level fb n l e).1 := by
  unfold overdubCue
  extract_lets r need own e1
  have h1 : Ranges K L S e1 := reclaimWalk_ranges need own (some l) e.mem.age h
  split
  · exact h
  · split
    · exact h
    · split
      · exact h
      · split
        · exact h
        · split
          · exact h1
          · exact startOverdub_ranges _ l lane hl hf n h1

theorem clearLayer_ranges (n : Nat) (l : LayerIx) (h : Ranges K L S e) : Ranges K L anyPhase (clearLayer n l e) := by
  have h2 : ∀ {S' : CycleState → Prop}, Ranges K L S' e →
      Ranges K L S' (if e.layers[l].state = .empty then e else emptyLayer l .cue n e) := fun h =>
    Ranges.ite h (emptyLayer_ranges l _ n h)
  unfold clearLayer
  extract_lets e1 e2
  have h3 : Ranges K L anyPhase e2 := by
    unfold e2
    split
    next hb => exact leaveBase_ranges (h2 { h with phase := h.capturing hb })
    · exact (h2 h).any
  clear_value e2
  exact Ranges.ite (returnToUnset_ranges h3) h3

theorem pauseLayer_ranges (n : Nat) (l : LayerIx) (h : Ranges K L S e) : Ranges K L S (pauseLayer n l e) := by
  unfold pauseLayer
  split
  · exact finishOverdub_ranges l n h
  · exact closeEarly_ranges l n h
  · exact h

theorem pauseCue_ranges (n w : Nat) (h : Ranges K L S e) : RangesOut K L (pauseCue n w e) := by
  unfold pauseCue
  split
  next hrun =>
    have h1 : Ranges K L isRunning e := { h with phase := hrun }
    exact done_ranges (enterPaused_ranges (eachLayer_induct (fun l _ h => pauseLayer_ranges n l h) h1))
  · split
    next l count hb =>
      obtain ⟨hany, hdone⟩ := closeBaseCue_ranges l count n w (h.basing hb)
      split
      next hc => rw [hc] at hdone; exact done_ranges (enterPaused_ranges (hdone rfl))
      · exact hany
    · exact failed_ranges _ h.any
  · exact failed_ranges _ h.any

theorem clearAllLayer_ranges (n : Nat) (l : LayerIx) (h : Ranges K L S e) : Ranges K L S (clearAllLayer n l e) :=
  Ranges.ite h (Ranges.ite (setLayerState_ranges _ _ _ _ (releaseLayer_ranges l h)) (emptyLayer_ranges l _ n h))

theorem clearAllCue_ranges (n : Nat) (h : Ranges K L S e) : RangesOut K L (clearAllCue n e) := by
  have h1 : ∀ {S' : CycleState → Prop}, Ranges K L S' e → Ranges K L S' (eachLayer (clearAllLayer n) e) := fun h =>
    eachLayer_induct (fun l _ h => clearAllLayer_ranges n l h) h
  refine RangesOut.ite (failed_ranges _ h.any) ?_
  dsimp only
  split
  next hbase => exact done_ranges (leaveBase_ranges (h1 { h with phase := hbase }))
  · exact done_ranges (returnToUnset_ranges (h1 h))
  · exact done_ranges (returnToUnset_ranges (h1 h))
  · exact done_ranges (h1 h).any

theorem resumeCue_ranges (h : Ranges K L S e) : RangesOut K L (resumeCue e) := by
  unfold resumeCue
  split
  next hp => exact done_ranges (resume_ranges h hp)
  · exact failed_ranges _ h.any

theorem stopAllCue_ranges (n : Nat) (h : Ranges K L S e) : RangesOut K L (stopAllCue n e) :=
  done_ranges (eachLayer_induct (fun l _ h => Ranges.ite (stopLayer_ranges l _ h) h) h.any)

theorem playAllCue_ranges (n : Nat) (h : Ranges K L S e) : RangesOut K L (playAllCue n e) :=
  done_ranges (eachLayer_induct (fun l _ h => Ranges.ite (playLayer_ranges l _ h) h) h.any)

/-- An action of a cue in range. -/
theorem actOn_ranges {c : Cue} (hc : c.inRange = true) (h : Ranges K L S e) : RangesOut K L (actOn c e) := by
  have hact : c.action.inRange = true := by
    simp only [Cue.inRange, Bool.and_eq_true] at hc
    exact hc.2
  have hfail : ∀ r, RangesOut K L (failed r e) := fun r => failed_ranges r h.any
  unfold actOn
  split
  next ha _ => rw [ha] at hact; exact recordCue_ranges hact _ _ _ h
  · exact closeCue_ranges _ _ _ h
  next ha _ =>
    rw [ha] at hact
    simp only [Action.inRange, Bool.and_eq_true, between_iff] at hact
    exact (overdubCue_ranges _ hact.1.2 hact.2.2 _ _ h).any
  · exact RangesOut.ite (done_ranges (finishOverdub_ranges _ _ h.any)) (hfail _)
  · exact RangesOut.ite (done_ranges (playLayer_ranges _ _ h.any)) (hfail _)
  · exact RangesOut.ite (done_ranges (stopLayer_ranges _ _ h.any)) (hfail _)
  · exact RangesOut.ite (hfail _) (done_ranges h.any.layer)
  · exact RangesOut.ite (hfail _) (done_ranges h.any.layer)
  · exact RangesOut.ite (hfail _) (RangesOut.ite (hfail _) (done_ranges (undoLayer_ranges _ h.any)))
  · exact RangesOut.ite (hfail _) (RangesOut.ite (hfail _) (done_ranges (redoLayer_ranges _ h.any)))
  · exact RangesOut.ite (hfail _) (done_ranges (clearLayer_ranges _ _ h))
  · exact stopAllCue_ranges _ h
  · exact playAllCue_ranges _ h
  · exact pauseCue_ranges _ _ h
  · exact resumeCue_ranges h
  · exact clearAllCue_ranges _ h
  · exact hfail _

theorem disarmFor_ranges (c : Cue) (h : Ranges K L S e) : Ranges K L S (disarmFor c e) := by
  unfold disarmFor
  split
  · exact disarm_ranges _ _ h
  · exact h

theorem reportCue_ranges (c : Cue) (k : Nat) {out : Outcome} (h : RangesOut K L out) :
    Ranges K L anyPhase (reportCue c k out) := by
  unfold reportCue
  split
  · exact grantHolds_ranges (post_ranges _ h)
  · exact grantHolds_ranges (disarmFor_ranges c (post_ranges _ h))

theorem executeCue_ranges {c : Cue} (hc : c.inRange = true) (h : Ranges K L S e) :
    Ranges K L anyPhase (executeCue c e) := by
  have h1 := removeCue_ranges c.number h
  unfold executeCue
  dsimp only
  split
  · exact reportCue_ranges c _ (actOn_ranges hc h1)
  · exact Ranges.ite (reportCue_ranges c _ (actOn_ranges hc h1))
      (Ranges.ite (deferCue_ranges _ h).any (reportCue_ranges c _ (failed_ranges _ h1.any)))

theorem nextDue_inRange (h : Ranges K L S e) {c : Cue} (hc : nextDue e = some c) : c.inRange = true :=
  List.all_eq_true.mp (CueQueue.inRange_all h.cues) c (firstDue_mem hc).1

theorem runDue_ranges (want : Action → Bool) (h : Ranges K L S e) : Ranges K L anyPhase (runDue want e) := by
  unfold runDue
  split
  next c hc => exact Ranges.ite (executeCue_ranges (nextDue_inRange h hc) h) h.any
  · exact h.any

theorem runCues_ranges : ∀ (fuel : Nat) {e : Engine}, Ranges K L anyPhase e → Ranges K L anyPhase (runCues fuel e)
  | 0, _, h => h
  | fuel + 1, _, h => by
    unfold runCues
    split
    next c hc => exact runCues_ranges fuel (executeCue_ranges (nextDue_inRange h hc) h)
    · exact h

theorem settleCues_ranges (h : Ranges K L S e) : Ranges K L anyPhase (settleCues e) :=
  coast_ranges (runCues_ranges 24 (autoClose_ranges h))

/-! ## CUE and CUE_CANCEL (R61 to R67) -/

theorem cueCancel_ranges (b : List Byte) (h : Ranges K L S e) : Ranges K L S (cueCancel b e).1 := by
  unfold cueCancel
  split
  · exact h
  · split
    · exact h
    · dsimp only
      exact grantHolds_ranges (disarmFor_ranges _ (removeCue_ranges _ h))

theorem succNumber_range {n : Nat} : 1 ≤ succNumber n ∧ succNumber n ≤ 65535 := by
  unfold succNumber
  split <;> omega

theorem freeNumber_range {pending : List Nat} : ∀ (fuel : Nat) {n : Nat}, 1 ≤ n ∧ n ≤ 65535 →
    1 ≤ freeNumber pending fuel n ∧ freeNumber pending fuel n ≤ 65535
  | 0, _, h => h
  | fuel + 1, _, h => by
    unfold freeNumber
    split
    · exact freeNumber_range fuel succNumber_range
    · exact h

theorem supersede_ranges (n : Nat) (c : Cue) (h : Ranges K L S e) : Ranges K L S (supersede n c e) :=
  disarmFor_ranges c (post_ranges _ (removeCue_ranges _ h))

theorem armFor_ranges (a : CueAsk) (n : Nat) (h : Ranges K L S e) : Ranges K L S (armFor a n e) := by
  unfold armFor
  split
  · exact Ranges.ite (setLayerState_ranges _ _ _ _ h) h
  · exact h

/-- What a payload asks for is in range. -/
theorem cueAsk_range {b : List Byte} {a : CueAsk} (h : cueAsk? b = some a) :
    a.action.inRange = true ∧ (a.quantum = .immediate ∨ a.count ≤ 4) := by
  unfold cueAsk? at h
  split at h
  next t act q _ hact _ =>
    dsimp only at h
    split at h
    next hs =>
      obtain rfl := Option.some.inj h
      refine ⟨?_, ?_⟩
      · show act.inRange = true
        unfold action? at hact
        split at hact
        · split at hact
          · split at hact
            next hleg => cases hact; exact hleg
            · cases hact
          · cases hact
        · cases hact; rfl
        · split at hact
          · cases hact
            have hlevel := clampNat_range (lo := 0) (hi := 32768) (by omega) (fieldAt b 5 2)
            have hfb := clampNat_range (lo := 0) (hi := 32768) (by omega) (fieldAt b 7 2)
            simp only [Action.inRange, Bool.and_eq_true, between_iff]
            exact ⟨hlevel, hfb⟩
          · cases hact
        all_goals cases hact
        all_goals rfl
      · simp only [CueAsk.suits, Bool.and_eq_true, Bool.or_eq_true, decide_eq_true_eq, beq_iff_eq] at hs
        exact hs.1.1.2.imp id fun hc => hc.2
    · cases h
  · cases h

theorem appendCue_ranges {a : CueAsk} (ha : a.action.inRange = true) (hcount : a.quantum = .immediate ∨ a.count ≤ 4)
    {number : Nat} (hn : 1 ≤ number ∧ number ≤ 65535) (h : Ranges K L S e) : Ranges K L S (appendCue a number e) := by
  have hall := CueQueue.inRange_all h.cues
  refine { h with cues := ?_ }
  have hrem : (if a.quantum = .immediate then 1 else a.count) ≤ 4 := by
    split
    · omega
    next hq => exact hcount.resolve_left hq
  simp only [CueQueue.inRange, appendCue, Bool.and_eq_true, between_iff, List.all_append, List.all_cons, List.all_nil,
    Cue.inRange]
  exact ⟨freeNumber_range 13 succNumber_range, hall, ⟨⟨⟨⟨hn, Nat.zero_le _, hrem⟩, by decide⟩, ha⟩, trivial⟩⟩

theorem acceptCue_ranges {a : CueAsk} (ha : a.action.inRange = true) (hcount : a.quantum = .immediate ∨ a.count ≤ 4)
    (h : Ranges K L S e) : Ranges K L S (acceptCue a e).1 := by
  have hn : 1 ≤ e.cues.nextNumber ∧ e.cues.nextNumber ≤ 65535 := by
    have hq := h.cues
    simp only [CueQueue.inRange, Bool.and_eq_true, between_iff] at hq
    exact hq.1
  unfold acceptCue
  extract_lets number replaced e1 e2
  have h1 : Ranges K L S e1 := foldl_induct (fun c _ h => supersede_ranges number c h) (superseded a e) h
  have h2 : Ranges K L S e2 := grantHolds_ranges (armFor_ranges a number (appendCue_ranges ha hcount hn h1))
  clear_value e2
  exact h2

/-! ## Commands -/

/-- The command keeps the ranges, in whatever cycle state it ends. -/
def RangesCommand (cmd : List Byte → Engine → Engine × Answer) : Prop :=
  ∀ {K : PortIx → Prop} {L : Prop} {S : CycleState → Prop} (b : List Byte) {e : Engine},
    Ranges K L S e → Ranges K False anyPhase (cmd b e).1

/-- The PLL may have been UNLOCKED. -/
theorem Ranges.unclocked (h : Ranges K L S e) : Ranges K False anyPhase e :=
  { h with clocked := False.elim, phase := trivial }

theorem cueCommand_ranges : RangesCommand cueCommand := by
  intro K L S b e h
  unfold cueCommand
  split
  · exact h.unclocked
  · split
    · exact h.unclocked
    next a ha =>
      obtain ⟨hact, hcount⟩ := cueAsk_range ha
      split
      · exact h.unclocked
      · split
        · exact h.unclocked
        · split
          · exact h.unclocked
          · exact (acceptCue_ranges hact hcount h).unclocked

theorem portSet_ranges : RangesCommand portSet := by
  intro K L S b e h
  unfold portSet
  split
  · exact h.unclocked
  · split
    · extract_lets fill e1
      have h1 : Ranges K L S e1 := by
        refine enablePort_ranges _ _ (h.modPort fun q hq => ?_)
        rw [Port.ranged_iff] at hq ⊢
        exact ⟨clampNat_range (by omega) _, hq.2⟩
      exact h1.unclocked
    · exact h.unclocked

theorem laneSet_ranges : RangesCommand laneSet := by
  intro K L S b e h
  unfold laneSet
  split
  · exact h.unclocked
  · split
    · refine (h.modLane fun n hn => ?_).unclocked
      simp only [Lane.inRange, Bool.and_eq_true, between_iff] at hn ⊢
      exact ⟨⟨clampNat_range (by omega) _, hn.1.2⟩, hn.2⟩
    · exact h.unclocked

theorem clockSet_ranges : RangesCommand clockSet := by
  intro K L S b e h
  unfold clockSet
  split
  · exact h.unclocked
  · extract_lets rate e1
    split
    · exact h.unclocked
    next src _ =>
      split
      · exact h.unclocked
      · split
        · exact h.unclocked
        · split
          · exact h.unclocked
          · extract_lets e2
            have h1 : Ranges K False anyPhase e1 := Ranges.ite h.unclocked (beginRelock_ranges rate h).unclocked
            have h2 : Ranges K False anyPhase e2 := Ranges.ite h1 (selectSource_ranges src h1)
            exact Ranges.ite h2 (settleCues_ranges h2)

theorem grid_ranged {b : Nat} (hb : 1 ≤ b ∧ b ≤ 32) {c : Cycle} (h : c.Ranged) : (c.grid b).Ranged := by
  unfold Cycle.grid
  split
  next hs =>
    exact { h with beats := hb, pending := fun _ hn => (nomatch hn), beat := (h.rest (.inl hs)).1 ▸ hb.1 }
  next hs =>
    exact { h with beats := hb, pending := fun _ hn => (nomatch hn), beat := (h.rest (.inr hs)).1 ▸ hb.1 }
  all_goals
    refine { h with pending := fun x hx => ?_ }
    dsimp only at hx
    split at hx
    · cases hx
    · cases hx
      exact hb

theorem grid_state (b : Nat) (c : Cycle) : (c.grid b).state = c.state := by
  unfold Cycle.grid
  split <;> rfl

theorem gridSet_ranges : RangesCommand gridSet := by
  intro K L S b e h
  unfold gridSet
  split
  · exact h.unclocked
  · exact { h with cyc := grid_ranged (clampNat_range (by omega) _) h.cyc, clocked := False.elim, phase := trivial }

theorem layerMix_ranges : RangesCommand layerMix := by
  intro K L S b e h
  unfold layerMix
  split
  · exact h.unclocked
  · split
    · exact h.unclocked
    · refine (h.modLayer fun r hr => ?_).unclocked
      simp only [Layer.inRange, Bool.and_eq_true, between_iff] at hr ⊢
      exact ⟨⟨⟨⟨clampNat_range (by omega) _, clampNat_range (by omega) _⟩, clampNat_range (by omega) _⟩,
        clampNat_range (by omega) _⟩, hr.2⟩

theorem liveMix_ranges : RangesCommand liveMix := by
  intro K L S b e h
  unfold liveMix
  split
  · exact h.unclocked
  · split
    · refine (modLive_ranges (fun v hv => ?_) h).unclocked
      simp only [Live.inRange, Bool.and_eq_true, between_iff] at hv ⊢
      exact ⟨⟨⟨clampNat_range (by omega) _, clampNat_range (by omega) _⟩, hv.1.2⟩, hv.2⟩
    · exact h.unclocked

theorem masterSet_ranges : RangesCommand masterSet := by
  intro K L S b e h
  unfold masterSet
  split
  · exact h.unclocked
  · have hmix := h.mix
    refine Ranges.unclocked (S := S) (L := L) { h with mix := ?_ }
    rw [Mixer.inRange_iff] at hmix ⊢
    exact ⟨(clampNat_range (lo := 0) (hi := 8191) (by omega) _).2, hmix.2⟩

theorem fadeSet_ranges : RangesCommand fadeSet := by
  intro K L S b e h
  unfold fadeSet
  split
  · exact h.unclocked
  · have hmix := h.mix
    refine Ranges.unclocked (S := S) (L := L) { h with mix := ?_ }
    rw [Mixer.inRange_iff] at hmix ⊢
    exact ⟨hmix.1, clampNat_range (by omega) _, clampNat_range (by omega) _, hmix.2.2.2⟩

theorem pedalMap_ranges : RangesCommand pedalMap := by
  intro K L S b e h
  unfold pedalMap
  split
  · exact h.unclocked
  · split
    · exact h.unclocked
    · split
      · split
        · exact h.unclocked
        · refine (modMap_ranges (fun _ _ => ?_) h).unclocked
          simp only [Option.all_some, Mapping.inRange, Bool.and_eq_true, between_iff]
          exact ⟨⟨⟨clampNat_range (Nat.zero_le _) _, clampNat_range (Nat.zero_le _) _⟩, clampNat_range (by omega) _⟩, rfl⟩
      · exact h.unclocked

theorem pedalUnmap_ranges : RangesCommand pedalUnmap := by
  intro K L S b e h
  unfold pedalUnmap
  split
  · exact h.unclocked
  · split
    · exact h.unclocked
    · split
      · exact h.unclocked
      · exact (modMap_ranges (fun _ _ => rfl) h).unclocked

theorem eventMask_ranges : RangesCommand Machine.eventMask := by
  intro K L S b e h
  unfold Machine.eventMask
  split
  · exact Ranges.unclocked (S := S) (L := L) { h with }
  · split
    · exact h.unclocked
    · exact h.unclocked

theorem createCycle_ranges {len : Nat} (hlen : Config.minCycle ≤ len) (h : Ranges K L S e) :
    Ranges K L isRunning (createCycle len e) := by
  unfold createCycle
  extract_lets e1 cyc e2
  have h1 : Ranges K L isRunning e1 := noteGrid_ranges (startCycle_ranges hlen h)
  have h2 : Ranges K L isRunning e2 := Ranges.ite (bareBoundary_ranges 0 h1) { h1 with cyc := { h1.cyc with } }
  exact post_ranges _ h2

theorem cycleSet_ranges : RangesCommand cycleSet := by
  intro K L S b e h
  unfold cycleSet
  split
  · exact h.unclocked
  · split
    · exact h.unclocked
    · exact (createCycle_ranges (clampNat_range (by decide) _).1 h).unclocked

theorem tap_ranges : RangesCommand tap := by
  intro K L S b e h
  unfold tap
  split
  · exact h.unclocked
  · split
    · exact (handOnset_ranges _ h).unclocked
    · exact Ranges.unclocked (S := S) (L := L) { h with cyc := { h.cyc with } }

theorem holdBlock_ranges (n : Nat) (h : Ranges K L S e) : Ranges K L S (holdBlock n e) := by
  refine Ranges.ite (holdFollower_ranges h) ?_
  split
  · exact holdPort_ranges _ h
  · exact { h with }

theorem releaseBlock_ranges (n : Nat) (h : Ranges K L S e) : Ranges K L S (releaseBlock n e) := by
  refine Ranges.ite (releaseFollower_ranges h) ?_
  split
  · exact releasePort_ranges _ h
  · exact releasePedals_ranges h

theorem blockCommand_ranges {act : Nat → Engine → Engine}
    (hact : ∀ {K : PortIx → Prop} {L : Prop} {S : CycleState → Prop} (n : Nat) {e : Engine},
      Ranges K L S e → Ranges K L S (act n e)) : RangesCommand (blockCommand act) := by
  intro K L S b e h
  unfold blockCommand
  split
  · exact h.unclocked
  · dsimp only
    split
    · exact h.unclocked
    · exact (hact _ h).unclocked

theorem laneQuery_ranges : RangesCommand laneQuery := by
  intro K L S b e h
  unfold laneQuery
  split
  · exact h.unclocked
  · split
    · exact h.unclocked
    · refine (h.modLane fun n hn => ?_).unclocked
      simp only [Lane.inRange, Bool.and_eq_true, between_iff] at hn ⊢
      exact ⟨⟨hn.1.1, by omega⟩, by omega⟩

theorem layerQuery_ranges : RangesCommand layerQuery := by
  intro K L S b e h
  unfold layerQuery
  split
  · exact h.unclocked
  · split <;> exact h.unclocked

theorem cycleQuery_ranges : RangesCommand cycleQuery := by
  intro K L S b e h
  unfold cycleQuery
  split <;> exact h.unclocked

theorem memoryQuery_ranges : RangesCommand memoryQuery := by
  intro K L S b e h
  unfold memoryQuery
  split <;> exact h.unclocked

theorem holdLayer_ranges (l : LayerIx) (n : Nat) (h : Ranges K L S e) : Ranges K L S (holdLayer l n e).1 := by
  unfold holdLayer
  split
  · exact { h with }
  · exact h
  · split
    · exact importLayer_ranges l n h
    · split <;> exact h.layer

theorem layerHold_ranges : RangesCommand layerHold := by
  intro K L S b e h
  unfold layerHold
  split
  · exact h.unclocked
  · split
    · exact h.unclocked
    · exact (holdLayer_ranges _ _ h).unclocked

theorem layerRelease_ranges : RangesCommand layerRelease := by
  intro K L S b e h
  unfold layerRelease
  split
  · exact h.unclocked
  · split
    · exact h.unclocked
    next l _ =>
      split
      · exact h.unclocked
      · exact (h.layer : Ranges K L S (setHold l .none e)).unclocked
      · have hrel : Ranges K L S (setRelease l true e) := { h with }
        have hnone : Ranges K L S (setHold l .none e) := h.layer
        exact (Ranges.ite hrel hnone).unclocked

theorem followSet_rangesCommand : RangesCommand followSet := fun b _ h => (followSet_ranges b h).unclocked

theorem cueCancel_rangesCommand : RangesCommand cueCancel := fun b _ h => (cueCancel_ranges b h).unclocked

theorem configCommand_ranges (kind : Nat) : RangesCommand (configCommand kind) := by
  intro K L S b e h
  unfold configCommand
  split
  · exact portSet_ranges b h
  · exact laneSet_ranges b h
  · exact clockSet_ranges b h
  · exact gridSet_ranges b h
  · exact followSet_rangesCommand b h
  · exact layerMix_ranges b h
  · exact liveMix_ranges b h
  · exact masterSet_ranges b h
  · exact fadeSet_ranges b h
  · exact pedalMap_ranges b h
  · exact pedalUnmap_ranges b h
  · exact eventMask_ranges b h
  · exact cycleSet_ranges b h
  · exact blockCommand_ranges (fun n _ h => holdBlock_ranges n h) b h
  · exact blockCommand_ranges (fun n _ h => releaseBlock_ranges n h) b h
  · exact h.unclocked

theorem runEmbedded_ranges : ∀ (i : Nat) (msgs : List (Byte × List Byte)) {e : Engine}, Ranges K False anyPhase e →
    Ranges K False anyPhase (runEmbedded i msgs e).1
  | _, [], _, h => h
  | i, (kind, payload) :: rest, e, h => by
    have h1 := configCommand_ranges kind.toNat payload h
    unfold runEmbedded
    dsimp only
    split
    · exact runEmbedded_ranges (i + 1) rest h1
    · exact h1

theorem applySetup_ranges (cells : List Host.Cell) (k0 k1 : Byte) (h : Ranges K L S e) :
    Ranges K False anyPhase (applySetup cells k0 k1 e).1 := by
  unfold applySetup
  split
  · exact h.unclocked
  · exact h.unclocked
  · split
    · exact h.unclocked
    · exact runEmbedded_ranges _ _ h.unclocked

theorem storeApply_ranges (st : Store) : RangesCommand fun b e => storeApply b st e := by
  intro K L S b e h
  dsimp only
  unfold storeApply
  split
  · split
    · exact h.unclocked
    · exact applySetup_ranges _ _ _ h
  · exact h.unclocked

theorem bootApply_ranges (cells : List Host.Cell) (h : Ranges K L S e) : Ranges K False anyPhase (bootApply cells e) := by
  have h1 : Ranges K False anyPhase (post (.ready (applySetup cells 0x42 0x53 e).2.1 (applySetup cells 0x42 0x53 e).2.2)
    (applySetup cells 0x42 0x53 e).1) := post_ranges _ (applySetup_ranges cells _ _ h)
  exact { h1 with }

/-! ## The frame -/

theorem settleClock_ranges (h : Ranges K L S e) : Ranges K L S (settleClock e) := by
  unfold settleClock
  extract_lets e1
  have h1 : Ranges K L S e1 := coast_ranges (Ranges.ite { h with } h)
  exact Ranges.ite (endCrossfade_ranges h1) h1

theorem settleSlot_ranges (s : SlotIx) (h : Ranges K L S e) : Ranges K L S (settleSlot s e) :=
  Ranges.ite (completeFixed_ranges s h) (commitSlot_ranges s h)

theorem primingDone_ranges (l : LayerIx) (h : Ranges K L S e) : Ranges K L S (primingDone l e) := h.voice

theorem settleVoice_ranges (l : LayerIx) (h : Ranges K L S e) : Ranges K L S (settleVoice l e) := by
  unfold settleVoice
  extract_lets e1
  have h1 : Ranges K L S e1 := Ranges.ite (recoverFrame_ranges l h) h
  clear_value e1
  exact Ranges.ite (primingDone_ranges l h1) h1

theorem settleFade_ranges (l : LayerIx) (h : Ranges K L S e) : Ranges K L S (settleFade l e) := by
  unfold settleFade
  extract_lets e1
  have h1 : Ranges K L S e1 := Ranges.ite (idleVoice_ranges l h) h
  clear_value e1
  exact Ranges.ite (clearFadeDone_ranges l h1) h1

theorem settleSplice_ranges (h : Ranges K L S e) : Ranges K L S (settleSplice e) := by
  unfold settleSplice
  extract_lets e1
  have h1 : Ranges K L S e1 := arbitrate_ranges (alignStreams_ranges h)
  exact Ranges.ite (abandonSplice_ranges _ h1) h1

theorem settleUnits_ranges (h : Ranges K L S e) :
    Ranges K L S (let e1 := eachLayer settleFade (eachSlot settleSlot (eachLayer settleVoice e))
      settleSplice (clipWindowEnd (reportClip (samplingEvent e1.ped.pins e1)))) := by
  have h1 : Ranges K L S (eachLayer settleFade (eachSlot settleSlot (eachLayer settleVoice e))) :=
    eachLayer_induct (fun l _ h => settleFade_ranges l h) (eachSlot_induct (fun s _ h => settleSlot_ranges s h)
      (eachLayer_induct (fun l _ h => settleVoice_ranges l h) h))
  exact settleSplice_ranges (clipWindowEnd_ranges (reportClip_ranges (samplingEvent_ranges _ h1)))

theorem cycleFrame_ranges (jump : Bool) (h : Ranges K L S e) : Ranges K L anyPhase (cycleFrame jump e) := by
  unfold cycleFrame
  split
  · have h1 : Ranges K L S { e with cyc := { e.cyc with owedBoundary := false } } := { h with cyc := { h.cyc with } }
    exact (bareBoundary_ranges 0 h1).any
  · split
    next hrun => exact (advanceCycle_ranges jump { h with phase := hrun }).any
    · exact h.any

theorem latchTargets_ranges (h : Ranges K L S e) : Ranges K L S (latchTargets e) := by
  have h1 : Ranges K L S (eachLayer (fun l e => modVoice l (fun v => { v with target := voiceTarget e l }) e) e) := by
    refine eachLayer_induct (fun l e h => h.modVoice fun v hv => ?_) h
    have ht : voiceTarget e l ≤ 4096 := by
      unfold voiceTarget
      dsimp only
      split <;> omega
    simp only [Voice.inRange, Bool.and_eq_true, between_iff] at hv ⊢
    exact ⟨⟨hv.1.1, Nat.zero_le _, ht⟩, hv.2⟩
  refine { h1 with mix := Mixer.inRange_walk h1.mix fun i v hv => ?_ }
  have ht : (if v.mute = true then 0 else 4096) ≤ 4096 := by split <;> omega
  simp only [Live.inRange, Bool.and_eq_true, between_iff] at hv ⊢
  exact ⟨hv.1, Nat.zero_le _, ht⟩

theorem openFrame_ranged {f : Follower} (h : f.inRange = true) : f.openFrame.inRange = true := h

theorem countSplice_idle {sp : Splice} (h : sp = .idle) : countSplice sp = .idle := by rw [h]; rfl

theorem openFrame_ranges (hp : K 0) (h : Ranges K L S e) : Ranges noPort L S (openFrame e) := by
  have h1 := takeP0_ranges hp (latchTargets_ranges h)
  unfold openFrame
  extract_lets e1
  have h2 : Ranges noPort L S e1 := { h1 with }
  clear_value e1
  exact { h2 with cyc := { h2.cyc with splice := h2.cyc.splice.imp countSplice_idle id }, heard := rfl }

theorem hearOnset_ranges (l : LaneIx) {d : Engine} (h : Ranges K L S e) (hd : Ranges K L S d) :
    Ranges K L anyPhase (hearOnset l e d) := by
  have hbefore := coast_ranges (autoClose_ranges h)
  refine { handOnset_ranges .detector hd with heard := ?_ }
  simp only [hearOnset, Option.all_some, Heard.inRange, Bool.and_eq_true]
  exact ⟨hbefore.fol, CueQueue.inRange_all hbefore.cues⟩

theorem frameOnsets_ranges (h : Ranges K L anyPhase e) : Ranges K L anyPhase (frameOnsets e) := by
  unfold frameOnsets
  extract_lets cyc e1 d
  have h1 : Ranges K L anyPhase e1 := handTaps_ranges _ { h with cyc := { h.cyc with } }
  have hd : Ranges K L anyPhase d.1 := detect_ranges h1
  split
  · exact Ranges.ite (hearOnset_ranges _ h1 hd) hd
  · exact hd

theorem formWrites_ranges (s : SlotIx) (h : Ranges K L S e) : Ranges K L S (formWrites s e) := { h with }

theorem frameAudio_ranges (adv : Nat) (h : Ranges K L S e) : Ranges K L S (frameAudio adv e) := by
  have h1 : Ranges K L S (eachQuad runLane (eachQuad removeFrame e)) :=
    eachQuad_induct (fun l _ h => runLane_ranges l h) (eachQuad_induct (fun p _ h => removeFrame_ranges p h) h)
  exact mixFrame_ranges (eachLayer_induct (fun l _ h => runVoice_ranges adv l h)
    (eachSlot_induct (fun s _ h => formWrites_ranges s h) h1))

/-- A frame runs, on ports of which LOCK_LOST is not due. -/
theorem runFrame_ranges (hp : K 0) (h : Ranges K True S e) : Ranges noPort True anyPhase (runFrame e) := by
  unfold runFrame
  extract_lets adv e1
  have h1 : Ranges noPort True anyPhase e1 :=
    countCues_ranges .frame 0 (noteGrid_ranges (cycleFrame_ranges (readyToJump e) (openFrame_ranges hp h)))
  clear_value e1
  exact frameOnsets_ranges (tickGrant_ranges (tickSampling_ranges (frameAudio_ranges adv h1)))

end Sys2Proof.Machine
end

section
/-! Ranges: the rows and the step. -/

set_option Elab.async false

namespace Sys2Proof.Machine

variable {s : State}

/-! ## The state -/

/-- Every value of the state's engine in its range. -/
def State.Ranged (s : State) : Prop := Ranges noPort False anyPhase s.eng

theorem resetWith_ranged (cells : List (Nat × Sample)) (pins : Vector (BitVec 10) 4) :
    Ranges noPort False anyPhase (Engine.resetWith cells pins) where
  cyc := (Cycle.inRange_iff _).mp (by decide : Cycle.reset.inRange = true)
  fol := (by decide : Follower.reset.inRange = true)
  cues := (by decide : CueQueue.inRange { list := [], nextNumber := 1 } = true)
  mix := (by decide : Mixer.reset.inRange = true)
  ped := (Pedals.inRange_iff _).mpr
    ⟨by simp [Engine.resetWith, Pedals.resetWith], fun i => by simp [Engine.resetWith, Pedals.resetWith],
      fun i => by simp [Engine.resetWith, Pedals.resetWith]⟩
  layers := fun l => by simp only [Engine.resetWith, Fin.getElem_fin, Vector.getElem_replicate]; decide
  voices := fun l => by simp only [Engine.resetWith, Fin.getElem_fin, Vector.getElem_replicate]; decide
  ports := fun p => ⟨by simp only [Engine.resetWith, Fin.getElem_fin, Vector.getElem_replicate]; decide, False.elim⟩
  lanes := by
    show ∀ l : LaneIx, (#v[Lane.reset 0, Lane.reset 1, Lane.reset 2, Lane.reset 3])[l].inRange = true
    decide
  heard := rfl
  due := .inr rfl
  clocked := False.elim
  phase := trivial

theorem collected_ranged (h : s.Ranged) : s.collected.Ranged := by
  unfold State.collected
  split
  · exact h
  · exact { h with }
  · exact h

theorem read_ranged (k : Nat) (h : s.Ranged) : (s.read k).Ranged := by
  unfold State.read
  extract_lets m sent
  split
  · exact collected_ranged h
  · exact h

theorem message_ranged (kind tag : Byte) (payload : List Byte) (h : s.Ranged) : (s.message kind tag payload).Ranged := by
  unfold State.message
  split
  · exact read_ranged _ h
  · unfold State.offer
    dsimp only
    split <;> exact h

theorem transaction_ranged (sent : List Byte) (h : s.Ranged) : (s.transaction sent).Ranged := by
  unfold State.transaction
  split
  · exact h
  · split
    · split
      · exact read_ranged _ h
      · exact message_ranged _ _ _ h
    · exact h

theorem take_ranged (want : Byte → Bool) {f : Message → State → State}
    (hf : ∀ m t, State.Ranged t → State.Ranged (f m t)) (h : s.Ranged) : (s.take want f).Ranged := by
  unfold State.take
  split
  · exact h
  · split
    · exact hf _ _ h
    · exact h

theorem answerWith_ranged {cmd : List Byte → Engine → Engine × Answer} (hc : RangesCommand cmd) (m : Message)
    (h : s.Ranged) : (answerWith cmd m s).Ranged := by
  unfold answerWith
  split
  · exact h
  · exact hc m.payload h

theorem startWith_ranged {cmd : Byte → List Byte → Engine → Engine × Option Answer}
    (hc : ∀ tag b e, StartsTransfer (cmd tag b e) e) (m : Message) (h : s.Ranged) : (startWith cmd m s).Ranged := by
  have hout : Ranges noPort False anyPhase (cmd m.tag m.payload s.eng).1 := by
    obtain ⟨hsame, _⟩ | ⟨⟨t, ht⟩, _, _⟩ := hc m.tag m.payload s.eng
    · rw [hsame]; exact h
    · rw [ht]; exact { h with }
  unfold startWith
  split
  · exact h
  · dsimp only
    split <;> exact hout

theorem storeWriteWith_eng (m : Message) (s : State) : (storeWriteWith m s).eng = s.eng := by
  unfold storeWriteWith
  split
  · rfl
  · dsimp only
    split <;> rfl

theorem finishWrite_ranged (h : s.Ranged) : s.finishWrite.Ranged := by
  unfold State.finishWrite
  split
  · split
    · exact post_ranges _ h
    · exact h
  · exact h

theorem wordComplete_ranged (h : s.Ranged) : s.wordComplete.Ranged := by
  unfold State.wordComplete
  split
  · exact h
  · dsimp only
    split
    · exact finishWrite_ranged h
    · exact h

theorem resetEngine_ranged (m : Message) (h : s.Ranged) : (resetEngine m s).Ranged := by
  unfold resetEngine
  split
  · exact h
  · exact resetWith_ranged _ _

theorem losePower_eng (s : State) : s.losePower.eng = s.eng := by
  unfold State.losePower
  dsimp only
  split <;> rfl

/-! ## The frame -/

variable {K : PortIx → Prop} {L : Prop} {S : CycleState → Prop}

theorem onEng_ranges {f : Engine → Engine} (h : Ranges K L S (f s.eng)) : Ranges K L S (s.onEng f).eng := h

theorem settleGrant_ranges (h : Ranges K L S s.eng) : Ranges K L S (settleGrant s).eng := by
  unfold settleGrant
  split
  · have h1 := completeGrant_ranges h
    dsimp only
    split <;> exact h1
  · exact h

theorem settleBoot_ranges (h : Ranges K L S s.eng) : Ranges K False anyPhase (settleBoot s).eng := by
  unfold settleBoot
  split
  · exact bootApply_ranges _ h
  · exact h.unclocked

theorem settlePortList_ranges : ∀ (ps : List PortIx) {K : PortIx → Prop} {e : Engine}, Ranges K L S e →
    Ranges (fun q => K q ∨ q ∈ ps) L S (ps.foldl (fun e p => settlePort p e) e)
  | [], K, _, h =>
    { h with ports := fun p => ⟨(h.ports p).1, fun hk => (h.ports p).2 (hk.resolve_right List.not_mem_nil)⟩ }
  | p :: ps, K, e, h => by
    have h1 := settlePortList_ranges ps (settlePort_ranges p h)
    rw [List.foldl_cons]
    generalize ps.foldl (fun e p => settlePort p e) (settlePort p e) = t at h1 ⊢
    refine { h1 with ports := fun q => ⟨(h1.ports q).1, fun hk => (h1.ports q).2 ?_⟩ }
    rw [List.mem_cons, ← or_assoc] at hk
    exact hk

/-- Once every port is settled, LOCK_LOST is due on none. -/
theorem settlePorts_ranges (h : Ranges noPort L S s.eng) : Ranges (fun _ => True) L S (settlePorts s).eng := by
  have h1 : Ranges (fun q => noPort q ∨ q ∈ quadIxs) L S (eachQuad settlePort s.eng) := settlePortList_ranges quadIxs h
  unfold settlePorts State.onEng
  dsimp only
  generalize eachQuad settlePort s.eng = e at h1
  exact { h1 with ports := fun p => ⟨(h1.ports p).1, fun _ => (h1.ports p).2 (.inr (mem_quadIxs p))⟩ }

theorem settle_ranges (h : Ranges K L S s.eng) : Ranges K False anyPhase (settle s).eng := by
  unfold settle
  extract_lets s1 s2
  have h1 : Ranges K False anyPhase s1.eng := settleBoot_ranges (onEng_ranges (settleClock_ranges h))
  clear_value s1
  have h2 : Ranges K False anyPhase s2.eng := settleGrant_ranges (onEng_ranges (settleCues_ranges h1))
  clear_value s2
  exact onEng_ranges (settleUnits_ranges h2)

theorem newFrame_ranged (h : Ranges (fun _ => True) L S s.eng) : s.newFrame.Ranged := by
  unfold State.newFrame
  split
  next hrun =>
    have hlocked : s.eng.clk.pllLocked = true := by
      simp only [framesRun, Bool.and_eq_true] at hrun
      exact hrun.1
    have h1 : Ranges (fun _ => True) True S s.eng := { h with clocked := fun _ => hlocked }
    exact finishWrite_ranged (onEng_ranges (runFrame_ranges trivial h1).unclocked)
  · exact h.any.forget

theorem frame_ranged (h : s.Ranged) : s.frame.Ranged := by
  have h1 := settlePorts_ranges h
  unfold State.frame
  dsimp only
  split
  · exact newFrame_ranged (settle_ranges h1)
  · exact h1.forget

/-! ## The rows -/

/-- Every row but POWER_ON is a change of the state while the part has power; it keeps the ranges. -/
def RowKeepsRanges (row : State → Result) : Prop := ∃ f, row = stateRow f ∧ ∀ s : State, s.Ranged → (f s).Ranged

theorem stateRow_ranged {f : State → State} (hf : ∀ s : State, s.Ranged → (f s).Ranged) : RowKeepsRanges (stateRow f) :=
  ⟨f, rfl, hf⟩

theorem engineRow_ranged {f : Engine → Engine}
    (hf : ∀ e, Ranges noPort False anyPhase e → Ranges noPort False anyPhase (f e)) : RowKeepsRanges (engineRow f) :=
  ⟨State.onEng f, rfl, fun s h => hf s.eng h⟩

theorem takeRow_ranged {want : Byte → Bool} {f : Message → State → State}
    (hf : ∀ m s, State.Ranged s → State.Ranged (f m s)) : RowKeepsRanges (stateRow (State.take want f)) :=
  stateRow_ranged fun _ h => take_ranged want hf h

theorem commandRow_ranged (kind : Nat) {cmd : List Byte → Engine → Engine × Answer} (hc : RangesCommand cmd) :
    RowKeepsRanges (commandRow kind cmd) :=
  ⟨State.take (isKind kind) (answerWith cmd), rfl, fun _ h => take_ranged _ (fun m _ h => answerWith_ranged hc m h) h⟩

theorem cueRow_ranged (want : Action → Bool) : RowKeepsRanges (cueRow want) :=
  engineRow_ranged fun _ h => runDue_ranges want h

theorem whenDue_ranged {due : Engine → Bool} {f : Engine → Engine}
    (hf : ∀ {K : PortIx → Prop} {L : Prop} {S : CycleState → Prop} {e : Engine}, Ranges K L S e → Ranges K L S (f e))
    (e : Engine) (h : Ranges noPort False anyPhase e) : Ranges noPort False anyPhase (whenDue due f e) :=
  Ranges.ite (hf h) h

theorem exec_ranged (c : Instr) (hc : c ≠ .powerOn) : RowKeepsRanges (exec c) := by
  cases c with
  | powerOn => exact absurd rfl hc
  | relockEnd => exact engineRow_ranged fun _ h => endRelock_ranges h
  | bootSetupApply => exact stateRow_ranged fun _ h => settleBoot_ranges h
  | hostMessage kind tag payload => exact stateRow_ranged fun _ h => message_ranged kind tag payload h
  | shortTransaction sent => exact stateRow_ranged fun _ h => transaction_ranged sent h
  | read clocked => exact stateRow_ranged fun _ h => read_ranged clocked h
  | unknownKind => exact takeRow_ranged fun _ _ h => h
  | portSet => exact commandRow_ranged 1 portSet_ranges
  | laneSet => exact commandRow_ranged 2 laneSet_ranges
  | clockSet => exact commandRow_ranged 3 clockSet_ranges
  | gridSet => exact commandRow_ranged 4 gridSet_ranges
  | followSet => exact commandRow_ranged 5 followSet_rangesCommand
  | layerMix => exact commandRow_ranged 6 layerMix_ranges
  | liveMix => exact commandRow_ranged 7 liveMix_ranges
  | masterSet => exact commandRow_ranged 8 masterSet_ranges
  | fadeSet => exact commandRow_ranged 9 fadeSet_ranges
  | pedalMap => exact commandRow_ranged 10 pedalMap_ranges
  | pedalUnmap => exact commandRow_ranged 11 pedalUnmap_ranges
  | eventMask => exact commandRow_ranged 12 eventMask_ranges
  | cue => exact commandRow_ranged 13 cueCommand_ranges
  | cueCancel => exact commandRow_ranged 14 cueCancel_rangesCommand
  | tap => exact commandRow_ranged 15 tap_ranges
  | cycleSet => exact commandRow_ranged 16 cycleSet_ranges
  | layerHold => exact commandRow_ranged 17 layerHold_ranges
  | layerRelease => exact commandRow_ranged 18 layerRelease_ranges
  | audioRead => exact takeRow_ranged fun m _ h => startWith_ranged audioRead_starts m h
  | audioWrite => exact takeRow_ranged fun m _ h => startWith_ranged audioWrite_starts m h
  | layerQuery => exact commandRow_ranged 21 layerQuery_ranges
  | cycleQuery => exact commandRow_ranged 22 cycleQuery_ranges
  | laneQuery => exact commandRow_ranged 23 laneQuery_ranges
  | memoryQuery => exact commandRow_ranged 24 memoryQuery_ranges
  | ident => exact takeRow_ranged fun _ _ h => h
  | storeRead => exact takeRow_ranged fun _ _ h => h
  | storeWrite =>
    refine takeRow_ranged fun m s h => ?_
    unfold State.Ranged
    rw [storeWriteWith_eng]
    exact h
  | storeWordComplete => exact stateRow_ranged fun _ h => wordComplete_ranged h
  | storeApply => exact takeRow_ranged fun m s h => answerWith_ranged (storeApply_ranges s.store) m h
  | blockHold => exact commandRow_ranged 29 (blockCommand_ranges fun n _ h => holdBlock_ranges n h)
  | blockRelease => exact commandRow_ranged 30 (blockCommand_ranges fun n _ h => releaseBlock_ranges n h)
  | engineReset => exact takeRow_ranged fun m _ h => resetEngine_ranged m h
  | frame => exact stateRow_ranged fun _ h => frame_ranged h
  | spliceWaitLimit => exact engineRow_ranged (whenDue_ranged fun h => abandonSplice_ranges _ h)
  | spliceJump =>
    refine stateRow_ranged fun s h => ?_
    unfold State.jumpFrame
    split
    · exact frame_ranged h
    · exact h
  | crossfadeEnd => exact engineRow_ranged (whenDue_ranged fun h => endCrossfade_ranges h)
  | holdOffEnd => exact engineRow_ranged (whenDue_ranged fun h => { h with })
  | coast => exact engineRow_ranged fun _ h => coast_ranges h
  | record => exact cueRow_ranged _
  | close => exact cueRow_ranged _
  | autoClose => exact engineRow_ranged fun _ h => autoClose_ranges h
  | fixedCaptureComplete slot => exact engineRow_ranged (whenDue_ranged fun h => completeFixed_ranges slot h)
  | overdub => exact cueRow_ranged _
  | overdubEnd => exact cueRow_ranged _
  | play => exact cueRow_ranged _
  | stop => exact cueRow_ranged _
  | mute => exact cueRow_ranged _
  | unmute => exact cueRow_ranged _
  | undo => exact cueRow_ranged _
  | redo => exact cueRow_ranged _
  | clear => exact cueRow_ranged _
  | stopAll => exact cueRow_ranged _
  | playAll => exact cueRow_ranged _
  | pause => exact cueRow_ranged _
  | resume => exact cueRow_ranged _
  | clearAll => exact cueRow_ranged _
  | grantComplete => exact stateRow_ranged fun _ h => settleGrant_ranges h
  | primingComplete voice => exact engineRow_ranged (whenDue_ranged fun h => primingDone_ranges voice h)
  | recovery voice => exact engineRow_ranged (whenDue_ranged fun h => recoverFrame_ranges voice h)
  | voiceIdle voice => exact engineRow_ranged (whenDue_ranged fun h => idleVoice_ranges voice h)
  | clearFadeEnd voice => exact engineRow_ranged (whenDue_ranged fun h => clearFadeDone_ranges voice h)
  | clipWindowEnd => exact engineRow_ranged fun _ h => clipWindowEnd_ranges h
  | portFrameArrival port bits => exact engineRow_ranged fun _ h => portArrival_ranges port bits h
  | silentPeriod port => exact engineRow_ranged fun _ h => silentPeriod_ranges port h
  | lockAcquired port => exact engineRow_ranged fun _ h => acquireLock_ranges port h
  | lockLost port => exact engineRow_ranged fun _ h => loseLock_ranges port h
  | elasticFillDone port => exact engineRow_ranged fun _ h => fillDone_ranges port h
  | underrunEnd port => exact engineRow_ranged fun _ h => slipEnd_ranges .under port h
  | overrunEnd port => exact engineRow_ranged fun _ h => slipEnd_ranges .over port h
  | samplingEvent v0 v1 v2 v3 => exact engineRow_ranged fun _ h => samplingEvent_ranges _ h
  | powerOff =>
    refine stateRow_ranged fun s h => ?_
    unfold State.Ranged
    rw [losePower_eng]
    exact h

theorem execPowerOn_ranged {t : State} (ht : execPowerOn s = .next t) : t.Ranged := by
  simp only [execPowerOn, Host.Outcome.next.injEq] at ht
  subst ht
  split <;> exact resetWith_ranged _ _

theorem exec_keeps_ranged (c : Instr) {t : State} (h : s.Ranged) (ht : exec c s = .next t) : t.Ranged := by
  by_cases hc : c = .powerOn
  · subst hc
    exact execPowerOn_ranged ht
  obtain ⟨f, hf, hkeep⟩ := exec_ranged c hc
  rw [hf, stateRow, Host.Outcome.next.injEq] at ht
  subst ht
  unfold State.whenOn
  split
  · exact hkeep s h
  · exact h

end Sys2Proof.Machine

namespace Sys2Proof.Settled

open Sys2Proof.Machine

/-- Settles O4: every operation of the engine keeps the ranges (`Ranges`), with what it may rely on of the ports, the PLL
and the cycle state carried along; a FRAME settles the ports before its P0 frame lengthens a bad run. -/
theorem stepKeepsRanges : Obligations.StepKeepsRanges := by
  intro s t hs ht
  rw [Engine.inRange_iff] at hs ⊢
  unfold step at ht
  split at ht
  · cases ht
    exact hs
  next c rest _ => exact exec_keeps_ranged c (s := { s with pending := rest }) hs ht

end Sys2Proof.Settled
end

section
/-! Pages (R81, R82, R104, R105, R110, R114): what the account of pages rests on, and the operations that leave it as it
is. -/

set_option Elab.async false

namespace Sys2Proof.Machine

/-! ## The account -/

/-- What the account of pages needs of a layer: its state, its slot and its chains. -/
def Layer.place (r : Layer) : LayerState × Option SlotIx × Option (List Nat) × Option (List Nat) × Option (List Nat) :=
  (r.state, r.slot, r.cur, r.undo, r.redo)

/-- What it needs of a slot: its use and its layer. -/
def Slot.place (sl : Slot) : SlotUse × Option LayerIx := (sl.use, sl.layer)

/-- The voice is IDLE or plays out its clear fade. -/
def Voice.Quiet (v : Voice) : Prop := v.rs = .idle ∨ v.clearing = true

/-- No page filler job is of the layer. -/
def NoJob (e : Engine) (l : LayerIx) : Prop := ∀ j ∈ e.mem.jobs, j.layer ≠ l

/-- Engine `t` comes from engine `a` by operations that leave the account of pages as it is: pages, states and slots stand,
and a layer without a finished loop is given no job and no voice. -/
structure Spares (a t : Engine) : Prop where
  free : t.mem.free = a.mem.free
  layer : ∀ l : LayerIx, t.layers[l].place = a.layers[l].place
  slot : ∀ s : SlotIx, t.slots[s].place = a.slots[s].place
  jobs : ∀ l : LayerIx, a.layers[l].unmade = true → NoJob a l → NoJob t l
  quiet : ∀ l : LayerIx, a.layers[l].unmade = true → a.voices[l].Quiet → t.voices[l].Quiet

theorem place_unmade {r r' : Layer} (h : r.place = r'.place) : r.unmade = r'.unmade := by
  have hs : r.state = r'.state := congrArg Prod.fst h
  simp only [Layer.unmade, hs]

theorem place_pageUses {r r' : Layer} (h : r.place = r'.place) (pg : Nat) : r.pageUses pg = r'.pageUses pg := by
  simp only [Layer.place, Prod.mk.injEq] at h
  obtain ⟨_, _, hc, hu, hr⟩ := h
  simp only [Layer.pageUses, hc, hu, hr]

theorem place_chainsSound {r r' : Layer} (h : r.place = r'.place) (hs : r'.chainsSound) : r.chainsSound := by
  simp only [Layer.place, Prod.mk.injEq] at h
  obtain ⟨hst, hsl, hc, hu, hr⟩ := h
  simpa only [Layer.chainsSound, hst, hsl, hc, hu, hr] using hs

theorem Spares.refl (a : Engine) : Spares a a := ⟨rfl, fun _ => rfl, fun _ => rfl, fun _ _ h => h, fun _ _ h => h⟩

theorem Spares.trans {a e t : Engine} (h : Spares a e) (h' : Spares e t) : Spares a t where
  free := h'.free.trans h.free
  layer := fun l => (h'.layer l).trans (h.layer l)
  slot := fun s => (h'.slot s).trans (h.slot s)
  jobs := fun l hu hj => h'.jobs l ((place_unmade (h.layer l)).trans hu) (h.jobs l hu hj)
  quiet := fun l hu hq => h'.quiet l ((place_unmade (h.layer l)).trans hu) (h.quiet l hu hq)

theorem pageUses_congr {e t : Engine} (hf : t.mem.free = e.mem.free)
    (hl : ∀ l : LayerIx, t.layers[l].place = e.layers[l].place) (pg : Nat) : pageUses pg t = pageUses pg e := by
  unfold pageUses
  rw [hf]
  congr 2
  exact List.map_congr_left fun l _ => place_pageUses (hl l) pg

/-- The account of pages with the clauses named. -/
structure Pages (e : Engine) : Prop where
  uses : ∀ pg, pageUses pg e = if pg < Config.pageCount then 1 else 0
  chains : ∀ l : LayerIx, e.layers[l].chainsSound
  paired : ∀ (s : SlotIx) (l : LayerIx), e.layers[l].slot = some s ↔ e.slots[s].layer = some l
  freed : ∀ s : SlotIx, e.slots[s].use = .free → e.slots[s].layer = none
  unmade : ∀ l : LayerIx, e.layers[l].unmade = true → NoJob e l ∧ e.voices[l].Quiet

theorem pagesSound_iff (e : Engine) : e.pagesSound ↔ Pages e :=
  ⟨fun ⟨hu, hc, hp, hf, hm⟩ => ⟨hu, hc, hp, hf, hm⟩, fun ⟨hu, hc, hp, hf, hm⟩ => ⟨hu, hc, hp, hf, hm⟩⟩

theorem Spares.pages {a t : Engine} (h : Spares a t) (ha : Pages a) : Pages t where
  uses := fun pg => (pageUses_congr h.free h.layer pg).trans (ha.uses pg)
  chains := fun l => place_chainsSound (h.layer l) (ha.chains l)
  paired := fun s l => by
    have hl : t.layers[l].slot = a.layers[l].slot := congrArg (·.2.1) (h.layer l)
    have hs : t.slots[s].layer = a.slots[s].layer := congrArg (·.2) (h.slot s)
    rw [hl, hs]
    exact ha.paired s l
  freed := fun s hu => by
    have hs : t.slots[s].layer = a.slots[s].layer := congrArg (·.2) (h.slot s)
    have huse : t.slots[s].use = a.slots[s].use := congrArg (·.1) (h.slot s)
    rw [hs]
    exact ha.freed s (huse ▸ hu)
  unmade := fun l hu => by
    have hm := (place_unmade (h.layer l)).symm.trans hu
    obtain ⟨hj, hq⟩ := ha.unmade l hm
    exact ⟨h.jobs l hm hj, h.quiet l hm hq⟩

variable {a e : Engine}

theorem Spares.state (h : Spares a e) (l : LayerIx) : e.layers[l].state = a.layers[l].state := congrArg (·.1) (h.layer l)

theorem Spares.slotOf (h : Spares a e) (l : LayerIx) : e.layers[l].slot = a.layers[l].slot := congrArg (·.2.1) (h.layer l)

theorem Spares.made (h : Spares a e) {l : LayerIx} (hm : a.layers[l].unmade = false) : e.layers[l].unmade = false :=
  (place_unmade (h.layer l)).trans hm

theorem Spares.ite {c : Prop} [Decidable c] {x y : Engine} (hx : Spares a x) (hy : Spares a y) :
    Spares a (if c then x else y) := by
  split
  · exact hx
  · exact hy

/-! ## A change of one unit -/

/-- A change of a layer's other fields. -/
theorem Spares.modLayer {l : LayerIx} {f : Layer → Layer} (h : Spares a e)
    (hf : ∀ r : Layer, (f r).place = r.place := by intros; rfl) : Spares a (Machine.modLayer l f e) := by
  refine { h with layer := fun i => ?_ }
  simp only [modLayer_layers, Fin.getElem_fin, upd_get]
  split
  · exact (hf _).trans (h.layer i)
  · exact h.layer i

/-- A change of a slot's other fields. -/
theorem Spares.modSlot {s : SlotIx} {f : Slot → Slot} (h : Spares a e)
    (hf : ∀ sl : Slot, (f sl).place = sl.place := by intros; rfl) : Spares a (Machine.modSlot s f e) := by
  refine { h with slot := fun i => ?_ }
  simp only [modSlot_slots, Fin.getElem_fin, upd_get]
  split
  · exact (hf _).trans (h.slot i)
  · exact h.slot i

/-- A change of a voice that leaves a quiet one quiet. -/
theorem Spares.modVoice {l : LayerIx} {f : Voice → Voice} (h : Spares a e)
    (hf : ∀ v : Voice, v.Quiet → (f v).Quiet := by intro _ hv; exact hv) : Spares a (Machine.modVoice l f e) := by
  refine { h with quiet := fun i hu hq => ?_ }
  simp only [modVoice_voices, Fin.getElem_fin, upd_get]
  split
  · exact hf _ (h.quiet i hu hq)
  · exact h.quiet i hu hq

/-- A change of the voice of a layer that holds a loop. -/
theorem Spares.modMade {l : LayerIx} (hm : a.layers[l].unmade = false) (f : Voice → Voice) (h : Spares a e) :
    Spares a (Machine.modVoice l f e) := by
  refine { h with quiet := fun i hu hq => ?_ }
  have hil : l ≠ i := by
    rintro rfl
    rw [hm] at hu
    cases hu
  simp only [modVoice_voices, Fin.getElem_fin, upd_get, if_neg hil]
  exact h.quiet i hu hq

/-- Jobs that leave the list. -/
theorem Spares.fewerJobs {jobs : List Job} (hsub : ∀ j ∈ jobs, j ∈ e.mem.jobs) {m : LoopMem} (hfree : m.free = e.mem.free)
    (hjobs : m.jobs = jobs) (h : Spares a e) : Spares a { e with mem := m } :=
  { h with
    free := hfree.trans h.free
    jobs := fun l hu hj j hin => h.jobs l hu hj j (hsub j (hjobs ▸ hin)) }

/-! ## Shared operations -/

theorem post_spares (ev : Event) (h : Spares a e) : Spares a (post ev e) := { h with }

theorem onFollower_spares {f : Engine → Engine} (hf : ∀ e, Spares a e → Spares a (f e)) (h : Spares a e) :
    Spares a (onFollower f e) := by
  obtain ⟨heard, he⟩ := onFollower_only f e
  rw [he]
  exact { hf e h with }

theorem reportClip_spares (h : Spares a e) : Spares a (reportClip e) := by
  unfold reportClip
  split
  · exact h
  · split
    · exact { h with }
    · exact post_spares _ { h with }

theorem setFollowState_spares (st : FollowState) (c : FollowCause) (h : Spares a e) :
    Spares a (setFollowState st c e) := by
  unfold setFollowState
  split
  · exact { h with }
  · exact post_spares _ { h with }

theorem pageWrite_spares (l : LayerIx) (key pos : Nat) (x : Sample) (h : Spares a e) :
    Spares a (pageWrite l key pos x e) := by
  unfold pageWrite
  split
  · exact { h with }
  · exact h

theorem chainWrite_spares (l : LayerIx) (key pos : Nat) (x : Sample) (h : Spares a e) :
    Spares a (chainWrite l key pos x e) := by
  unfold chainWrite
  split
  · exact eachSlot_induct (fun s _ h => h.modSlot) h
  · exact pageWrite_spares l key pos x h

theorem chainWrites_spares (l : LayerIx) (key : Nat) :
    ∀ (xs : List Sample) (pos : Nat) {e : Engine}, Spares a e → Spares a (chainWrites l key pos xs e)
  | [], _, _, h => h
  | x :: xs, pos, _, h => chainWrites_spares l key xs _ (chainWrite_spares l key pos x h)

theorem drainWrites_spares (l : LayerIx) (key : Nat) :
    ∀ (ws : List (Nat × Sample)) {e : Engine}, Spares a e → Spares a (drainWrites l key ws e)
  | [], _, h => h
  | w :: ws, _, h => drainWrites_spares l key ws (pageWrite_spares l key w.1 w.2 h)

theorem cancelGrant_spares (p : Grant → Bool) (h : Spares a e) : Spares a (cancelGrant p e) := { h with }

theorem dropJobs_spares (p : Job → Bool) (h : Spares a e) : Spares a (dropJobs p e) :=
  cancelGrant_spares _ (h.fewerJobs (jobs := e.mem.jobs.filter fun j => !p j)
    (fun _ hj => (List.mem_filter.mp hj).1) rfl rfl)

theorem dropAge_spares (l : LayerIx) (h : Spares a e) : Spares a (dropAge l e) := { h with }

theorem setAgeKind_spares (l : LayerIx) (k : AgeKind) (h : Spares a e) : Spares a (setAgeKind l k e) := { h with }

/-! ## Voices and the splice -/

theorem leaves_quiet (len : Nat) (r : SpliceRec) {v : Voice} (h : v.Quiet) : (v.leaves len r).Quiet := by
  unfold Voice.leaves
  split <;> exact h

theorem voiceTake_quiet (fp : FramePos) (st : Stream) {v : Voice} (h : v.Quiet) : (voiceTake fp st v).Quiet := by
  unfold voiceTake
  dsimp only
  split
  · exact h
  · split
    · exact h
    · split <;> exact h

theorem voiceShort_quiet (running : Bool) {v : Voice} (h : v.Quiet) : (voiceShort running v).Quiet := by
  unfold voiceShort
  split
  · exact h
  · split
    · exact h
    · exact h.elim .inl .inr
  · split
    · exact h.elim .inl .inr
    · exact h.elim .inl .inr

theorem voicePresent_quiet (fp : FramePos) (st : Stream) {v : Voice} (h : v.Quiet) : (voicePresent fp st v).Quiet := by
  unfold voicePresent
  split
  · exact h
  · exact h
  · exact h
  · dsimp only
    split
    · split <;> exact h
    · split <;> exact h

/-- A quiet voice does not starve. -/
theorem starves_quiet (fp : FramePos) (st : Stream) {v : Voice} (h : v.Quiet) : starves fp st v = false := by
  obtain h | h := h
  · simp [starves, h]
  · simp [starves, h]

theorem voiceFrame_quiet (fp : FramePos) (st : Stream) (crossing : Bool) (step : Nat) {v : Voice} (h : v.Quiet) :
    (voiceFrame fp st crossing step v).Quiet := by
  have h0 := voiceTake_quiet fp st h
  have h1 := voicePresent_quiet fp st (voiceShort_quiet fp.running h0)
  simp only [voiceFrame, starves_quiet fp st h0, Bool.false_eq_true, if_false]
  exact h1

theorem leaveSplice_spares (v : LayerIx) (h : Spares a e) : Spares a (leaveSplice v e) := by
  have hc : ∀ sp, Spares a { e with cyc := { e.cyc with splice := sp } } := fun sp => { h with }
  unfold leaveSplice
  split
  · exact h
  · exact Spares.ite (hc _).modVoice h
  next r _ => exact Spares.ite ((hc _).modVoice fun _ hv => leaves_quiet _ r hv) h

/-- A quiet voice that primes is in its clear fade still. -/
theorem beginPriming_spares {l : LayerIx} (hrs : e.voices[l].rs ≠ .idle) (h : Spares a e) :
    Spares a (beginPriming l e) := by
  refine { h with quiet := fun i hu hq => ?_ }
  have hqe := h.quiet i hu hq
  simp only [beginPriming, modVoice_voices, Fin.getElem_fin, upd_get] at hqe ⊢
  split
  next hi =>
    subst hi
    exact .inr (hqe.resolve_left hrs)
  · exact hqe

theorem playVoice_spares {l : LayerIx} (hm : a.layers[l].unmade = false) (h : Spares a e) :
    Spares a (playVoice l e) := Spares.ite (h.modMade hm _) h

theorem idleVoice_spares (l : LayerIx) (h : Spares a e) : Spares a (idleVoice l e) :=
  (cancelGrant_spares _ h).modVoice fun _ _ => .inl rfl

theorem stopVoice_spares (l : LayerIx) (h : Spares a e) : Spares a (stopVoice l e) :=
  Spares.ite (idleVoice_spares l (leaveSplice_spares l h)) (leaveSplice_spares l h)

/-- The voice of an emptied layer is quiet. -/
def Voice.clear (v : Voice) : Voice :=
  if v.rs = .reading then { v with clearing := true, dir := .falling, flag := false } else Voice.reset

theorem clear_quiet (v : Voice) : v.clear.Quiet := by
  unfold Voice.clear
  split
  · exact .inr rfl
  · exact .inl rfl

theorem clearVoice_spares (l : LayerIx) (h : Spares a e) : Spares a (clearVoice l e) :=
  (leaveSplice_spares l h).modVoice fun v _ => clear_quiet v

theorem clearVoice_quiet (l : LayerIx) (e : Engine) : (clearVoice l e).voices[l].Quiet := by
  unfold clearVoice
  simp only [modVoice_voices, Fin.getElem_fin, upd_self]
  exact clear_quiet _

theorem recoverVoice_spares {l : LayerIx} (hm : a.layers[l].unmade = false) (h : Spares a e) :
    Spares a (recoverVoice l e) := by
  unfold recoverVoice
  dsimp only
  split
  · exact post_spares _ (h.modMade hm _)
  · exact h.modMade hm _

theorem clearFadeDone_spares (l : LayerIx) (h : Spares a e) : Spares a (clearFadeDone l e) := by
  have h1 : Spares a (modVoice l (fun _ => Voice.reset) e) := h.modVoice fun _ _ => .inl rfl
  unfold clearFadeDone
  dsimp only
  split
  next hst =>
    have hm : a.layers[l].unmade = false := by
      rw [← place_unmade (h.layer l)]
      obtain hst | hst := hst <;> simp only [Layer.unmade, hst] <;> rfl
    exact h1.modMade hm _
  · exact h1

theorem runVoice_spares (adv : Nat) (l : LayerIx) (h : Spares a e) : Spares a (runVoice adv l e) := by
  have h1 : Spares a (modVoice l (fun _ => voiceFrame (framePosOf e adv l) (streamOf e.cyc.splice l)
      e.cyc.splice.crossing (ceilDiv 4096 e.mix.fade) e.voices[l]) e) := by
    refine { h with quiet := fun i hu hq => ?_ }
    have hqe := h.quiet i hu hq
    simp only [modVoice_voices, Fin.getElem_fin, upd_get] at hqe ⊢
    split
    next hi => subst hi; exact voiceFrame_quiet _ _ _ _ hqe
    · exact hqe
  exact Spares.ite (post_spares _ h1) h1

/-- A walk over voices that leaves quiet ones quiet. -/
theorem modVoices_spares {f : Engine → LayerIx → Voice → Voice} (vs : List LayerIx) (h : Spares a e)
    (hf : ∀ e l v, v.Quiet → (f e l v).Quiet := by intro _ _ _ hv; exact hv) :
    Spares a (vs.foldl (fun e v => modVoice v (f e v) e) e) :=
  foldl_induct (fun l e h => h.modVoice (hf e l)) vs h

theorem requestSplice_spares (j : Int) (h : Spares a e) : Spares a (requestSplice j e) := by
  unfold requestSplice
  split
  · exact modVoices_spares _ { h with }
  · exact h

theorem discardStreams_spares (vs : List LayerIx) (h : Spares a e) : Spares a (discardStreams vs e) :=
  modVoices_spares vs h

theorem abandonSplice_spares (r : SkipReason) (h : Spares a e) : Spares a (abandonSplice r e) := by
  unfold abandonSplice
  split
  · exact post_spares _ (discardStreams_spares _ { h with })
  · exact h

theorem captureStops_spares (h : Spares a e) : Spares a (captureStops e) := by
  unfold captureStops
  split
  · split
    · exact discardStreams_spares _ { h with }
    · exact abandonSplice_spares _ h
  · exact h

theorem endCrossfade_spares (h : Spares a e) : Spares a (endCrossfade e) := by
  unfold endCrossfade
  split
  next r _ => exact modVoices_spares _ { h with } fun _ _ _ hv => leaves_quiet _ r hv
  · exact h

theorem alignStreams_spares (h : Spares a e) : Spares a (alignStreams e) := by
  unfold alignStreams
  split
  · exact modVoices_spares _ h
  · exact h

theorem jumpVoice_spares (r : SpliceRec) (v : LayerIx) (h : Spares a e) : Spares a (jumpVoice r v e) := by
  have h1 : Spares a (discardRefill v e) := cancelGrant_spares _ h
  unfold jumpVoice
  dsimp only
  split
  next hrs =>
    refine beginPriming_spares ?_ h1
    show e.voices[v].rs ≠ .idle
    rw [hrs]
    decide
  · exact h1.modVoice
  · exact Spares.ite h1.modVoice h
  · exact h

/-! ## Loop memory -/

theorem grantHold_spares (l : LayerIx) (h : Spares a e) : Spares a (grantHold l e) :=
  Spares.ite (post_spares _ h.modLayer) h

theorem grantHolds_spares (h : Spares a e) : Spares a (grantHolds e) :=
  eachLayer_induct (fun l _ h => grantHold_spares l h) h

theorem zeroFeed_spares (l : LayerIx) (h : Spares a e) : Spares a (zeroFeed l e) := by
  unfold zeroFeed
  extract_lets len pos n e1 stream spos
  have h1 : Spares a e1 := Spares.ite h.modVoice h
  clear_value e1
  exact Spares.ite h1.modVoice h1

theorem arbitrate_spares (h : Spares a e) : Spares a (arbitrate e) := by
  unfold arbitrate
  split
  · exact h
  · have h1 : Spares a (eachLayer zeroFeed e) := eachLayer_induct (fun l _ h => zeroFeed_spares l h) h
    generalize eachLayer zeroFeed e = e1 at h1
    exact { h1 with }

theorem voiceDone_spares (g : Grant) (l : LayerIx) (h : Spares a e) : Spares a (voiceDone g l e) :=
  Spares.ite h h.modVoice

theorem spliceDone_spares (g : Grant) (l : LayerIx) (h : Spares a e) : Spares a (spliceDone g l e) := by
  refine Spares.ite (h.modVoice fun v hv => ?_) h
  split <;> exact hv

theorem drainDone_spares (g : Grant) (s : SlotIx) (h : Spares a e) : Spares a (drainDone g s e) :=
  (drainWrites_spares g.layer g.key ((headRun e e.slots[s]).take g.count) h).modSlot

theorem transferDone_spares (g : Grant) (h : Spares a e) : Spares a (transferDone g e).1 := by
  unfold transferDone
  split
  · exact h
  next t _ =>
    extract_lets e1 data t1 e2 e3
    have h1 : Spares a e1 := Spares.ite (chainWrites_spares _ _ _ _ h) h
    clear_value e1
    split
    · have h2 : Spares a e2 := { h1 with }
      exact Spares.ite h2.modLayer h2
    · exact { h1 with }

theorem jobDone_spares (l : LayerIx) (k : FillKind) (h : Spares a e) : Spares a (jobDone l k e) :=
  grantHolds_spares (post_spares _ (h.fewerJobs (jobs := e.mem.jobs.drop 1)
    (fun _ hj => List.mem_of_mem_drop hj) rfl rfl))

/-- A job for a layer that holds a loop. -/
theorem addJob_spares {l : LayerIx} (hm : a.layers[l].unmade = false) (k : FillKind) (h : Spares a e) :
    Spares a (addJob l k e) := by
  refine { h with jobs := fun i hu hj j hin => ?_ }
  have hold := h.jobs i hu hj
  simp only [addJob] at hin
  split at hin
  · exact hold j hin
  · rcases List.mem_append.mp hin with hin | hin
    · exact hold j hin
    · obtain rfl := List.mem_singleton.mp hin
      rintro rfl
      rw [hm] at hu
      cases hu

theorem zeroFillDone_spares {l : LayerIx} (hm : a.layers[l].unmade = false) (h : Spares a e) :
    Spares a (zeroFillDone l e) := by
  unfold zeroFillDone
  extract_lets e1 e2
  have h1 : Spares a e1 := jobDone_spares l .zeroFill h
  clear_value e1
  have h2 : Spares a e2 := Spares.ite (addJob_spares hm _ h1) h1
  clear_value e2
  exact Spares.ite (h2.modMade hm _) h2

/-- A layer that has a job holds a loop. -/
theorem Pages.job_made (h : Pages e) {j : Job} (hj : j ∈ e.mem.jobs) : e.layers[j.layer].unmade = false := by
  by_contra hu
  exact (h.unmade j.layer (by simpa using hu)).1 j hj rfl

theorem fillerDone_spares (g : Grant) (hp : Pages e) : Spares e (fillerDone g e) := by
  have h := Spares.refl e
  unfold fillerDone
  split
  · exact h
  next j rest hjobs =>
    have hm : e.layers[j.layer].unmade = false := hp.job_made (hjobs ▸ List.mem_cons_self)
    split
    · split
      · extract_lets xs e1 mem e2
        have h1 : Spares e e1 := chainWrites_spares g.layer g.key xs g.first h
        have h2 : Spares e e2 := { h1 with }
        clear_value e2
        split
        · exact Spares.ite (jobDone_spares _ _ h2.modLayer) h2.modLayer
        · exact h2
      · exact { h with }
    · extract_lets e1 done
      have h1 : Spares e e1 := chainWrites_spares g.layer g.key _ g.first h
      clear_value e1
      refine Spares.ite (zeroFillDone_spares hm h1) { h1 with jobs := fun l hu hj i hin => ?_ }
      rcases List.mem_cons.mp hin with rfl | hin
      · exact hj j (hjobs ▸ List.mem_cons_self)
      · exact hj i (hjobs ▸ List.mem_cons_of_mem _ hin)

theorem completeGrant_spares (hp : Pages e) : Spares e (completeGrant e).1 := by
  unfold completeGrant
  split
  · exact .refl e
  next g _ =>
    extract_lets mem e0 out
    have h0 : Spares e e0 := { Spares.refl e with }
    have hp0 : Pages e0 := h0.pages hp
    have hout : Spares e out.1 := by
      unfold out
      split
      · exact h0
      · cases g.who with
        | slot s => exact drainDone_spares g s h0
        | voice l => exact voiceDone_spares g l h0
        | splice l => exact spliceDone_spares g l h0
        | transfer => exact transferDone_spares g h0
        | filler => exact h0.trans (fillerDone_spares g hp0)
    clear_value out
    exact arbitrate_spares hout

/-! ## Staging -/

theorem closeTail_place (sl : Slot) : (closeTail sl).place = sl.place := by
  unfold closeTail
  split <;> rfl

theorem closeGap_spares (s : SlotIx) (h : Spares a e) : Spares a (closeGap s e) := by
  unfold closeGap
  split
  · exact post_spares _ (h.modSlot closeTail_place)
  · exact h

theorem stageNew_spares (s : SlotIx) (l : LayerIx) (key pos : Nat) (x : Sample) (h : Spares a e) :
    Spares a (stageNew s l key pos x e) := by
  refine Spares.ite (h.modSlot fun sl => ?_) (closeGap_spares s h).modSlot
  split <;> rfl

theorem stageAgain_spares (s : SlotIx) (l : LayerIx) (key pos : Nat) (x : Sample) (h : Spares a e) :
    Spares a (stageAgain s l key pos x e) := by
  unfold stageAgain
  split
  · exact h
  · exact Spares.ite h.modSlot (stageNew_spares s l key pos x h)
  · exact stageNew_spares s l key pos x h

theorem stageWrite_spares (s : SlotIx) (l : LayerIx) (w : SlotWrite) (h : Spares a e) :
    Spares a (stageWrite s l w e) := by
  unfold stageWrite
  split
  · exact Spares.ite (stageAgain_spares _ _ _ _ _ h) (stageNew_spares _ _ _ _ _ h)
  · exact h

theorem growWritten_spares (l : LayerIx) (h : Spares a e) : Spares a (growWritten l e) := by
  unfold growWritten
  split
  · exact h.modLayer
  · exact h

theorem noteTaken_spares (s : SlotIx) (l : LayerIx) (h : Spares a e) : Spares a (noteTaken s l e) := by
  obtain ⟨lanes, he⟩ := noteTaken_only s l e
  rw [he]
  exact { h with }

theorem recoverDone_spares {l : LayerIx} (hm : a.layers[l].unmade = false) (h : Spares a e) :
    Spares a (recoverDone l e) := by
  have h1 := recoverVoice_spares hm h
  unfold recoverDone
  dsimp only
  split
  · exact h1.modSlot
  · exact h1

/-! ## The follower and the cycle clock -/

theorem trimWith_spares (b : Nat) (h : Spares a e) : Spares a (trimWith b e) := Spares.ite { h with } h

theorem followBeat_spares (h : Spares a e) : Spares a (followBeat e) :=
  onFollower_spares (fun _ h => Spares.ite { h with } h) h

theorem coast_spares (h : Spares a e) : Spares a (coast e) :=
  onFollower_spares (fun _ h => Spares.ite (setFollowState_spares _ _ h) h) h

theorem followLapse_spares (c : FollowCause) (h : Spares a e) : Spares a (followLapse c e) :=
  onFollower_spares (fun _ h => Spares.ite (setFollowState_spares _ _ h) h) h

theorem clearDecision_spares (h : Spares a e) : Spares a (clearDecision e) :=
  onFollower_spares (fun _ h => { h with }) h

theorem noteGrid_spares (h : Spares a e) : Spares a (noteGrid e) := { h with }

theorem acceptOnset_spares (err : Int) (b : Nat) (h : Spares a e) : Spares a (acceptOnset err b e) :=
  trimWith_spares b (Spares.ite (post_spares _ { h with }) { h with })

theorem measureOnset_spares (k : OnsetKind) (h : Spares a e) : Spares a (measureOnset k e) :=
  onFollower_spares (fun e h => by
    dsimp only
    split
    · exact h
    · exact Spares.ite (acceptOnset_spares _ _ { h with }) { h with }) h

theorem detect_spares (h : Spares a e) : Spares a (detect e).1 := by
  unfold detect
  split
  · exact h
  · split
    · exact { h with }
    · split
      · exact { h with }
      · exact h

theorem decideSplice_spares (h : Spares a e) : Spares a (decideSplice e) :=
  Spares.ite h (Spares.ite { h with } (requestSplice_spares _ { h with }))

theorem followJump_spares (j : Int) (h : Spares a e) : Spares a (followJump j e) :=
  Spares.ite (trimWith_spares _ { h with }) h

theorem changeSource_spares (src : BeatSource) (h : Spares a e) : Spares a (changeSource src e) :=
  Spares.ite h (setFollowState_spares _ _ { h with })

theorem setFollower_spares (p : List Byte) (src : BeatSource) (h : Spares a e) : Spares a (setFollower p src e) :=
  onFollower_spares (fun e h => by
    have h1 : Spares a (changeSource src { e with fol := followParams p e.fol }) := changeSource_spares src { h with }
    exact trimWith_spares _ { h1 with }) h

theorem followSet_spares (p : List Byte) (h : Spares a e) : Spares a (followSet p e).1 := by
  unfold followSet
  split
  · exact h
  · split
    · exact h
    · split
      · exact h
      · exact setFollower_spares p _ h

theorem holdFollower_spares (h : Spares a e) : Spares a (holdFollower e) :=
  onFollower_spares (fun _ h => Spares.ite h (setFollowState_spares _ _ { h with })) h

theorem releaseFollower_spares (h : Spares a e) : Spares a (releaseFollower e) :=
  onFollower_spares (fun _ h => Spares.ite (Spares.ite { h with } (setFollowState_spares _ _ { h with })) h) h

theorem countCues_spares (b : Boundary) (w : Nat) (h : Spares a e) : Spares a (countCues b w e) := { h with }

theorem beatBoundary_spares (w : Nat) (h : Spares a e) : Spares a (beatBoundary w e) :=
  followBeat_spares (countCues_spares _ w (post_spares _ h))

theorem bareBoundary_spares (w : Nat) (h : Spares a e) : Spares a (bareBoundary w e) :=
  beatBoundary_spares w (countCues_spares _ w { h with })

theorem cycleBoundary_spares (w : Nat) (h : Spares a e) : Spares a (cycleBoundary w e) :=
  eachLayer_induct (fun _ _ h => Spares.ite (countCues_spares _ w (post_spares _ h)) h) (bareBoundary_spares w h)

theorem fireBeats_spares (q : Nat) : ∀ (fuel : Nat) {e : Engine}, Spares a e → Spares a (fireBeats q fuel e)
  | 0, _, h => h
  | fuel + 1, _, h => Spares.ite (fireBeats_spares q fuel (beatBoundary_spares 0 { h with })) h

theorem wrapCycle_spares (h : Spares a e) : Spares a (wrapCycle e) := by
  unfold wrapCycle
  extract_lets e1 e2 e3
  have h2 : Spares a e2 := clearDecision_spares (abandonSplice_spares _ { h with })
  exact cycleBoundary_spares 0 (Spares.ite (trimWith_spares _ h2) h2)

theorem takeJump_spares (h : Spares a e) : Spares a (takeJump e).1 := by
  unfold takeJump
  split
  · split
    · exact abandonSplice_spares _ h
    · exact { h with }
  · exact h

theorem landJump_spares (r : SpliceRec) (h : Spares a e) : Spares a (landJump r e) :=
  eachLayer_induct (fun v _ h => jumpVoice_spares r v h)
    (post_spares _ (followJump_spares r.j (fireBeats_spares _ _ h)))

theorem advanceCycle_spares (jump : Bool) (h : Spares a e) : Spares a (advanceCycle jump e) := by
  unfold advanceCycle
  extract_lets e1 q out e2 e3
  have h1 : Spares a e1 := { h with }
  clear_value e1
  have hout : Spares a out.1 := by
    unfold out
    split
    · exact takeJump_spares h1
    · exact h1
  clear_value out
  have h2 : Spares a e2 := fireBeats_spares _ _ hout
  have h3 : Spares a e3 := Spares.ite (decideSplice_spares h2) h2
  clear_value e3
  split
  · exact wrapCycle_spares h1
  · split
    · exact h3
    · exact landJump_spares _ h3

theorem startCycle_spares (len : Nat) (h : Spares a e) : Spares a (startCycle len e) := clearDecision_spares { h with }

theorem leaveBase_spares (h : Spares a e) : Spares a (leaveBase e) :=
  clearDecision_spares (followLapse_spares _ { h with })

theorem enterPaused_spares (h : Spares a e) : Spares a (enterPaused e) :=
  followLapse_spares _ (endCrossfade_spares (abandonSplice_spares _ { h with }))

theorem returnToUnset_spares (h : Spares a e) : Spares a (returnToUnset e) :=
  post_spares _ (clearDecision_spares (followLapse_spares _ (endCrossfade_spares (abandonSplice_spares _ { h with }))))

end Sys2Proof.Machine
end

section
/-! Pages, continued: the pedals, the mixer, the ports and the parts of a frame leave the account as it is. -/

set_option Elab.async false

namespace Sys2Proof.Machine

variable {a e : Engine}

/-! ## The pedals and the mixer -/

theorem writeTarget_spares (t : PedalTarget) (v : Nat) (h : Spares a e) : Spares a (writeTarget t v e) := by
  cases t with
  | layerGain l => exact h.modLayer
  | layerPan l => exact h.modLayer
  | overdubLevel l => exact h.modLayer
  | overdubFeedback l => exact h.modLayer
  | liveGain l => exact { h with }
  | livePan l => exact { h with }
  | masterGain => exact { h with }

theorem applyEntry_spares (i : MapIx) (h : Spares a e) : Spares a (applyEntry i e) := by
  obtain he | ⟨t, v, m, he⟩ := applyEntry_cases i e
  · rw [he]; exact h
  · rw [he]; exact { writeTarget_spares t v h with }

theorem samplingEvent_spares (pins : Vector (BitVec 10) 4) (h : Spares a e) : Spares a (samplingEvent pins e) := by
  unfold samplingEvent
  split
  · extract_lets ped e1
    have h1 : Spares a e1 := { h with }
    exact Spares.ite h1 (foldl_induct (fun i _ h => applyEntry_spares i h) mapIxs { h1 with })
  · exact h

theorem tickSampling_spares (h : Spares a e) : Spares a (tickSampling e) := Spares.ite { h with } { h with }

theorem tickGrant_spares (h : Spares a e) : Spares a (tickGrant e) := { h with }

theorem releasePedals_spares (h : Spares a e) : Spares a (releasePedals e) := Spares.ite { h with } h

theorem clipWindowEnd_spares (h : Spares a e) : Spares a (clipWindowEnd e) := Spares.ite { h with } h

theorem muteOutput_spares (h : Spares a e) : Spares a (muteOutput e) := { h with }

theorem mixFrame_spares (h : Spares a e) : Spares a (mixFrame e) := by
  unfold mixFrame
  extract_lets e1
  have h1 : Spares a e1 := { h with }
  clear_value e1
  exact Spares.ite { h1 with } { h1 with }

theorem recoverFrame_spares {l : LayerIx} (hm : a.layers[l].unmade = false) (h : Spares a e) :
    Spares a (recoverFrame l e) := by
  unfold recoverFrame
  extract_lets e1
  have h1 : Spares a e1 := recoverDone_spares hm h
  clear_value e1
  exact Spares.ite { h1 with } h1

/-! ## Ports and lanes -/

theorem unhear_spares (hd : Heard) (h : Spares a e) : Spares a (unhear hd e) := { h with }

theorem deafen_spares (l : LaneIx) (h : Spares a e) : Spares a (deafen l e) := by
  unfold deafen
  split
  · exact Spares.ite (unhear_spares _ h) h
  · exact h

theorem silenceLane_spares (l : LaneIx) (h : Spares a e) : Spares a (silenceLane l e) := by
  unfold silenceLane
  extract_lets e0 ln e1 e2
  have h0 : Spares a e0 := deafen_spares l h
  clear_value e0
  have h1 : Spares a e1 := { h0 with }
  have h2 : Spares a e2 := eachSlot_induct (fun _ _ h => h.modSlot) h1
  exact { h2 with }

theorem silenceLanes_spares (p : PortIx) (h : Spares a e) : Spares a (silenceLanes p e) :=
  eachQuad_induct (fun l _ h => Spares.ite (silenceLane_spares l h) h) h

theorem adoptPort0_spares (c : ClockCause) (h : Spares a e) : Spares a (adoptPort0 c e) := post_spares _ { h with }

theorem fallback_spares (h : Spares a e) : Spares a (fallback e) := post_spares _ { h with }

theorem dropWaiting_spares (p : PortIx) (h : Spares a e) : Spares a (dropWaiting p e) := Spares.ite { h with } h

theorem endRecovery_spares (p : PortIx) (h : Spares a e) : Spares a (endRecovery p e) :=
  Spares.ite h (post_spares _ { h with })

theorem dropLock_spares (p : PortIx) (k : Lock) (h : Spares a e) : Spares a (dropLock p k e) := by
  unfold dropLock
  split
  · exact h
  · extract_lets e1 e2
    have h1 : Spares a e1 := { endRecovery_spares p h with }
    have h2 : Spares a e2 := post_spares _ (dropWaiting_spares p (silenceLanes_spares p h1))
    exact Spares.ite (Spares.ite (fallback_spares h2) h2) (post_spares _ h1)

theorem acquireLock_spares (p : PortIx) (h : Spares a e) : Spares a (acquireLock p e) := by
  unfold acquireLock
  split
  · extract_lets e1
    have h1 : Spares a e1 := post_spares _ { h with }
    exact Spares.ite (adoptPort0_spares _ h1) h1
  · exact h

theorem loseLock_spares (p : PortIx) (h : Spares a e) : Spares a (loseLock p e) :=
  Spares.ite { dropLock_spares p .searching h with } h

theorem relockPort_spares (p : PortIx) (h : Spares a e) : Spares a (relockPort p e) :=
  Spares.ite (dropLock_spares p _ h) { h with }

theorem beginRelock_spares (rate : Nat) (h : Spares a e) : Spares a (beginRelock rate e) := by
  unfold beginRelock
  extract_lets e0 clk e1 clk2 e2
  have h0 : Spares a e0 := samplingEvent_spares e.ped.pins h
  clear_value e0
  have h1 : Spares a e1 := post_spares _ { h0 with }
  clear_value e1
  have h2 : Spares a e2 := Spares.ite (post_spares _ { h1 with }) h1
  clear_value e2
  exact muteOutput_spares (reportClip_spares (eachQuad_induct (fun p _ h => relockPort_spares p h) h2))

theorem endRelock_spares (h : Spares a e) : Spares a (endRelock e) :=
  Spares.ite h (Spares.ite { h with } (post_spares _ { h with }))

theorem goodFrame_spares (p : PortIx) (w : Sample × Sample) (h : Spares a e) : Spares a (goodFrame p w e) := by
  unfold goodFrame
  split
  · exact h
  · exact { h with }
  · exact Spares.ite { h with } { h with }

theorem badFrame_spares (p : PortIx) (h : Spares a e) : Spares a (badFrame p e) := by
  unfold badFrame
  split
  · exact h
  · exact { h with }
  · exact Spares.ite { h with } { h with }

theorem fillDone_spares (p : PortIx) (h : Spares a e) : Spares a (fillDone p e) := Spares.ite { h with } h

theorem slipEnd_spares (k : Recovery) (p : PortIx) (h : Spares a e) : Spares a (slipEnd k p e) :=
  Spares.ite (endRecovery_spares p h) h

theorem settlePort_spares (p : PortIx) (h : Spares a e) : Spares a (settlePort p e) :=
  slipEnd_spares _ p (slipEnd_spares _ p (loseLock_spares p (acquireLock_spares p h)))

theorem portArrival_spares (p : PortIx) (bits : List Bool) (h : Spares a e) : Spares a (portArrival p bits e) := by
  unfold portArrival
  extract_lets e1 q judged
  have h1 : Spares a e1 := settlePort_spares p h
  clear_value e1
  have hj : Spares a judged := Spares.ite h1 (Spares.ite (goodFrame_spares p _ h1) (badFrame_spares p h1))
  exact Spares.ite h1 { hj with }

theorem silentPeriod_spares (p : PortIx) (h : Spares a e) : Spares a (silentPeriod p e) :=
  Spares.ite (badFrame_spares p (settlePort_spares p h)) (settlePort_spares p h)

theorem removeFrame_spares (p : PortIx) (h : Spares a e) : Spares a (removeFrame p e) :=
  Spares.ite h (Spares.ite (fillDone_spares p h) { fillDone_spares p h with })

theorem takeP0_spares (h : Spares a e) : Spares a (takeP0 e) := by
  unfold takeP0
  split
  · exact h
  · exact { h with }

theorem enablePort_spares (p : PortIx) (on : Bool) (h : Spares a e) : Spares a (enablePort p on e) := by
  unfold enablePort
  extract_lets e1 q
  have h1 : Spares a e1 := { h with }
  exact Spares.ite (dropLock_spares p _ h1) (Spares.ite (dropLock_spares p _ h1) h1)

theorem holdPort_spares (p : PortIx) (h : Spares a e) : Spares a (holdPort p e) :=
  Spares.ite h (dropLock_spares p _ { h with })

theorem releasePort_spares (p : PortIx) (h : Spares a e) : Spares a (releasePort p e) := by
  unfold releasePort
  split
  · extract_lets e1
    have h1 : Spares a e1 := { h with }
    exact Spares.ite (dropLock_spares p _ h1) h1
  · exact h

theorem selectSource_spares (src : ClockSource) (h : Spares a e) : Spares a (selectSource src e) := by
  unfold selectSource
  extract_lets clk e1
  have h1 : Spares a e1 := { h with }
  clear_value e1
  cases src with
  | port0 => exact Spares.ite (adoptPort0_spares _ h1) h1
  | internal =>
    have hs : Spares a (post (.clockSource .internal .set) { e1 with clk := { e1.clk with active := .internal } }) :=
      post_spares _ { h1 with }
    exact Spares.ite (silenceLanes_spares 0 { hs with }) h1

/-! ## Cues that execute -/

theorem removeCue_spares (n : Nat) (h : Spares a e) : Spares a (removeCue n e) := { h with }

theorem deferCue_spares (n : Nat) (h : Spares a e) : Spares a (deferCue n e) := { h with }

/-! ## The frame -/

theorem countCues_frame (h : Spares a e) : Spares a (countCues .frame 0 e) := countCues_spares .frame 0 h

theorem settleClock_spares (h : Spares a e) : Spares a (settleClock e) := by
  unfold settleClock
  extract_lets e1
  have h1 : Spares a e1 := coast_spares (Spares.ite { h with } h)
  exact Spares.ite (endCrossfade_spares h1) h1

/-- A layer that sounds holds a loop. -/
theorem made_of_sounding {r : Layer} (h : (r.state == .playing || r.state == .overdubbing) = true) :
    r.unmade = false := by
  obtain hst | hst := (Bool.or_eq_true _ _).mp h <;> simp [Layer.unmade, beq_iff_eq.mp hst]

/-- A quiet voice that is PRIMING plays out its clear fade, and goes on with it. -/
theorem primingDone_spares {l : LayerIx} (hrs : e.voices[l].rs = .priming) (h : Spares a e) :
    Spares a (primingDone l e) := by
  refine { h with quiet := fun i hu hq => ?_ }
  have hqe := h.quiet i hu hq
  simp only [primingDone, modVoice_voices, Fin.getElem_fin, upd_get] at hrs hqe ⊢
  split
  next hi =>
    subst hi
    exact .inr (hqe.resolve_left (by rw [hrs]; decide))
  · exact hqe

theorem settleVoice_spares (l : LayerIx) (h : Spares a e) : Spares a (settleVoice l e) := by
  unfold settleVoice
  extract_lets e1
  have h1 : Spares a e1 := by
    unfold e1
    split
    next hdue =>
      simp only [recoveryDue, Bool.and_eq_true] at hdue
      have hm := (place_unmade (h.layer l)).symm.trans (made_of_sounding hdue.1.2)
      exact recoverFrame_spares hm h
    · exact h
  clear_value e1
  split
  next hdue =>
    simp only [primingDue, Bool.and_eq_true, beq_iff_eq] at hdue
    exact primingDone_spares hdue.1.1 h1
  · exact h1

theorem settleFade_spares (l : LayerIx) (h : Spares a e) : Spares a (settleFade l e) := by
  unfold settleFade
  extract_lets e1
  have h1 : Spares a e1 := Spares.ite (idleVoice_spares l h) h
  exact Spares.ite (clearFadeDone_spares l h1) h1

theorem settleSplice_spares (h : Spares a e) : Spares a (settleSplice e) := by
  unfold settleSplice
  extract_lets e1
  have h1 : Spares a e1 := arbitrate_spares (alignStreams_spares h)
  exact Spares.ite (abandonSplice_spares _ h1) h1

theorem cycleFrame_spares (jump : Bool) (h : Spares a e) : Spares a (cycleFrame jump e) :=
  Spares.ite (bareBoundary_spares 0 { h with }) (Spares.ite (advanceCycle_spares jump h) h)

theorem latchTargets_spares (h : Spares a e) : Spares a (latchTargets e) := by
  have h0 : Spares a (eachLayer (fun l e => modVoice l (fun v => { v with target := voiceTarget e l }) e) e) :=
    eachLayer_induct (fun _ _ h => h.modVoice) h
  exact { h0 with }

theorem openFrame_spares (h : Spares a e) : Spares a (openFrame e) := { takeP0_spares (latchTargets_spares h) with }

theorem formWrites_spares (s : SlotIx) (h : Spares a e) : Spares a (formWrites s e) := h.modSlot

theorem frameAudio_spares (adv : Nat) (h : Spares a e) : Spares a (frameAudio adv e) := by
  have h1 : Spares a (eachQuad runLane (eachQuad removeFrame e)) :=
    eachQuad_induct (fun _ _ h => { h with }) (eachQuad_induct (fun p _ h => removeFrame_spares p h) h)
  exact mixFrame_spares (eachLayer_induct (fun l _ h => runVoice_spares adv l h)
    (eachSlot_induct (fun s _ h => formWrites_spares s h) h1))

end Sys2Proof.Machine
end

section
/-! Pages, continued: how chains, slots and states change hands (R44, R47, R56, R82, R83, R105, R107 to R112). -/

set_option Elab.async false

namespace Sys2Proof.Machine

/-! ## The account but for one layer -/

/-- The account of pages but for what the state of layer `l` asks: it stands between two steps of a change of the layer. -/
structure PagesBut (l : LayerIx) (e : Engine) : Prop where
  uses : ∀ pg, pageUses pg e = if pg < Config.pageCount then 1 else 0
  kept : e.layers[l].undo = none ∨ e.layers[l].redo = none
  chains : ∀ i : LayerIx, i ≠ l → e.layers[i].chainsSound
  paired : ∀ (s : SlotIx) (i : LayerIx), e.layers[i].slot = some s ↔ e.slots[s].layer = some i
  freed : ∀ s : SlotIx, e.slots[s].use = .free → e.slots[s].layer = none
  unmade : ∀ i : LayerIx, i ≠ l → e.layers[i].unmade = true → NoJob e i ∧ e.voices[i].Quiet

variable {a e : Engine} {l : LayerIx}

theorem Pages.but (h : Pages e) (l : LayerIx) : PagesBut l e :=
  ⟨h.uses, (h.chains l).1, fun i _ => h.chains i, h.paired, h.freed, fun i _ => h.unmade i⟩

theorem PagesBut.close (h : PagesBut l e) (hc : e.layers[l].chainsSound)
    (hu : e.layers[l].unmade = true → NoJob e l ∧ e.voices[l].Quiet) : Pages e where
  uses := h.uses
  chains := fun i => by
    by_cases hi : i = l
    · exact hi ▸ hc
    · exact h.chains i hi
  paired := h.paired
  freed := h.freed
  unmade := fun i => by
    by_cases hi : i = l
    · subst hi; exact hu
    · exact h.unmade i hi

/-- An operation that spares the account keeps it. -/
theorem Pages.spared {t : Engine} (h : Pages e) (hs : Spares e e → Spares e t) : Pages t := (hs (.refl e)).pages h

theorem Pages.ite {c : Prop} [Decidable c] {x y : Engine} (hx : Pages x) (hy : Pages y) : Pages (if c then x else y) := by
  split
  · exact hx
  · exact hy

/-- A layer that neither captures nor overdubs has no slot. -/
theorem Pages.noSlot (h : Pages e) (hc : e.layers[l].state ≠ .capturing) (ho : e.layers[l].state ≠ .overdubbing) :
    e.layers[l].slot = none := by
  by_contra hs
  exact ((h.chains l).2.2 (Option.isSome_iff_ne_none.mpr hs)).elim hc ho

/-- The layer of a slot captures or overdubs. -/
theorem Pages.slotState (h : Pages e) {s : SlotIx} (hs : e.slots[s].layer = some l) :
    e.layers[l].state = .capturing ∨ e.layers[l].state = .overdubbing :=
  (h.chains l).2.2 (by rw [(h.paired s l).mpr hs]; rfl)

/-- What an EMPTY layer has of the account: no slot, no chain, no job and a quiet voice. -/
structure Bare (l : LayerIx) (e : Engine) : Prop where
  slot : e.layers[l].slot = none
  cur : e.layers[l].cur = none
  undo : e.layers[l].undo = none
  redo : e.layers[l].redo = none
  jobs : NoJob e l
  quiet : e.voices[l].Quiet

theorem Pages.bare (h : Pages e) (hst : e.layers[l].state = .empty ∨ e.layers[l].state = .armed) : Bare l e := by
  obtain ⟨hc, hu, hr⟩ := (h.chains l).2.1 hst
  have hum : e.layers[l].unmade = true := by obtain hst | hst := hst <;> simp only [Layer.unmade, hst] <;> rfl
  obtain ⟨hj, hq⟩ := h.unmade l hum
  refine ⟨h.noSlot ?_ ?_, hc, hu, hr, hj, hq⟩ <;> obtain hst | hst := hst <;> rw [hst] <;> decide

/-! ## Pages that change hands -/

/-- The uses of a page: on the free list, in the layer's chains and in the others'. -/
theorem pageUses_split (pg : Nat) (e : Engine) (l : LayerIx) :
    pageUses pg e = e.mem.free.count pg + e.layers[l].pageUses pg
      + ∑ i ∈ Finset.univ.erase l, e.layers[i].pageUses pg := by
  have hsum : (layerIxs.map fun i => e.layers[i].pageUses pg).sum = ∑ i : LayerIx, e.layers[i].pageUses pg := by
    rw [← List.sum_ofFn, List.ofFn_eq_map]
    rfl
  rw [pageUses, hsum, ← Finset.add_sum_erase _ _ (Finset.mem_univ l), Nat.add_assoc]

/-- The engine with another free list. -/
def withFree (free : List Nat) (e : Engine) : Engine := { e with mem := { e.mem with free := free } }

/-- Layer `l` and the free list exchange pages: the layer's chains become `cur`, `undo` and `redo`. -/
theorem PagesBut.rechain {free : List Nat} {g : Layer → Layer} {cur undo redo : Option (List Nat)}
    (h : PagesBut l a) (hs : Spares (withFree free a) e)
    (hg : (g e.layers[l]).place = (e.layers[l].state, e.layers[l].slot, cur, undo, redo))
    (hkept : undo = none ∨ redo = none)
    (hcount : ∀ pg, free.count pg + (chainCount pg cur + chainCount pg undo + chainCount pg redo)
      = a.mem.free.count pg + a.layers[l].pageUses pg) : PagesBut l (modLayer l g e) := by
  have hother : ∀ i : LayerIx, i ≠ l → (modLayer l g e).layers[i].place = a.layers[i].place := fun i hi => by
    simp only [modLayer_layers, Fin.getElem_fin, upd_get, if_neg (Ne.symm hi)]
    exact hs.layer i
  have hself : (modLayer l g e).layers[l].place = (e.layers[l].state, e.layers[l].slot, cur, undo, redo) := by
    simpa only [modLayer_layers, Fin.getElem_fin, upd_self] using hg
  simp only [Layer.place, Prod.mk.injEq] at hself
  obtain ⟨_, hsl, hc, hu, hr⟩ := hself
  have hslot : ∀ i : LayerIx, (modLayer l g e).layers[i].slot = a.layers[i].slot := fun i => by
    by_cases hi : i = l
    · subst hi
      exact hsl.trans (hs.slotOf i)
    · exact congrArg (·.2.1) (hother i hi)
  have hslots : ∀ s : SlotIx, (modLayer l g e).slots[s].place = a.slots[s].place := hs.slot
  refine ⟨fun pg => ?_, ?_, fun i hi => place_chainsSound (hother i hi) (h.chains i hi), fun s i => ?_, fun s hus => ?_,
    fun i hi hui => ?_⟩
  · have hrest : ∑ i ∈ Finset.univ.erase l, (modLayer l g e).layers[i].pageUses pg
        = ∑ i ∈ Finset.univ.erase l, a.layers[i].pageUses pg :=
      Finset.sum_congr rfl fun i hi => place_pageUses (hother i (Finset.ne_of_mem_erase hi)) pg
    have hfree : (modLayer l g e).mem.free = free := hs.free
    rw [← h.uses pg, pageUses_split pg (modLayer l g e) l, pageUses_split pg a l, hrest, hfree, ← hcount pg]
    simp only [Layer.pageUses, hc, hu, hr]
  · rw [hu, hr]
    exact hkept
  · rw [hslot i, show (modLayer l g e).slots[s].layer = a.slots[s].layer from congrArg (·.2) (hslots s)]
    exact h.paired s i
  · rw [show (modLayer l g e).slots[s].layer = a.slots[s].layer from congrArg (·.2) (hslots s)]
    exact h.freed s ((congrArg (·.1) (hslots s)).symm.trans hus)
  · have hua : a.layers[i].unmade = true := (place_unmade (hother i hi)).symm.trans hui
    obtain ⟨hj, hq⟩ := h.unmade i hi hua
    exact ⟨hs.jobs i hua hj, hs.quiet i hua hq⟩

/-- The exchange of a layer whose state allows the chains. -/
theorem Pages.rechain {free : List Nat} {g : Layer → Layer} {cur undo redo : Option (List Nat)}
    (h : Pages a) (hs : Spares (withFree free a) e)
    (hg : (g e.layers[l]).place = (e.layers[l].state, e.layers[l].slot, cur, undo, redo))
    (hkept : undo = none ∨ redo = none)
    (hcount : ∀ pg, free.count pg + (chainCount pg cur + chainCount pg undo + chainCount pg redo)
      = a.mem.free.count pg + a.layers[l].pageUses pg)
    (hst : a.layers[l].state = .empty ∨ a.layers[l].state = .armed → cur = none ∧ undo = none ∧ redo = none) :
    Pages (modLayer l g e) := by
  have hself : (modLayer l g e).layers[l].place = (e.layers[l].state, e.layers[l].slot, cur, undo, redo) := by
    simpa only [modLayer_layers, Fin.getElem_fin, upd_self] using hg
  have hstate : (modLayer l g e).layers[l].state = a.layers[l].state :=
    (congrArg (·.1) hself).trans (congrArg (·.1) (hs.layer l))
  have hslot : (modLayer l g e).layers[l].slot = a.layers[l].slot :=
    (congrArg (·.2.1) hself).trans (congrArg (·.2.1) (hs.layer l))
  simp only [Layer.place, Prod.mk.injEq] at hself
  obtain ⟨_, _, hc, hu, hr⟩ := hself
  refine ((h.but l).rechain hs hg hkept hcount).close ⟨?_, ?_, ?_⟩ fun hun => ?_
  · rw [hu, hr]
    exact hkept
  · rw [hstate, hc, hu, hr]
    exact hst
  · rw [hslot, hstate]
    exact (h.chains l).2.2
  · have hua : a.layers[l].unmade = true := by simpa only [Layer.unmade, hstate] using hun
    obtain ⟨hj, hq⟩ := h.unmade l hua
    exact ⟨hs.jobs l hua hj, hs.quiet l hua hq⟩

/-- A freed chain joins the free list, and all else of the account stands. -/
theorem freeChain_spares (l : LayerIx) (chain : Option (List Nat)) {free : List Nat} (h : Spares (withFree free a) e) :
    Spares (withFree (free ++ chain.getD []) a) (freeChain l chain e) := by
  match chain with
  | none => simpa using h
  | some [] => simpa [freeChain] using h
  | some (key :: rest) =>
    unfold freeChain
    have h0 : Spares (withFree (free ++ key :: rest) a) { e with mem := { e.mem with free := e.mem.free ++ key :: rest } } :=
      { h with free := congrArg (· ++ key :: rest) h.free }
    have h1 := cancelGrant_spares (fun g => g.layer == l && g.key == key) h0
    exact eachSlot_induct (fun s _ h => h.modSlot) (dropJobs_spares _ h1)

theorem Spares.withFree_self (a : Engine) : Spares (withFree a.mem.free a) a := .refl a

/-! ## Slots -/

theorem takeSlot_pagesBut {s : SlotIx} {use : SlotUse} (lane : LaneIx) (start : Option Nat) (hfree : e.slots[s].use = .free)
    (huse : use ≠ .free) (hno : e.layers[l].slot = none) (h : PagesBut l e) :
    PagesBut l (takeSlot s use l lane start e) := by
  have hnone := h.freed s hfree
  have hlayer : ∀ i : LayerIx, (takeSlot s use l lane start e).layers[i]
      = if l = i then { e.layers[i] with slot := some s } else e.layers[i] := fun i => by
    simp only [takeSlot, modLayer_layers, modSlot_layers, Fin.getElem_fin, upd_get]
  have hslot : ∀ i : SlotIx, (takeSlot s use l lane start e).slots[i].place
      = if s = i then (use, some l) else e.slots[i].place := fun i => by
    simp only [takeSlot, modLayer_slots, modSlot_slots, Fin.getElem_fin, upd_get]
    split <;> rfl
  have hslotLayer : ∀ i : SlotIx, (takeSlot s use l lane start e).slots[i].layer
      = if s = i then some l else e.slots[i].layer := fun i => by
    have := congrArg (·.2) (hslot i)
    split at this
    next hs => rw [if_pos hs]; exact this
    next hs => rw [if_neg hs]; exact this
  have hne : ∀ {i : LayerIx}, i ≠ l → (takeSlot s use l lane start e).layers[i] = e.layers[i] := fun hi => by
    rw [hlayer, if_neg (Ne.symm hi)]
  have huses : ∀ pg, pageUses pg (takeSlot s use l lane start e) = pageUses pg e := fun pg => by
    unfold pageUses
    congr 2
    refine List.map_congr_left fun i _ => ?_
    rw [hlayer]
    split <;> rfl
  refine ⟨fun pg => (huses pg).trans (h.uses pg), ?_, fun i hi => ?_, fun s' i => ?_, fun s' hu => ?_, fun i hi hu => ?_⟩
  · rw [hlayer, if_pos rfl]
    exact h.kept
  · rw [hne hi]
    exact h.chains i hi
  · rw [hslotLayer, hlayer]
    have hp := h.paired s' i
    by_cases hs : s = s'
    · subst hs
      by_cases hi : l = i
      · simp [hi]
      · rw [if_neg hi, if_pos rfl, hp, hnone]
        simp [hi]
    · by_cases hi : l = i
      · subst hi
        rw [if_pos rfl, if_neg hs, ← hp, hno]
        simp [hs]
      · rw [if_neg hi, if_neg hs]
        exact hp
  · rw [hslotLayer]
    have huse' := congrArg (·.1) (hslot s')
    by_cases hs : s = s'
    · rw [if_pos hs] at huse'
      exact absurd (huse'.symm.trans hu) huse
    · rw [if_neg hs] at huse' ⊢
      exact h.freed s' (huse'.symm.trans hu)
  · rw [hne hi] at hu
    exact h.unmade i hi hu

theorem releaseSlot_slot (l : LayerIx) (e : Engine) : (releaseSlot l e).layers[l].slot = none := by
  cases hs : e.layers[l].slot with
  | none => rw [releaseSlot_none hs]; exact hs
  | some s => rw [releaseSlot_eq hs]; simp only [Fin.getElem_fin, upd_self]

theorem releaseSlot_pages (h : Pages e) : Pages (releaseSlot l e) := by
  cases hs : e.layers[l].slot with
  | none => rw [releaseSlot_none hs]; exact h
  | some s =>
    have hpair := (h.paired s l).mp hs
    rw [releaseSlot_eq hs]
    have hlayer : ∀ i : LayerIx, (upd e.layers l fun r => { r with slot := none })[i]
        = if l = i then { e.layers[i] with slot := none } else e.layers[i] := fun i => by
      simp only [Fin.getElem_fin, upd_get]
    have hslot : ∀ i : SlotIx, (upd e.slots s Slot.released)[i].layer = if s = i then none else e.slots[i].layer :=
      fun i => by
        simp only [Fin.getElem_fin, upd_get]
        split <;> rfl
    refine ⟨fun pg => ?_, fun i => ?_, fun s' i => ?_, fun s' hu => ?_, fun i hu => ?_⟩
    · refine Eq.trans ?_ (h.uses pg)
      unfold pageUses
      congr 2
      refine List.map_congr_left fun i _ => ?_
      dsimp only
      rw [hlayer]
      split <;> rfl
    · dsimp only
      rw [hlayer]
      split
      · exact ⟨(h.chains i).1, (h.chains i).2.1, fun hn => by simp at hn⟩
      · exact h.chains i
    · dsimp only
      rw [hlayer, hslot]
      have hp := h.paired s' i
      by_cases hi : l = i
      · subst hi
        rw [if_pos rfl]
        by_cases hs' : s = s'
        · simp [hs']
        · rw [if_neg hs', ← hp, hs]
          simp [hs']
      · rw [if_neg hi]
        by_cases hs' : s = s'
        · subst hs'
          rw [if_pos rfl, hp, hpair]
          simp [hi]
        · rw [if_neg hs']
          exact hp
    · dsimp only at hu ⊢
      rw [hslot]
      split
      · rfl
      next hs' =>
        simp only [Fin.getElem_fin, upd_get, if_neg hs'] at hu
        exact h.freed s' hu
    · dsimp only at hu ⊢
      rw [hlayer] at hu
      have hu' : e.layers[i].unmade = true := by
        split at hu <;> exact hu
      exact h.unmade i hu'

theorem endSlot_pages (h : Pages e) : Pages (endSlot l e) := by
  unfold endSlot
  split
  · exact releaseSlot_pages (h.spared (closeGap_spares _))
  · exact h

theorem endSlot_slot (l : LayerIx) (e : Engine) : (endSlot l e).layers[l].slot = none := by
  unfold endSlot
  split
  · exact releaseSlot_slot l _
  next hs => exact hs

/-! ## A layer changes its state -/

theorem setLayerState_state (l : LayerIx) (st : LayerState) (c : LayerCause) (n : Nat) (e : Engine) :
    (setLayerState l st c n e).layers[l].state = st := by
  simp only [setLayerState, post_layers, modLayer_layers, Fin.getElem_fin, upd_self]

theorem PagesBut.setState {st : LayerState} (c : LayerCause) (n : Nat) (h : PagesBut l e)
    (hsl : e.layers[l].slot.isSome = true → st = .capturing ∨ st = .overdubbing)
    (hch : st = .empty ∨ st = .armed → e.layers[l].cur = none ∧ e.layers[l].undo = none ∧ e.layers[l].redo = none)
    (hun : st = .empty ∨ st = .armed ∨ st = .capturing → NoJob e l ∧ e.voices[l].Quiet) :
    Pages (setLayerState l st c n e) := by
  have hlayer : ∀ i : LayerIx, (setLayerState l st c n e).layers[i]
      = if l = i then { e.layers[i] with state := st, lastChange := e.cyc.k } else e.layers[i] := fun i => by
    simp only [setLayerState, post_layers, modLayer_layers, Fin.getElem_fin, upd_get]
  have hself : (setLayerState l st c n e).layers[l] = { e.layers[l] with state := st, lastChange := e.cyc.k } := by
    rw [hlayer, if_pos rfl]
  have hne : ∀ {i : LayerIx}, i ≠ l → (setLayerState l st c n e).layers[i] = e.layers[i] := fun hi => by
    rw [hlayer, if_neg (Ne.symm hi)]
  have hbut : PagesBut l (setLayerState l st c n e) := by
    refine ⟨fun pg => ?_, ?_, fun i hi => ?_, fun s i => ?_, h.freed, fun i hi hu => ?_⟩
    · refine Eq.trans ?_ (h.uses pg)
      unfold pageUses
      congr 2
      refine List.map_congr_left fun i _ => ?_
      rw [hlayer]
      split <;> rfl
    · rw [hself]; exact h.kept
    · rw [hne hi]; exact h.chains i hi
    · refine Iff.trans ?_ (h.paired s i)
      rw [hlayer]
      split <;> rfl
    · rw [hne hi] at hu
      exact h.unmade i hi hu
  refine hbut.close ?_ fun hu => hun ?_
  · rw [hself]
    exact ⟨h.kept, hch, hsl⟩
  · rw [hself] at hu
    simpa [Layer.unmade, or_assoc] using hu

/-- A layer without a slot is PLAYING or STOPPED from now on. -/
theorem PagesBut.setMade {st : LayerState} (c : LayerCause) (n : Nat) (h : PagesBut l e) (hsl : e.layers[l].slot = none)
    (hst : st = .playing ∨ st = .stopped := by simp) : Pages (setLayerState l st c n e) := by
  refine h.setState c n (fun hs => ?_) (fun hs => ?_) fun hs => ?_
  · rw [hsl] at hs; cases hs
  · obtain rfl | rfl := hst <;> simp at hs
  · obtain rfl | rfl := hst <;> simp at hs

/-- A bare layer takes any state. -/
theorem Pages.setBare {st : LayerState} (c : LayerCause) (n : Nat) (h : Pages e) (hb : Bare l e) :
    Pages (setLayerState l st c n e) :=
  (h.but l).setState c n (fun hs => by rw [hb.slot] at hs; cases hs) (fun _ => ⟨hb.cur, hb.undo, hb.redo⟩)
    fun _ => ⟨hb.jobs, hb.quiet⟩

/-- A job for the layer that is being changed. -/
theorem addJob_pagesBut (k : FillKind) (h : PagesBut l e) : PagesBut l (addJob l k e) := by
  refine { h with unmade := fun i hi hu => ?_ }
  obtain ⟨hj, hq⟩ := h.unmade i hi hu
  refine ⟨fun j hin => ?_, hq⟩
  simp only [addJob] at hin
  split at hin
  · exact hj j hin
  · rcases List.mem_append.mp hin with hin | hin
    · exact hj j hin
    · obtain rfl := List.mem_singleton.mp hin
      exact Ne.symm hi

end Sys2Proof.Machine
end

section
/-! Pages, continued: reclaim, the ends of captures and overdubs, the cues (R44 to R57, R71 to R80, R89, R91, R92, R98, R106
to R112). -/

set_option Elab.async false

namespace Sys2Proof.Machine

variable {a e : Engine} {l : LayerIx}

/-! ## Reclaim and allocation -/

theorem reclaimOne_pages (l : LayerIx) (k : AgeKind) (h : Pages e) : Pages (reclaimOne l k e) := by
  have hfree : ∀ chain, Spares (withFree (e.mem.free ++ chain.getD []) e) (dropAge l (freeChain l chain e)) :=
    fun chain => dropAge_spares l (freeChain_spares l chain (.withFree_self e))
  have hlayer : ∀ chain, (dropAge l (freeChain l chain e)).layers[l].place = e.layers[l].place :=
    fun chain => (hfree chain).layer l
  simp only [Layer.place, Prod.mk.injEq] at hlayer
  unfold reclaimOne
  extract_lets chain e1 e2
  refine Pages.spared ?_ (post_spares _)
  obtain ⟨_, _, hc, hu, hr⟩ := hlayer chain
  cases k with
  | undo =>
    refine h.rechain (cur := e.layers[l].cur) (undo := none) (redo := e.layers[l].redo) (hfree e.layers[l].undo) ?_ (.inl rfl)
      (fun pg => ?_) fun hst => ?_
    · simp only [Layer.place, ← hc, ← hr]
      rfl
    · simp only [List.count_append, Layer.pageUses, chainCount, Option.getD_none, List.count_nil]
      omega
    · obtain ⟨hc, _, hr⟩ := (h.chains l).2.1 hst
      exact ⟨hc, rfl, hr⟩
  | redo =>
    refine h.rechain (cur := e.layers[l].cur) (undo := e.layers[l].undo) (redo := none) (hfree e.layers[l].redo) ?_ (.inr rfl)
      (fun pg => ?_) fun hst => ?_
    · simp only [Layer.place, ← hc, ← hu]
      rfl
    · simp only [List.count_append, Layer.pageUses, chainCount, Option.getD_none, List.count_nil]
      omega
    · obtain ⟨hc, hu, _⟩ := (h.chains l).2.1 hst
      exact ⟨hc, hu, rfl⟩

/-- Reclaim leaves every layer's state and every slot's use. -/
structure SamePlaces (a t : Engine) : Prop where
  state : ∀ l : LayerIx, t.layers[l].state = a.layers[l].state
  slot : ∀ s : SlotIx, t.slots[s].place = a.slots[s].place

theorem SamePlaces.trans {t : Engine} (h : SamePlaces a e) (h' : SamePlaces e t) : SamePlaces a t :=
  ⟨fun l => (h'.state l).trans (h.state l), fun s => (h'.slot s).trans (h.slot s)⟩

theorem SamePlaces.use (h : SamePlaces a e) {s : SlotIx} (hs : a.slots[s].use = .free) : e.slots[s].use = .free :=
  (congrArg (·.1) (h.slot s)).trans hs

theorem reclaimOne_places (l : LayerIx) (k : AgeKind) (e : Engine) : SamePlaces e (reclaimOne l k e) := by
  have hfree : ∀ chain, Spares (withFree (e.mem.free ++ chain.getD []) e) (dropAge l (freeChain l chain e)) :=
    fun chain => dropAge_spares l (freeChain_spares l chain (.withFree_self e))
  have hmod : ∀ (f : Layer → Layer), (∀ r, (f r).state = r.state) → ∀ t : Engine,
      Spares (withFree t.mem.free e) t → SamePlaces e (modLayer l f t) := fun f hf t ht => by
    refine ⟨fun i => ?_, ht.slot⟩
    simp only [modLayer_layers, Fin.getElem_fin, upd_get]
    split
    · exact (hf _).trans (ht.state i)
    · exact ht.state i
  have hany : ∀ chain, SamePlaces e (modLayer l (fun r => match k with
      | .undo => { r with undo := none }
      | .redo => { r with redo := none }) (dropAge l (freeChain l chain e))) := fun chain => by
    refine hmod _ (fun r => by cases k <;> rfl) _ ?_
    have ht := hfree chain
    have hf : (dropAge l (freeChain l chain e)).mem.free = e.mem.free ++ chain.getD [] := ht.free
    rw [hf]
    exact ht
  exact ⟨(hany _).state, (hany _).slot⟩

theorem reclaimWalk_pages (need extra : Nat) (own : Option LayerIx) :
    ∀ (list : List (LayerIx × AgeKind)) {e : Engine}, Pages e →
      Pages (reclaimWalk need extra own list e) ∧ SamePlaces e (reclaimWalk need extra own list e)
  | [], _, h => ⟨h, fun _ => rfl, fun _ => rfl⟩
  | (l, k) :: rest, e, h => by
    unfold reclaimWalk
    split
    · exact ⟨h, fun _ => rfl, fun _ => rfl⟩
    · split
      · exact reclaimWalk_pages need extra own rest h
      · obtain ⟨hp, hs⟩ := reclaimWalk_pages need extra own rest (reclaimOne_pages l k h)
        exact ⟨hp, (reclaimOne_places l k e).trans hs⟩

/-- An allocation takes the first pages of the free list that the walk has left. -/
theorem allocChain_takes {n : Nat} {pages : List Nat} {e1 : Engine} (h : allocChain n e = (some pages, e1)) :
    pages = (reclaimWalk n 0 none e.mem.age e).mem.free.take n
      ∧ e1 = withFree ((reclaimWalk n 0 none e.mem.age e).mem.free.drop n) (reclaimWalk n 0 none e.mem.age e) := by
  simp only [allocChain, takePages] at h
  split at h
  · cases h; exact ⟨rfl, rfl⟩
  · cases h

theorem allocChain_short_pages {n : Nat} {e1 : Engine} (h : Pages e) (hal : allocChain n e = (none, e1)) : Pages e1 :=
  (allocChain_short hal).1 ▸ (reclaimWalk_pages n 0 none e.mem.age h).1

/-- A layer without chains is given the pages that an allocation has taken. -/
theorem allocChain_given {n : Nat} {pages : List Nat} {e1 : Engine} {g : Layer → Layer} (h : Pages e)
    (hst : e.layers[l].state = .empty ∨ e.layers[l].state = .armed) (hal : allocChain n e = (some pages, e1))
    (hg : ∀ r : Layer, (g r).place = (r.state, r.slot, some pages, r.undo, r.redo) := by intros; rfl) :
    PagesBut l (modLayer l g e1) ∧ SamePlaces e e1 ∧ (modLayer l g e1).layers[l].slot = none
      ∧ NoJob e1 l ∧ e1.voices[l].Quiet := by
  obtain ⟨hpages, he1⟩ := allocChain_takes hal
  obtain ⟨hp, hs⟩ := reclaimWalk_pages n 0 none e.mem.age h
  generalize reclaimWalk n 0 none e.mem.age e = e0 at hpages he1 hp hs
  subst he1
  have hb := hp.bare (l := l) (by rw [hs.state l]; exact hst)
  have hspares : Spares (withFree (e0.mem.free.drop n) e0) (withFree (e0.mem.free.drop n) e0) := .refl _
  refine ⟨(hp.but l).rechain (cur := some pages) (undo := none) (redo := none) hspares ?_ (.inl rfl) fun pg => ?_,
    ⟨hs.state, hs.slot⟩, ?_, hb.jobs, hb.quiet⟩
  · rw [hg]
    have hu : (withFree (e0.mem.free.drop n) e0).layers[l].undo = none := hb.undo
    have hr : (withFree (e0.mem.free.drop n) e0).layers[l].redo = none := hb.redo
    rw [hu, hr]
  · have hcount : (e0.mem.free.take n).count pg + (e0.mem.free.drop n).count pg = e0.mem.free.count pg := by
      rw [← List.count_append, List.take_append_drop]
    simp only [Layer.pageUses, chainCount, hb.cur, hb.undo, hb.redo, hpages, Option.getD_none, Option.getD_some,
      List.count_nil]
    omega
  · have hself := hg (withFree (e0.mem.free.drop n) e0).layers[l]
    simp only [Layer.place, Prod.mk.injEq] at hself
    simp only [modLayer_layers, Fin.getElem_fin, upd_self]
    exact hself.2.1.trans hb.slot

/-! ## Captures and overdubs -/

theorem releaseSlot_layer (l : LayerIx) (e : Engine) : (releaseSlot l e).layers[l] = { e.layers[l] with slot := none } := by
  cases hs : e.layers[l].slot with
  | none =>
    rw [releaseSlot_none hs, ← hs]
  | some s =>
    rw [releaseSlot_eq hs]
    simp only [Fin.getElem_fin, upd_self]

theorem endSlot_state (l : LayerIx) (e : Engine) : (endSlot l e).layers[l].state = e.layers[l].state := by
  unfold endSlot
  split
  · rw [releaseSlot_layer]
    exact (closeGap_spares _ (.refl e)).state l
  · rfl

theorem unmade_of_state {r : Layer} (h1 : r.state ≠ .empty) (h2 : r.state ≠ .armed) (h3 : r.state ≠ .capturing) :
    r.unmade = false := by
  simp [Layer.unmade, h1, h2, h3]

theorem setLayerState_made {st : LayerState} (l : LayerIx) (c : LayerCause) (n : Nat) (e : Engine)
    (hst : st = .playing ∨ st = .stopped ∨ st = .overdubbing := by simp) :
    (setLayerState l st c n e).layers[l].unmade = false := by
  have hs := setLayerState_state l st c n e
  refine unmade_of_state ?_ ?_ ?_ <;> rw [hs] <;> obtain rfl | rfl | rfl := hst <;> decide

theorem basePage_pages (l : LayerIx) (pos : Nat) (hst : e.layers[l].state = .capturing ∨ e.layers[l].state = .overdubbing)
    (h : Pages e) : Pages (basePage l pos e) := by
  unfold basePage
  extract_lets pages t
  have hspares : Spares (withFree (e.mem.free.drop 1) e) t.2 := .refl _
  refine Pages.ite (h.rechain (cur := some (pages ++ t.1)) (undo := e.layers[l].undo) (redo := e.layers[l].redo) hspares rfl
    (h.chains l).1 (fun pg => ?_) fun hn => ?_) h
  · have hcount : (e.mem.free.take 1).count pg + (e.mem.free.drop 1).count pg = e.mem.free.count pg := by
      rw [← List.count_append, List.take_append_drop]
    have ht : t.1 = e.mem.free.take 1 := rfl
    simp only [Layer.pageUses, chainCount, Option.getD_some, List.count_append, ht, pages]
    omega
  · obtain hst | hst := hst <;> rw [hst] at hn <;> simp at hn

theorem commitWrite_pages (s : SlotIx) (w : SlotWrite) (h : Pages e) : Pages (commitWrite s e w) := by
  unfold commitWrite
  extract_lets sl
  split
  · exact h
  next l hl =>
    split
    · exact h
    · exact (basePage_pages l w.pos (h.slotState hl) h).spared fun h => (stageWrite_spares s l w h).modSlot
    · exact h.spared fun h => (stageWrite_spares s l w h).modSlot
    · extract_lets e1
      have h1 : Pages e1 := h.spared fun h => (stageWrite_spares s l w h).modSlot
      exact Pages.ite h1 (h1.spared (growWritten_spares l))

theorem commitSlot_pages (s : SlotIx) (h : Pages e) : Pages (commitSlot s e) :=
  Pages.spared (foldl_induct (I := Pages) (fun w _ h => commitWrite_pages s w h) _ h) fun h => h.modSlot

theorem completeFixed_pages (s : SlotIx) (h : Pages e) : Pages (completeFixed s e) := by
  unfold completeFixed
  split
  next l _ =>
    extract_lets e1
    have h0 : Pages (releaseSlot l (commitSlot s (noteTaken s l e))) :=
      releaseSlot_pages (commitSlot_pages s (h.spared (noteTaken_spares s l)))
    have h1 : Pages e1 := (h0.but l).setMade _ _ (releaseSlot_slot l _)
    have hm : e1.layers[l].unmade = false := setLayerState_made l _ _ _
    exact h1.spared fun h => grantHolds_spares (playVoice_spares hm (closeGap_spares s h))
  · exact h

theorem closeEarly_pages (l : LayerIx) (n : Nat) (h : Pages e) : Pages (closeEarly l n e) := by
  unfold closeEarly
  split
  · extract_lets sl a e1 e2 e3
    have h2 : Pages e2 := (endSlot_pages h).spared fun h => h.modLayer
    have hslot : e2.layers[l].slot = none := by
      simp only [e2, e1, modLayer_layers, Fin.getElem_fin, upd_self]
      exact endSlot_slot l e
    have h3 : Pages e3 := (addJob_pagesBut .finishCopy (h2.but l)).setMade _ _ hslot
    have hm : e3.layers[l].unmade = false := setLayerState_made l _ _ _
    exact h3.spared fun h => playVoice_spares hm h
  · exact h

theorem endOverdub_pages (l : LayerIx) (hst : e.layers[l].state = .overdubbing) (h : Pages e) : Pages (endOverdub l e) := by
  have h1 : Pages (endSlot l e) := endSlot_pages h
  have hm : (endSlot l e).layers[l].unmade = false := by
    have hs := (endSlot_state l e).trans hst
    refine unmade_of_state ?_ ?_ ?_ <;> rw [hs] <;> decide
  exact Pages.ite (h1.spared fun h => addJob_spares hm .finishCopy h) h1

theorem endOverdub_slot (l : LayerIx) (e : Engine) : (endOverdub l e).layers[l].slot = none := by
  unfold endOverdub
  dsimp only
  split <;> exact endSlot_slot l e

theorem endIfOverdubbing_pages (l : LayerIx) (h : Pages e) : Pages (endIfOverdubbing l e) := by
  unfold endIfOverdubbing
  split
  next hst => exact endOverdub_pages l hst h
  · exact h

theorem stopLayer_pages (l : LayerIx) (n : Nat) (hs : sounding e l = true) (h : Pages e) : Pages (stopLayer l n e) := by
  have hslot : (endIfOverdubbing l e).layers[l].slot = none := by
    unfold endIfOverdubbing
    split
    · exact endOverdub_slot l e
    next hno =>
      have hp : e.layers[l].state = .playing := by
        simpa only [sounding, Bool.or_eq_true, beq_iff_eq, hno, or_false] using hs
      exact h.noSlot (by rw [hp]; decide) hno
  exact Pages.spared (((endIfOverdubbing_pages l h).but l).setMade _ n hslot) (stopVoice_spares l)

theorem finishOverdub_pages (l : LayerIx) (n : Nat) (hst : e.layers[l].state = .overdubbing) (h : Pages e) :
    Pages (finishOverdub l n e) :=
  ((endOverdub_pages l hst h).but l).setMade _ n (endOverdub_slot l e)

theorem playLayer_pages (l : LayerIx) (n : Nat) (hst : e.layers[l].state = .stopped) (h : Pages e) :
    Pages (playLayer l n e) := by
  have hslot : e.layers[l].slot = none := h.noSlot (by rw [hst]; decide) (by rw [hst]; decide)
  have h1 : Pages (setLayerState l .playing .cue n e) := (h.but l).setMade _ n hslot
  exact h1.spared fun h => playVoice_spares (setLayerState_made l _ _ _) h

/-! ## Emptying -/

theorem freeChain_noJob (l i : LayerIx) (chain : Option (List Nat)) (h : NoJob e i) : NoJob (freeChain l chain e) i := by
  match chain with
  | none => exact h
  | some [] => exact h
  | some (key :: rest) =>
    intro j hj
    rw [freeChain_jobs] at hj
    exact h j (List.mem_filter.mp hj).1

theorem dropJob_noJob (l : LayerIx) (e : Engine) : NoJob (dropJob l e) l := by
  intro j hj
  have := (List.mem_filter.mp (show j ∈ e.mem.jobs.filter fun j => !(j.layer == l) from hj)).2
  simpa using this

theorem leaveSplice_mem (l : LayerIx) (e : Engine) : (leaveSplice l e).mem = e.mem := by
  unfold leaveSplice
  split
  · rfl
  · split <;> rfl
  · split <;> rfl

theorem releaseLayer_pages (l : LayerIx) (h : Pages e) : Pages (releaseLayer l e) ∧ Bare l (releaseLayer l e) := by
  unfold releaseLayer
  extract_lets r e1 e2
  have h1 : Pages e1 := (releaseSlot_pages h).spared (dropJobs_spares _)
  have hl1 : e1.layers[l] = { r with slot := none } := releaseSlot_layer l e
  have hj1 : NoJob e1 l := dropJob_noJob l _
  clear_value e1
  have hs2 : Spares (withFree (e1.mem.free ++ r.cur.getD [] ++ r.undo.getD [] ++ r.redo.getD []) e1) e2 :=
    dropAge_spares l (freeChain_spares l r.redo (freeChain_spares l r.undo
      (freeChain_spares l r.cur (.withFree_self e1))))
  have hj2 : NoJob e2 l := freeChain_noJob l l r.redo (freeChain_noJob l l r.undo (freeChain_noJob l l r.cur hj1))
  clear_value e2
  have hs3 := clearVoice_spares l hs2
  have hq3 := clearVoice_quiet l e2
  have hj3 : NoJob (clearVoice l e2) l := fun j hj => hj2 j (by
    have hm : (clearVoice l e2).mem = e2.mem := leaveSplice_mem l e2
    rwa [hm] at hj)
  have hslot : (clearVoice l e2).layers[l].slot = none := (hs3.slotOf l).trans (by
    show e1.layers[l].slot = none
    rw [hl1])
  generalize clearVoice l e2 = e3 at hs3 hq3 hj3 hslot
  refine ⟨h1.rechain (cur := none) (undo := none) (redo := none) hs3 ?_ (.inl rfl) (fun pg => ?_) fun _ => ⟨rfl, rfl, rfl⟩,
    ?_, ?_, ?_, ?_, hj3, hq3⟩
  · rw [hslot]
    rfl
  · have huse : e1.layers[l].pageUses pg = r.pageUses pg := by rw [hl1]; rfl
    rw [huse]
    simp only [Layer.pageUses, chainCount, List.count_append, Option.getD_none, List.count_nil]
    omega
  all_goals
    simp only [modLayer_layers, Fin.getElem_fin, upd_self]
    rfl

theorem emptyLayer_pages (l : LayerIx) (c : LayerCause) (n : Nat) (h : Pages e) : Pages (emptyLayer l c n e) :=
  (releaseLayer_pages l h).1.setBare c n (releaseLayer_pages l h).2

theorem disarm_pages (l : LayerIx) (n : Nat) (h : Pages e) : Pages (disarm l n e) := by
  unfold disarm
  split
  next hst =>
    have h1 : Pages (modLayer l (fun r => { r with hold := .none }) e) := h.spared fun h => h.modLayer
    refine h1.setBare _ n (h1.bare (.inr ?_))
    simpa only [modLayer_layers, Fin.getElem_fin, upd_self] using hst
  · exact h

theorem undoLayer_pages (l : LayerIx) (hu : e.layers[l].undo.isNone = false) (h : Pages e) : Pages (undoLayer l e) := by
  have hr : e.layers[l].redo = none := (h.chains l).1.resolve_left fun hn => by rw [hn] at hu; cases hu
  have hst : ¬(e.layers[l].state = .empty ∨ e.layers[l].state = .armed) := fun hst => by
    rw [((h.chains l).2.1 hst).2.1] at hu; cases hu
  unfold undoLayer
  split
  · extract_lets e0 e1
    have h0 : Pages e0 := h.spared (dropJobs_spares _)
    have hs1 : Spares (withFree (e0.mem.free ++ e.layers[l].cur.getD []) e0) e1 :=
      dropAge_spares l (freeChain_spares l e.layers[l].cur (.withFree_self e0))
    have hl := hs1.layer l
    have hl0 : e0.layers = e.layers := rfl
    clear_value e1
    simp only [Layer.place, Prod.mk.injEq] at hl
    obtain ⟨_, _, _, hu1, hr1⟩ := hl
    refine h0.rechain (cur := e.layers[l].undo) (undo := none) (redo := none) hs1 ?_ (.inl rfl) (fun pg => ?_)
      fun hn => absurd hn hst
    · have hu' : e1.layers[l].undo = e.layers[l].undo := hu1
      have hr' : e1.layers[l].redo = none := hr1.trans hr
      simp only [Layer.place, hu', hr']
    · simp only [hl0, Layer.pageUses, chainCount, List.count_append, Option.getD_none, List.count_nil, hr]
      omega
  · refine Pages.spared (h.rechain (cur := e.layers[l].undo) (undo := none) (redo := e.layers[l].cur)
      (.withFree_self e) rfl (.inl rfl) (fun pg => ?_) fun hn => absurd hn hst) (setAgeKind_spares l .redo)
    simp only [Layer.pageUses, chainCount, hr, Option.getD_none, List.count_nil]
    omega

theorem redoLayer_pages (l : LayerIx) (hr : e.layers[l].redo.isNone = false) (h : Pages e) : Pages (redoLayer l e) := by
  have hu : e.layers[l].undo = none := (h.chains l).1.resolve_right fun hn => by rw [hn] at hr; cases hr
  have hst : ¬(e.layers[l].state = .empty ∨ e.layers[l].state = .armed) := fun hst => by
    rw [((h.chains l).2.1 hst).2.2] at hr; cases hr
  refine Pages.spared (h.rechain (cur := e.layers[l].redo) (undo := e.layers[l].cur) (redo := none)
    (.withFree_self e) rfl (.inr rfl) (fun pg => ?_) fun hn => absurd hn hst) (setAgeKind_spares l .undo)
  simp only [Layer.pageUses, chainCount, hu, Option.getD_none, List.count_nil]
  omega

/-! ## Starts -/

theorem freeSlot?_free {s : SlotIx} (h : freeSlot? e = some s) : e.slots[s].use = .free := by
  simpa using List.find?_some h

theorem startBase_pages {s : SlotIx} (lane : LaneIx) (n : Nat) (hs : e.slots[s].use = .free)
    (hst : e.layers[l].state = .armed) (h : Pages e) : Pages (startBase s l lane n e) := by
  have hb := h.bare (l := l) (.inr hst)
  unfold startBase
  extract_lets e1 e2 e3
  have h1 : PagesBut l e1 := takeSlot_pagesBut lane none hs (by decide) hb.slot (h.but l)
  have hl1 : e1.layers[l] = { e.layers[l] with slot := some s } := by
    simp only [e1, takeSlot, modLayer_layers, modSlot_layers, Fin.getElem_fin, upd_self]
  have hu1 : e1.layers[l].undo = none := by rw [hl1]; exact hb.undo
  have hr1 : e1.layers[l].redo = none := by rw [hl1]; exact hb.redo
  have h2 : PagesBut l e2 := by
    refine h1.rechain (cur := some []) (undo := none) (redo := none) (.withFree_self e1) ?_ (.inl rfl) fun pg => ?_
    · simp only [Layer.place, hu1, hr1]
    · simp only [Layer.pageUses, hu1, hr1]
      rw [show e1.layers[l].cur = none by rw [hl1]; exact hb.cur]
      simp [chainCount]
  have h3 : Pages e3 := h2.setState _ n (fun _ => .inl rfl) (fun hn => by simp at hn) fun _ => ⟨hb.jobs, hb.quiet⟩
  exact h3.spared fun h => { h with }

theorem startFixed_pages {s : SlotIx} (m : Nat) (lane : LaneIx) {np : Nat} {pages : List Nat} {e1 : Engine} (n : Nat)
    (hs : e.slots[s].use = .free) (hst : e.layers[l].state = .armed) (hal : allocChain np e = (some pages, e1))
    (h : Pages e) : Pages (startFixed s l m lane pages n e1) := by
  obtain ⟨h1, hplaces, hslot, hjobs, hquiet⟩ :=
    allocChain_given (g := fun r => { r with mult := some m, cur := some pages }) h (.inr hst) hal
  unfold startFixed
  extract_lets e2 e3
  have h2 : PagesBut l e3 := takeSlot_pagesBut lane _ (hplaces.use hs) (by decide) hslot h1
  exact (h2.setState _ n (fun _ => .inl rfl) (fun hn => by simp at hn) fun _ => ⟨hjobs, hquiet⟩).spared
    captureStops_spares

theorem overdubChains_pages (l : LayerIx) (n : Nat) (hst : e.layers[l].state = .playing) (h : Pages e) :
    Pages (overdubChains l n e) := by
  unfold overdubChains
  extract_lets r e1 mem t
  have hs1 : Spares (withFree (e.mem.free ++ r.redo.getD [] ++ r.undo.getD []) e) e1 :=
    dropAge_spares l (freeChain_spares l r.undo (freeChain_spares l r.redo (.withFree_self e)))
  have hs2 : Spares (withFree ((e.mem.free ++ r.redo.getD [] ++ r.undo.getD []).drop n) e) t.2 :=
    { hs1 with free := congrArg (List.drop n) hs1.free }
  have ht : t.1 = (e.mem.free ++ r.redo.getD [] ++ r.undo.getD []).take n := congrArg (List.take n) hs1.free
  have hcur : t.2.layers[l].cur = r.cur := congrArg (·.2.2.1) (hs2.layer l)
  clear_value t
  refine h.rechain (cur := some t.1) (undo := r.cur) (redo := none) hs2 ?_ (.inr rfl) (fun pg => ?_) fun hn => ?_
  · simp only [Layer.place, hcur]
  · have hcount := congrArg (List.count pg) (List.take_append_drop n (e.mem.free ++ r.redo.getD [] ++ r.undo.getD []))
    simp only [List.count_append] at hcount
    simp only [Layer.pageUses, chainCount, ht, Option.getD_some, Option.getD_none, List.count_nil, r] at hcount ⊢
    omega
  · rw [hst] at hn
    simp at hn

theorem startOverdub_pages {s : SlotIx} (lane : LaneIx) (level fb n : Nat) (hs : e.slots[s].use = .free)
    (hst : e.layers[l].state = .playing) (h : Pages e) : Pages (startOverdub s l lane level fb n e) := by
  unfold startOverdub
  extract_lets p e1 e2 e3 e4
  have h1 : Pages e1 := overdubChains_pages l _ hst h
  have h2 : Pages e2 := h1.spared fun h => h.modLayer
  have hst1 : ∀ np, (overdubChains l np e).layers[l].state = .playing := fun np => by
    unfold overdubChains
    simp only [modLayer_layers, Fin.getElem_fin, upd_self]
    refine Eq.trans ?_ hst
    exact (freeChain_spares l e.layers[l].undo (freeChain_spares l e.layers[l].redo (.withFree_self e))).state l
  have hst2 : e2.layers[l].state = .playing := by
    simp only [e2, modLayer_layers, Fin.getElem_fin, upd_self]
    exact hst1 _
  have hs2 : e2.slots[s].use = .free := by
    refine Eq.trans ?_ hs
    exact congrArg (·.1)
      ((freeChain_spares l e.layers[l].undo (freeChain_spares l e.layers[l].redo (.withFree_self e))).slot s)
  clear_value e2
  have hno := h2.noSlot (l := l) (by rw [hst2]; decide) (by rw [hst2]; decide)
  have h3 : PagesBut l e3 := takeSlot_pagesBut lane none hs2 (by decide) hno (h2.but l)
  have h4 : Pages (setLayerState l .overdubbing .cue n e3) :=
    h3.setState _ n (fun _ => .inr rfl) (fun hn => by simp at hn) fun hn => by simp at hn
  have h5 : Pages e4 := h4.spared fun h => leaveSplice_spares l (captureStops_spares h)
  exact h5.spared fun h => h.modSlot

theorem importLayer_pages (l : LayerIx) (n : Nat) (hst : e.layers[l].state = .empty) (h : Pages e) :
    Pages (importLayer l n e).1 := by
  unfold importLayer
  split
  · exact h
  · split
    · exact h
    · split
      · exact h
      · split
        next hal =>
          dsimp only
          exact (allocChain_short_pages h hal).spared grantHolds_spares
        next pages e1 hal =>
          extract_lets e2
          obtain ⟨h2, _, hslot, _, _⟩ :=
            allocChain_given (g := fun r => { r with mult := some n, cur := some pages, hold := .pending }) h (.inl hst) hal
          have h3 : Pages (setLayerState l .stopped .imported 0 (addJob l .zeroFill e2)) :=
            (addJob_pagesBut .zeroFill h2).setMade _ _ hslot
          dsimp only
          exact h3.spared grantHolds_spares

end Sys2Proof.Machine
end

section
/-! Pages, continued: the cues and the commands. -/

set_option Elab.async false

namespace Sys2Proof.Machine

variable {a e : Engine} {l : LayerIx}

/-! ## The base capture and the onsets -/

theorem closeBase_pages (l : LayerIx) (count : Nat) (c : LayerCause) (n w : Nat) (h : Pages e) :
    Pages (closeBase l count c n w e) := by
  unfold closeBase
  extract_lets e1 e2
  have h1 : Pages e1 := (endSlot_pages h).spared (startCycle_spares count)
  have hs1 : e1.layers[l].slot = none :=
    ((startCycle_spares count (.refl _)).slotOf l).trans (endSlot_slot l e)
  have h2 : Pages e2 := by
    refine PagesBut.setMade c n ((h1.spared fun h => h.modLayer).but l) ?_
    simpa only [modLayer_layers, Fin.getElem_fin, upd_self] using hs1
  have hm : e2.layers[l].unmade = false := setLayerState_made l _ _ _
  exact h2.spared fun h => post_spares _ (cycleBoundary_spares w (playVoice_spares hm h))

theorem autoClose_pages (h : Pages e) : Pages (autoClose e) := by
  unfold autoClose
  split
  · split
    · exact (closeBase_pages _ _ _ 0 0 h).spared fun h => grantHolds_spares (noteGrid_spares h)
    · exact h
  · exact h

theorem handOnset_pages (k : OnsetKind) (h : Pages e) : Pages (handOnset k e) :=
  (autoClose_pages h).spared fun h => measureOnset_spares k (countCues_spares .onset 0 (coast_spares h))

theorem handTaps_pages : ∀ (n : Nat) {e : Engine}, Pages e → Pages (handTaps n e)
  | 0, _, h => h
  | n + 1, _, h => handTaps_pages n (handOnset_pages .tap h)

theorem hearOnset_pages (l : LaneIx) (e : Engine) {d : Engine} (h : Pages d) : Pages (hearOnset l e d) :=
  (handOnset_pages .detector h).spared fun h => { h with }

theorem frameOnsets_pages (h : Pages e) : Pages (frameOnsets e) := by
  unfold frameOnsets
  extract_lets cyc e1 d
  have h1 : Pages e1 := handTaps_pages _ (h.spared fun h => { h with })
  have hd : Pages d.1 := h1.spared detect_spares
  split
  · exact Pages.ite (hearOnset_pages _ _ hd) hd
  · exact hd

/-! ## Cues that execute -/

/-- The engine an action leaves keeps the account. -/
def PagesOut (out : Outcome) : Prop := Pages out.1

theorem done_pages (h : Pages e) : PagesOut (done e) := h

theorem failed_pages (r : FailReason) (h : Pages e) : PagesOut (failed r e) := h

theorem PagesOut.ite {c : Prop} [Decidable c] {x y : Outcome} (hx : PagesOut x) (hy : PagesOut y) :
    PagesOut (if c then x else y) := by
  split
  · exact hx
  · exact hy

theorem recordCue_pages (m : Nat) (lane : LaneIx) (n : Nat) (l : LayerIx) (h : Pages e) :
    PagesOut (recordCue m lane n l e) := by
  unfold recordCue
  extract_lets r
  split
  · exact failed_pages _ h
  next hst =>
    have hst' : e.layers[l].state = .armed := not_not.mp hst
    split
    · refine PagesOut.ite (failed_pages _ h) ?_
      split
      · exact failed_pages _ h
      next hs => exact done_pages (startBase_pages lane n (freeSlot?_free hs) hst' h)
    · refine PagesOut.ite (failed_pages _ h) ?_
      split
      · exact failed_pages _ h
      next hs =>
        split
        next hal => exact failed_pages _ (allocChain_short_pages h hal)
        next hal => exact done_pages (startFixed_pages m lane n (freeSlot?_free hs) hst' hal h)
    · exact failed_pages _ h

theorem closeBaseCue_pages (l : LayerIx) (count n w : Nat) (h : Pages e) : PagesOut (closeBaseCue l count n w e) :=
  PagesOut.ite (failed_pages _ ((emptyLayer_pages l _ n h).spared leaveBase_spares))
    (done_pages (closeBase_pages l count _ n w h))

theorem closeCue_pages (n w : Nat) (l : LayerIx) (h : Pages e) : PagesOut (closeCue n w l e) := by
  refine PagesOut.ite (failed_pages _ h) ?_
  split
  · exact PagesOut.ite (closeBaseCue_pages l _ n w h) (done_pages (closeEarly_pages l n h))
  · exact done_pages (closeEarly_pages l n h)

theorem overdubCue_pages (lane : LaneIx) (level fb n : Nat) (l : LayerIx) (h : Pages e) :
    PagesOut (overdubCue lane level fb n l e) := by
  unfold overdubCue
  extract_lets r need own e1
  refine PagesOut.ite (failed_pages _ h) ?_
  split
  · exact failed_pages _ h
  next hst =>
    have hplay : e.layers[l].state = .playing := not_not.mp fun hn => hst (.inl hn)
    refine PagesOut.ite (failed_pages _ h) ?_
    split
    · exact failed_pages _ h
    next hs =>
      have h1 : Pages e1 ∧ SamePlaces e e1 := reclaimWalk_pages need own (some l) e.mem.age h
      obtain ⟨hp, hsame⟩ := h1
      exact PagesOut.ite (failed_pages _ hp) (done_pages (startOverdub_pages lane level fb n
        (hsame.use (freeSlot?_free hs)) ((hsame.state l).trans hplay) hp))

theorem clearLayer_pages (n : Nat) (l : LayerIx) (h : Pages e) : Pages (clearLayer n l e) := by
  unfold clearLayer
  extract_lets e1 e2
  have h1 : Pages e1 := Pages.ite h (emptyLayer_pages l _ n h)
  have h2 : Pages e2 := Pages.ite (h1.spared leaveBase_spares) h1
  exact Pages.ite (h2.spared returnToUnset_spares) h2

theorem pauseLayer_pages (n : Nat) (l : LayerIx) (h : Pages e) : Pages (pauseLayer n l e) := by
  unfold pauseLayer
  split
  next hst => exact finishOverdub_pages l n hst h
  · exact closeEarly_pages l n h
  · exact h

theorem pauseCue_pages (n w : Nat) (h : Pages e) : PagesOut (pauseCue n w e) := by
  unfold pauseCue
  split
  · have h1 : Pages (eachLayer (pauseLayer n) e) := eachLayer_induct (fun l _ h => pauseLayer_pages n l h) h
    exact done_pages (h1.spared enterPaused_spares)
  · split
    next l count _ =>
      have h1 := closeBaseCue_pages l count n w h
      split
      next hc => rw [hc] at h1; exact done_pages (Pages.spared h1 enterPaused_spares)
      · exact h1
    · exact failed_pages _ h
  · exact failed_pages _ h

theorem clearAllLayer_pages (n : Nat) (l : LayerIx) (h : Pages e) : Pages (clearAllLayer n l e) :=
  Pages.ite h (Pages.ite ((releaseLayer_pages l h).1.setBare _ n (releaseLayer_pages l h).2) (emptyLayer_pages l _ n h))

theorem clearAllCue_pages (n : Nat) (h : Pages e) : PagesOut (clearAllCue n e) := by
  have h1 : Pages (eachLayer (clearAllLayer n) e) := eachLayer_induct (fun l _ h => clearAllLayer_pages n l h) h
  refine PagesOut.ite (failed_pages _ h) ?_
  dsimp only
  split
  · exact done_pages (h1.spared leaveBase_spares)
  · exact done_pages (h1.spared returnToUnset_spares)
  · exact done_pages (h1.spared returnToUnset_spares)
  · exact done_pages h1

theorem stopAllCue_pages (n : Nat) (h : Pages e) : PagesOut (stopAllCue n e) :=
  done_pages (eachLayer_induct (fun l _ h => by
    split
    next hs => exact stopLayer_pages l n hs h
    · exact h) h)

theorem playAllCue_pages (n : Nat) (h : Pages e) : PagesOut (playAllCue n e) :=
  done_pages (eachLayer_induct (fun l _ h => by
    split
    next hs => exact playLayer_pages l n hs h
    · exact h) h)

theorem overdubEndCue_pages (n : Nat) (l : LayerIx) (h : Pages e) : PagesOut (overdubEndCue n l e) := by
  unfold overdubEndCue
  split
  next hs => exact done_pages (finishOverdub_pages l n hs h)
  · exact failed_pages _ h

theorem playCue_pages (n : Nat) (l : LayerIx) (h : Pages e) : PagesOut (playCue n l e) := by
  unfold playCue
  split
  next hs => exact done_pages (playLayer_pages l n hs h)
  · exact failed_pages _ h

theorem stopCue_pages (n : Nat) (l : LayerIx) (h : Pages e) : PagesOut (stopCue n l e) := by
  unfold stopCue
  split
  next hs => exact done_pages (stopLayer_pages l n hs h)
  · exact failed_pages _ h

theorem undoCue_pages (l : LayerIx) (h : Pages e) : PagesOut (undoCue l e) := by
  unfold undoCue
  refine PagesOut.ite (failed_pages _ h) ?_
  split
  · exact failed_pages _ h
  next hn => exact done_pages (undoLayer_pages l (by simpa only [Bool.not_eq_true] using (not_or.mp hn).2) h)

theorem redoCue_pages (l : LayerIx) (h : Pages e) : PagesOut (redoCue l e) := by
  unfold redoCue
  refine PagesOut.ite (failed_pages _ h) ?_
  split
  · exact failed_pages _ h
  next hn => exact done_pages (redoLayer_pages l (by simpa only [Bool.not_eq_true] using (not_or.mp hn).2) h)

theorem muteCue_pages (on : Bool) (l : LayerIx) (h : Pages e) : PagesOut (muteCue on l e) :=
  PagesOut.ite (failed_pages _ h) (done_pages (h.spared fun h => h.modLayer))

theorem actOn_pages (c : Cue) (h : Pages e) : PagesOut (actOn c e) := by
  unfold actOn
  split
  · exact recordCue_pages _ _ _ _ h
  · exact closeCue_pages _ _ _ h
  · exact overdubCue_pages _ _ _ _ _ h
  · exact overdubEndCue_pages _ _ h
  · exact playCue_pages _ _ h
  · exact stopCue_pages _ _ h
  · exact muteCue_pages _ _ h
  · exact muteCue_pages _ _ h
  · exact undoCue_pages _ h
  · exact redoCue_pages _ h
  · exact PagesOut.ite (failed_pages _ h) (done_pages (clearLayer_pages _ _ h))
  · exact stopAllCue_pages _ h
  · exact playAllCue_pages _ h
  · exact pauseCue_pages _ _ h
  · exact PagesOut.ite (done_pages (h.spared fun h => { h with })) (failed_pages _ h)
  · exact clearAllCue_pages _ h
  · exact failed_pages _ h

theorem disarmFor_pages (c : Cue) (h : Pages e) : Pages (disarmFor c e) := by
  unfold disarmFor
  split
  · exact disarm_pages _ _ h
  · exact h

theorem reportCue_pages (c : Cue) (k : Nat) {out : Outcome} (h : PagesOut out) : Pages (reportCue c k out) := by
  unfold reportCue
  split
  · exact Pages.spared h fun h => grantHolds_spares (post_spares _ h)
  · exact (disarmFor_pages c (Pages.spared h (post_spares _))).spared fun h => grantHolds_spares h

theorem executeCue_pages (c : Cue) (h : Pages e) : Pages (executeCue c e) := by
  have h1 : Pages (removeCue c.number e) := h.spared (removeCue_spares c.number)
  unfold executeCue
  dsimp only
  split
  · exact reportCue_pages c _ (actOn_pages c h1)
  · exact Pages.ite (reportCue_pages c _ (actOn_pages c h1))
      (Pages.ite (h.spared (deferCue_spares _)) (reportCue_pages c _ (failed_pages _ h1)))

theorem runDue_pages (want : Action → Bool) (h : Pages e) : Pages (runDue want e) := by
  unfold runDue
  split
  · exact Pages.ite (executeCue_pages _ h) h
  · exact h

theorem runCues_pages : ∀ (fuel : Nat) {e : Engine}, Pages e → Pages (runCues fuel e)
  | 0, _, h => h
  | fuel + 1, _, h => by
    unfold runCues
    split
    · exact runCues_pages fuel (executeCue_pages _ h)
    · exact h

theorem settleCues_pages (h : Pages e) : Pages (settleCues e) :=
  (runCues_pages 24 (autoClose_pages h)).spared coast_spares

/-! ## Commands that leave the account alone -/

/-- The command spares the account, whatever its payload. -/
def SparesCommand (cmd : List Byte → Engine → Engine × Answer) : Prop := ∀ b e, Spares e (cmd b e).1

theorem portSet_spares : SparesCommand portSet := by
  intro b e
  unfold portSet
  split
  · exact .refl e
  · split
    · exact enablePort_spares _ _ { Spares.refl e with }
    · exact .refl e

theorem laneSet_spares : SparesCommand laneSet := by
  intro b e
  unfold laneSet
  split
  · exact .refl e
  · split
    · exact { Spares.refl e with }
    · exact .refl e

theorem gridSet_spares : SparesCommand gridSet := by
  intro b e
  unfold gridSet
  split
  · exact .refl e
  · exact { Spares.refl e with }

theorem layerMix_spares : SparesCommand layerMix := by
  intro b e
  unfold layerMix
  split
  · exact .refl e
  · split
    · exact .refl e
    · exact (Spares.refl e).modLayer

theorem liveMix_spares : SparesCommand liveMix := by
  intro b e
  unfold liveMix
  split
  · exact .refl e
  · split
    · exact { Spares.refl e with }
    · exact .refl e

theorem masterSet_spares : SparesCommand masterSet := by
  intro b e
  unfold masterSet
  split
  · exact .refl e
  · exact { Spares.refl e with }

theorem fadeSet_spares : SparesCommand fadeSet := by
  intro b e
  unfold fadeSet
  split
  · exact .refl e
  · exact { Spares.refl e with }

theorem pedalMap_spares : SparesCommand pedalMap := by
  intro b e
  unfold pedalMap
  split
  · exact .refl e
  · split
    · exact .refl e
    · split
      · split
        · exact .refl e
        · exact { Spares.refl e with }
      · exact .refl e

theorem pedalUnmap_spares : SparesCommand pedalUnmap := by
  intro b e
  unfold pedalUnmap
  split
  · exact .refl e
  · split
    · exact .refl e
    · split
      · exact .refl e
      · exact { Spares.refl e with }

theorem eventMask_spares : SparesCommand Machine.eventMask := by
  intro b e
  unfold Machine.eventMask
  split
  · exact { Spares.refl e with }
  · split <;> exact .refl e

theorem createCycle_spares (len : Nat) (h : Spares a e) : Spares a (createCycle len e) := by
  unfold createCycle
  extract_lets e1 cyc e2
  have h1 : Spares a e1 := noteGrid_spares (startCycle_spares len h)
  have h2 : Spares a e2 := Spares.ite (bareBoundary_spares 0 h1) { h1 with }
  exact post_spares _ h2

theorem cycleSet_spares : SparesCommand cycleSet := by
  intro b e
  unfold cycleSet
  split
  · exact .refl e
  · split
    · exact .refl e
    · exact createCycle_spares _ (.refl e)

theorem holdBlock_spares (n : Nat) (h : Spares a e) : Spares a (holdBlock n e) := by
  refine Spares.ite (holdFollower_spares h) ?_
  split
  · exact holdPort_spares _ h
  · exact { h with }

theorem releaseBlock_spares (n : Nat) (h : Spares a e) : Spares a (releaseBlock n e) := by
  refine Spares.ite (releaseFollower_spares h) ?_
  split
  · exact releasePort_spares _ h
  · exact releasePedals_spares h

theorem blockCommand_spares {act : Nat → Engine → Engine} (hact : ∀ n e, Spares e (act n e)) :
    SparesCommand (blockCommand act) := by
  intro b e
  unfold blockCommand
  split
  · exact .refl e
  · dsimp only
    split
    · exact .refl e
    · exact hact _ e

theorem laneQuery_spares : SparesCommand laneQuery := by
  intro b e
  unfold laneQuery
  split
  · exact .refl e
  · split
    · exact .refl e
    · exact { Spares.refl e with }

theorem layerQuery_spares : SparesCommand layerQuery := by
  intro b e
  unfold layerQuery
  split
  · exact .refl e
  · split <;> exact .refl e

theorem cycleQuery_spares : SparesCommand cycleQuery := by
  intro b e
  unfold cycleQuery
  split <;> exact .refl e

theorem memoryQuery_spares : SparesCommand memoryQuery := by
  intro b e
  unfold memoryQuery
  split <;> exact .refl e

theorem layerRelease_spares : SparesCommand layerRelease := by
  intro b e
  have h := Spares.refl e
  unfold layerRelease
  split
  · exact h
  · split
    · exact h
    · split
      · exact h
      · exact h.modLayer
      · exact Spares.ite { h with } h.modLayer

/-! ## Commands that keep the account -/

/-- The command keeps the account, whatever its payload. -/
def PagesCommand (cmd : List Byte → Engine → Engine × Answer) : Prop := ∀ b e, Pages e → Pages (cmd b e).1

theorem SparesCommand.pages {cmd : List Byte → Engine → Engine × Answer} (hc : SparesCommand cmd) : PagesCommand cmd :=
  fun b e h => (hc b e).pages h

theorem followSet_pages : PagesCommand followSet := fun b _ h => h.spared (followSet_spares b)

theorem clockSet_pages : PagesCommand clockSet := by
  intro b e h
  unfold clockSet
  split
  · exact h
  · extract_lets rate e1
    split
    · exact h
    next src _ =>
      split
      · exact h
      · split
        · exact h
        · split
          · exact h
          · extract_lets e2
            have h1 : Pages e1 := Pages.ite h (h.spared (beginRelock_spares rate))
            have h2 : Pages e2 := Pages.ite h1 (h1.spared (selectSource_spares src))
            exact Pages.ite h2 (settleCues_pages h2)

theorem tap_pages : PagesCommand tap := by
  intro b e h
  unfold tap
  split
  · exact h
  · split
    · exact handOnset_pages _ h
    · exact h.spared fun h => { h with }

theorem cueCancel_pages : PagesCommand cueCancel := by
  intro b e h
  unfold cueCancel
  split
  · exact h
  · split
    · exact h
    · dsimp only
      exact (disarmFor_pages _ (h.spared (removeCue_spares _))).spared fun h => grantHolds_spares h

theorem supersede_pages (n : Nat) (c : Cue) (h : Pages e) : Pages (supersede n c e) :=
  disarmFor_pages c (h.spared fun h => post_spares _ (removeCue_spares _ h))

theorem armFor_pages (ask : CueAsk) (n : Nat) (h : Pages e) : Pages (armFor ask n e) := by
  unfold armFor
  split
  · split
    next hst => exact h.setBare _ n (h.bare (.inl hst))
    · exact h
  · exact h

theorem acceptCue_pages (ask : CueAsk) (h : Pages e) : Pages (acceptCue ask e).1 := by
  unfold acceptCue
  extract_lets n replaced e1 e2
  have h1 : Pages e1 := foldl_induct (I := Pages) (fun c _ h => supersede_pages n c h) _ h
  have h2 : Pages (appendCue ask n e1) := h1.spared fun h => { h with }
  have h3 : Pages (armFor ask n (appendCue ask n e1)) := armFor_pages ask n h2
  have h4 : Pages e2 := h3.spared fun h => grantHolds_spares h
  clear_value e2
  exact h4

theorem cueCommand_pages : PagesCommand cueCommand := by
  intro b e h
  unfold cueCommand
  split
  · exact h
  · split
    · exact h
    · split
      · exact h
      · split
        · exact h
        · split
          · exact h
          · exact acceptCue_pages _ h

theorem holdLayer_pages (l : LayerIx) (n : Nat) (h : Pages e) : Pages (holdLayer l n e).1 := by
  unfold holdLayer
  split
  · exact h.spared fun h => { h with }
  · exact h
  · split
    next hst => exact importLayer_pages l n hst h
    · split
      · exact h.spared fun h => h.modLayer
      · exact h.spared fun h => h.modLayer

theorem layerHold_pages : PagesCommand layerHold := by
  intro b e h
  unfold layerHold
  split
  · exact h
  · split
    · exact h
    · exact holdLayer_pages _ _ h

theorem configCommand_pages (kind : Nat) : PagesCommand (configCommand kind) := by
  intro b e h
  unfold configCommand
  split
  · exact portSet_spares.pages b e h
  · exact laneSet_spares.pages b e h
  · exact clockSet_pages b e h
  · exact gridSet_spares.pages b e h
  · exact followSet_pages b e h
  · exact layerMix_spares.pages b e h
  · exact liveMix_spares.pages b e h
  · exact masterSet_spares.pages b e h
  · exact fadeSet_spares.pages b e h
  · exact pedalMap_spares.pages b e h
  · exact pedalUnmap_spares.pages b e h
  · exact eventMask_spares.pages b e h
  · exact cycleSet_spares.pages b e h
  · exact (blockCommand_spares fun n e => holdBlock_spares n (.refl e)).pages b e h
  · exact (blockCommand_spares fun n e => releaseBlock_spares n (.refl e)).pages b e h
  · exact h

theorem runEmbedded_pages : ∀ (i : Nat) (msgs : List (Byte × List Byte)) {e : Engine}, Pages e →
    Pages (runEmbedded i msgs e).1
  | _, [], _, h => h
  | i, (kind, payload) :: rest, e, h => by
    have h1 := configCommand_pages kind.toNat payload e h
    unfold runEmbedded
    dsimp only
    split
    · exact runEmbedded_pages (i + 1) rest h1
    · exact h1

theorem applySetup_pages (cells : List Host.Cell) (k0 k1 : Byte) (h : Pages e) : Pages (applySetup cells k0 k1 e).1 := by
  unfold applySetup
  split
  · exact h
  · exact h
  · split
    · exact h
    · exact runEmbedded_pages _ _ h

theorem storeApply_pages (st : Store) : PagesCommand fun b e => storeApply b st e := by
  intro b e h
  dsimp only
  unfold storeApply
  split
  · split
    · exact h
    · exact applySetup_pages _ _ _ h
  · exact h

theorem bootApply_pages (cells : List Host.Cell) (h : Pages e) : Pages (bootApply cells e) := by
  have h1 : Pages (applySetup cells 0x42 0x53 e).1 := applySetup_pages cells _ _ h
  have h2 : Pages (post (.ready (applySetup cells 0x42 0x53 e).2.1 (applySetup cells 0x42 0x53 e).2.2)
    (applySetup cells 0x42 0x53 e).1) := h1.spared (post_spares _)
  exact h2.spared fun h => { h with }

end Sys2Proof.Machine
end

section
/-! Pages: the frame, the rows and the step. -/

set_option Elab.async false

namespace Sys2Proof.Machine

variable {s : State}

/-! ## The state -/

/-- The account of pages of the state's engine. -/
def State.Paged (s : State) : Prop := Pages s.eng

theorem resetWith_free (cells : List (Nat × Sample)) (pins : Vector (BitVec 10) 4) :
    (Engine.resetWith cells pins).mem.free = List.range Config.pageCount := by
  simp only [Engine.resetWith, LoopMem.resetWith]

theorem resetWith_pages (cells : List (Nat × Sample)) (pins : Vector (BitVec 10) 4) :
    Pages (Engine.resetWith cells pins) where
  uses := fun pg => by
    have hl : (layerIxs.map fun l => (Engine.resetWith cells pins).layers[l].pageUses pg).sum = 0 := by
      refine List.sum_eq_zero fun x hx => ?_
      obtain ⟨l, _, rfl⟩ := List.mem_map.mp hx
      simp only [Engine.resetWith, Fin.getElem_fin, Vector.getElem_replicate]
      rfl
    rw [pageUses, hl, resetWith_free, Nat.add_zero]
    simp only [List.nodup_range.count, List.mem_range]
  chains := fun l => by
    simp only [Engine.resetWith, Fin.getElem_fin, Vector.getElem_replicate]
    exact ⟨.inl rfl, fun _ => ⟨rfl, rfl, rfl⟩, fun hn => by cases hn⟩
  paired := fun s l => by
    simp only [Engine.resetWith, Fin.getElem_fin, Vector.getElem_replicate, Layer.reset, Slot.reset]
    simp
  freed := fun s _ => by
    simp only [Engine.resetWith, Fin.getElem_fin, Vector.getElem_replicate]
    rfl
  unmade := fun l _ => ⟨fun j hj => (nomatch hj), .inl (by
    simp only [Engine.resetWith, Fin.getElem_fin, Vector.getElem_replicate]
    rfl)⟩

theorem collected_paged (h : s.Paged) : s.collected.Paged := by
  unfold State.collected
  split
  · exact h
  · exact Pages.spared h fun h => { h with }
  · exact h

theorem read_paged (k : Nat) (h : s.Paged) : (s.read k).Paged := by
  unfold State.read
  extract_lets m sent
  split
  · exact collected_paged h
  · exact h

theorem message_paged (kind tag : Byte) (payload : List Byte) (h : s.Paged) : (s.message kind tag payload).Paged := by
  unfold State.message
  split
  · exact read_paged _ h
  · unfold State.offer
    dsimp only
    split <;> exact h

theorem transaction_paged (sent : List Byte) (h : s.Paged) : (s.transaction sent).Paged := by
  unfold State.transaction
  split
  · exact h
  · split
    · split
      · exact read_paged _ h
      · exact message_paged _ _ _ h
    · exact h

theorem take_paged (want : Byte → Bool) {f : Message → State → State}
    (hf : ∀ m t, State.Paged t → State.Paged (f m t)) (h : s.Paged) : (s.take want f).Paged := by
  unfold State.take
  split
  · exact h
  · split
    · exact hf _ _ h
    · exact h

theorem answerWith_paged {cmd : List Byte → Engine → Engine × Answer} (hc : PagesCommand cmd) (m : Message)
    (h : s.Paged) : (answerWith cmd m s).Paged := by
  unfold answerWith
  split
  · exact h
  · exact hc m.payload s.eng h

theorem startWith_paged {cmd : Byte → List Byte → Engine → Engine × Option Answer}
    (hc : ∀ tag b e, StartsTransfer (cmd tag b e) e) (m : Message) (h : s.Paged) : (startWith cmd m s).Paged := by
  have hout : Pages (cmd m.tag m.payload s.eng).1 := by
    obtain ⟨hsame, _⟩ | ⟨⟨t, ht⟩, _, _⟩ := hc m.tag m.payload s.eng
    · rw [hsame]; exact h
    · rw [ht]; exact Pages.spared h fun h => { h with }
  unfold startWith
  split
  · exact h
  · dsimp only
    split <;> exact hout

theorem finishWrite_paged (h : s.Paged) : s.finishWrite.Paged := by
  unfold State.finishWrite
  split
  · split
    · exact Pages.spared h (post_spares _)
    · exact h
  · exact h

theorem wordComplete_paged (h : s.Paged) : s.wordComplete.Paged := by
  unfold State.wordComplete
  split
  · exact h
  · dsimp only
    split
    · exact finishWrite_paged h
    · exact h

theorem resetEngine_paged (m : Message) (h : s.Paged) : (resetEngine m s).Paged := by
  unfold resetEngine
  split
  · exact h
  · exact resetWith_pages _ _

/-! ## The frame -/

theorem onEng_pages {f : Engine → Engine} (h : Pages (f s.eng)) : Pages (s.onEng f).eng := h

theorem settleGrant_paged (h : s.Paged) : (settleGrant s).Paged := by
  have h1 : Pages (completeGrant s.eng).1 := (completeGrant_spares h).pages h
  unfold settleGrant
  split
  · dsimp only
    split <;> exact h1
  · exact h

theorem settleBoot_paged (h : s.Paged) : (settleBoot s).Paged := by
  unfold settleBoot
  split
  · exact bootApply_pages _ h
  · exact h

theorem settleSlot_pages (i : SlotIx) {e : Engine} (h : Pages e) : Pages (settleSlot i e) :=
  Pages.ite (completeFixed_pages i h) (commitSlot_pages i h)

/-- What is due on the frame that ends, once its cues and its grant are settled. -/
theorem settleUnits_pages {e : Engine} (h : Pages e) :
    Pages (let e1 := eachLayer settleFade (eachSlot settleSlot (eachLayer settleVoice e))
      settleSplice (clipWindowEnd (reportClip (samplingEvent e1.ped.pins e1)))) := by
  have h1 : Pages (eachLayer settleVoice e) :=
    h.spared fun h => eachLayer_induct (fun l _ h => settleVoice_spares l h) h
  have h2 : Pages (eachSlot settleSlot (eachLayer settleVoice e)) :=
    eachSlot_induct (fun i _ h => settleSlot_pages i h) h1
  have h3 : Pages (eachLayer settleFade (eachSlot settleSlot (eachLayer settleVoice e))) :=
    h2.spared fun h => eachLayer_induct (fun l _ h => settleFade_spares l h) h
  exact h3.spared fun h => settleSplice_spares (clipWindowEnd_spares (reportClip_spares (samplingEvent_spares _ h)))

theorem settle_paged (h : s.Paged) : (settle s).Paged := by
  unfold settle
  extract_lets s1 s2
  have h1 : s1.Paged := settleBoot_paged (onEng_pages (Pages.spared h settleClock_spares))
  clear_value s1
  have h2 : s2.Paged := settleGrant_paged (onEng_pages (settleCues_pages h1))
  clear_value s2
  exact onEng_pages (settleUnits_pages h2)

theorem runFrame_pages {e : Engine} (h : Pages e) : Pages (runFrame e) := by
  unfold runFrame
  extract_lets adv e1
  have h1 : Pages e1 := h.spared fun h =>
    countCues_frame (noteGrid_spares (cycleFrame_spares (readyToJump e) (openFrame_spares h)))
  clear_value e1
  exact frameOnsets_pages (h1.spared fun h => tickGrant_spares (tickSampling_spares (frameAudio_spares adv h)))

theorem newFrame_paged (h : s.Paged) : s.newFrame.Paged := by
  unfold State.newFrame
  split
  · exact finishWrite_paged (onEng_pages (runFrame_pages h))
  · exact h

theorem settlePorts_paged (h : s.Paged) : (settlePorts s).Paged :=
  onEng_pages (Pages.spared h fun h => eachQuad_induct (fun p _ h => settlePort_spares p h) h)

theorem frame_paged (h : s.Paged) : s.frame.Paged := by
  have h1 := settlePorts_paged h
  unfold State.frame
  dsimp only
  split
  · exact newFrame_paged (settle_paged h1)
  · exact h1

/-! ## The rows -/

/-- Every row but POWER_ON is a change of the state while the part has power; it keeps the account. -/
def RowKeepsPages (row : State → Result) : Prop := ∃ f, row = stateRow f ∧ ∀ s : State, s.Paged → (f s).Paged

theorem stateRow_paged {f : State → State} (hf : ∀ s : State, s.Paged → (f s).Paged) : RowKeepsPages (stateRow f) :=
  ⟨f, rfl, hf⟩

theorem engineRow_paged {f : Engine → Engine} (hf : ∀ e, Pages e → Pages (f e)) : RowKeepsPages (engineRow f) :=
  ⟨State.onEng f, rfl, fun s h => hf s.eng h⟩

theorem takeRow_paged {want : Byte → Bool} {f : Message → State → State}
    (hf : ∀ m s, State.Paged s → State.Paged (f m s)) : RowKeepsPages (stateRow (State.take want f)) :=
  stateRow_paged fun _ h => take_paged want hf h

theorem commandRow_paged (kind : Nat) {cmd : List Byte → Engine → Engine × Answer} (hc : PagesCommand cmd) :
    RowKeepsPages (commandRow kind cmd) :=
  ⟨State.take (isKind kind) (answerWith cmd), rfl, fun _ h => take_paged _ (fun m _ h => answerWith_paged hc m h) h⟩

theorem cueRow_paged (want : Action → Bool) : RowKeepsPages (cueRow want) :=
  engineRow_paged fun _ h => runDue_pages want h

theorem whenDue_paged {due : Engine → Bool} {f : Engine → Engine} (hf : ∀ e, due e = true → Pages e → Pages (f e))
    (e : Engine) (h : Pages e) : Pages (whenDue due f e) := by
  unfold whenDue
  split
  next hdue => exact hf e hdue h
  · exact h

theorem primingRow_pages (l : LayerIx) {e : Engine} (hdue : primingDue e l = true) (h : Pages e) :
    Pages (primingDone l e) := by
  simp only [primingDue, Bool.and_eq_true, beq_iff_eq] at hdue
  exact h.spared (primingDone_spares hdue.1.1)

theorem recoverRow_pages (l : LayerIx) {e : Engine} (hdue : recoveryDue e l = true) (h : Pages e) :
    Pages (recoverFrame l e) := by
  simp only [recoveryDue, Bool.and_eq_true] at hdue
  exact h.spared (recoverFrame_spares (made_of_sounding hdue.1.2))

theorem exec_paged (c : Instr) (hc : c ≠ .powerOn) : RowKeepsPages (exec c) := by
  cases c with
  | powerOn => exact absurd rfl hc
  | relockEnd => exact engineRow_paged fun _ h => h.spared endRelock_spares
  | bootSetupApply => exact stateRow_paged fun _ h => settleBoot_paged h
  | hostMessage kind tag payload => exact stateRow_paged fun _ h => message_paged kind tag payload h
  | shortTransaction sent => exact stateRow_paged fun _ h => transaction_paged sent h
  | read clocked => exact stateRow_paged fun _ h => read_paged clocked h
  | unknownKind => exact takeRow_paged fun _ _ h => h
  | portSet => exact commandRow_paged 1 portSet_spares.pages
  | laneSet => exact commandRow_paged 2 laneSet_spares.pages
  | clockSet => exact commandRow_paged 3 clockSet_pages
  | gridSet => exact commandRow_paged 4 gridSet_spares.pages
  | followSet => exact commandRow_paged 5 followSet_pages
  | layerMix => exact commandRow_paged 6 layerMix_spares.pages
  | liveMix => exact commandRow_paged 7 liveMix_spares.pages
  | masterSet => exact commandRow_paged 8 masterSet_spares.pages
  | fadeSet => exact commandRow_paged 9 fadeSet_spares.pages
  | pedalMap => exact commandRow_paged 10 pedalMap_spares.pages
  | pedalUnmap => exact commandRow_paged 11 pedalUnmap_spares.pages
  | eventMask => exact commandRow_paged 12 eventMask_spares.pages
  | cue => exact commandRow_paged 13 cueCommand_pages
  | cueCancel => exact commandRow_paged 14 cueCancel_pages
  | tap => exact commandRow_paged 15 tap_pages
  | cycleSet => exact commandRow_paged 16 cycleSet_spares.pages
  | layerHold => exact commandRow_paged 17 layerHold_pages
  | layerRelease => exact commandRow_paged 18 layerRelease_spares.pages
  | audioRead => exact takeRow_paged fun m _ h => startWith_paged audioRead_starts m h
  | audioWrite => exact takeRow_paged fun m _ h => startWith_paged audioWrite_starts m h
  | layerQuery => exact commandRow_paged 21 layerQuery_spares.pages
  | cycleQuery => exact commandRow_paged 22 cycleQuery_spares.pages
  | laneQuery => exact commandRow_paged 23 laneQuery_spares.pages
  | memoryQuery => exact commandRow_paged 24 memoryQuery_spares.pages
  | ident => exact takeRow_paged fun _ _ h => h
  | storeRead => exact takeRow_paged fun _ _ h => h
  | storeWrite =>
    refine takeRow_paged fun m s h => ?_
    unfold State.Paged
    rw [storeWriteWith_eng]
    exact h
  | storeWordComplete => exact stateRow_paged fun _ h => wordComplete_paged h
  | storeApply => exact takeRow_paged fun m s h => answerWith_paged (storeApply_pages s.store) m h
  | blockHold => exact commandRow_paged 29 (blockCommand_spares fun n e => holdBlock_spares n (.refl e)).pages
  | blockRelease => exact commandRow_paged 30 (blockCommand_spares fun n e => releaseBlock_spares n (.refl e)).pages
  | engineReset => exact takeRow_paged fun m _ h => resetEngine_paged m h
  | frame => exact stateRow_paged fun _ h => frame_paged h
  | spliceWaitLimit => exact engineRow_paged (whenDue_paged fun _ _ h => h.spared (abandonSplice_spares _))
  | spliceJump =>
    refine stateRow_paged fun s h => ?_
    unfold State.jumpFrame
    split
    · exact frame_paged h
    · exact h
  | crossfadeEnd => exact engineRow_paged (whenDue_paged fun _ _ h => h.spared endCrossfade_spares)
  | holdOffEnd => exact engineRow_paged (whenDue_paged fun _ _ h => h.spared fun h => { h with })
  | coast => exact engineRow_paged fun _ h => h.spared coast_spares
  | record => exact cueRow_paged _
  | close => exact cueRow_paged _
  | autoClose => exact engineRow_paged fun _ h => autoClose_pages h
  | fixedCaptureComplete slot => exact engineRow_paged (whenDue_paged fun _ _ h => completeFixed_pages slot h)
  | overdub => exact cueRow_paged _
  | overdubEnd => exact cueRow_paged _
  | play => exact cueRow_paged _
  | stop => exact cueRow_paged _
  | mute => exact cueRow_paged _
  | unmute => exact cueRow_paged _
  | undo => exact cueRow_paged _
  | redo => exact cueRow_paged _
  | clear => exact cueRow_paged _
  | stopAll => exact cueRow_paged _
  | playAll => exact cueRow_paged _
  | pause => exact cueRow_paged _
  | resume => exact cueRow_paged _
  | clearAll => exact cueRow_paged _
  | grantComplete => exact stateRow_paged fun _ h => settleGrant_paged h
  | primingComplete voice => exact engineRow_paged (whenDue_paged fun e hdue h => primingRow_pages voice hdue h)
  | recovery voice => exact engineRow_paged (whenDue_paged fun e hdue h => recoverRow_pages voice hdue h)
  | voiceIdle voice => exact engineRow_paged (whenDue_paged fun _ _ h => h.spared (idleVoice_spares voice))
  | clearFadeEnd voice => exact engineRow_paged (whenDue_paged fun _ _ h => h.spared (clearFadeDone_spares voice))
  | clipWindowEnd => exact engineRow_paged fun _ h => h.spared clipWindowEnd_spares
  | portFrameArrival port bits => exact engineRow_paged fun _ h => h.spared (portArrival_spares port bits)
  | silentPeriod port => exact engineRow_paged fun _ h => h.spared (silentPeriod_spares port)
  | lockAcquired port => exact engineRow_paged fun _ h => h.spared (acquireLock_spares port)
  | lockLost port => exact engineRow_paged fun _ h => h.spared (loseLock_spares port)
  | elasticFillDone port => exact engineRow_paged fun _ h => h.spared (fillDone_spares port)
  | underrunEnd port => exact engineRow_paged fun _ h => h.spared (slipEnd_spares .under port)
  | overrunEnd port => exact engineRow_paged fun _ h => h.spared (slipEnd_spares .over port)
  | samplingEvent v0 v1 v2 v3 => exact engineRow_paged fun _ h => h.spared (samplingEvent_spares _)
  | powerOff =>
    refine stateRow_paged fun s h => ?_
    unfold State.Paged
    rw [losePower_eng]
    exact h

theorem execPowerOn_paged {t : State} (ht : execPowerOn s = .next t) : t.Paged := by
  simp only [execPowerOn, Host.Outcome.next.injEq] at ht
  subst ht
  split <;> exact resetWith_pages _ _

theorem exec_keeps_paged (c : Instr) {t : State} (h : s.Paged) (ht : exec c s = .next t) : t.Paged := by
  by_cases hc : c = .powerOn
  · subst hc
    exact execPowerOn_paged ht
  obtain ⟨f, hf, hkeep⟩ := exec_paged c hc
  rw [hf, stateRow, Host.Outcome.next.injEq] at ht
  subst ht
  unfold State.whenOn
  split
  · exact hkeep s h
  · exact h

end Sys2Proof.Machine

namespace Sys2Proof.Settled

open Sys2Proof.Machine

/-- Settles O5: an operation either spares the account (`Spares`) or exchanges the pages of one layer with the free list,
gives or takes its slot, and ends with a state that its chains, its slot, its jobs and its voice allow (`PagesBut`). -/
theorem stepKeepsPages : Obligations.StepKeepsPages := by
  intro s t hs ht
  rw [pagesSound_iff] at hs ⊢
  unfold step at ht
  split at ht
  · cases ht
    exact hs
  next c rest _ => exact exec_keeps_paged c (s := { s with pending := rest }) hs ht

end Sys2Proof.Settled
end

section
/-! What every row of the machine does to the queue of commands, and the three invariants after reset. -/

set_option Elab.async false

namespace Sys2Proof.Machine

variable {s : State}

/-! ## The queue of commands -/

/-- Every row but POWER_ON is a change of the state while the part has power, which leaves the queue of commands alone. -/
def RowGoesOn (row : State → Result) : Prop := ∃ f, row = stateRow f ∧ ∀ s : State, (f s).pending = s.pending

theorem stateRow_goesOn {f : State → State} (hf : ∀ s : State, (f s).pending = s.pending) : RowGoesOn (stateRow f) :=
  ⟨f, rfl, hf⟩

theorem engineRow_goesOn (f : Engine → Engine) : RowGoesOn (engineRow f) := stateRow_goesOn (f := State.onEng f) fun _ => rfl

theorem take_pending (want : Byte → Bool) {f : Message → State → State} (hf : ∀ m s, (f m s).pending = s.pending) :
    (s.take want f).pending = s.pending := by
  unfold State.take
  split
  · rfl
  · split
    · exact hf _ _
    · rfl

theorem takeRow_goesOn {want : Byte → Bool} {f : Message → State → State} (hf : ∀ m s, (f m s).pending = s.pending) :
    RowGoesOn (stateRow (State.take want f)) := stateRow_goesOn fun _ => take_pending want hf

theorem answerWith_pending (cmd : List Byte → Engine → Engine × Answer) (m : Message) (s : State) :
    (answerWith cmd m s).pending = s.pending := by
  unfold answerWith
  split <;> rfl

theorem commandRow_goesOn (kind : Nat) (cmd : List Byte → Engine → Engine × Answer) : RowGoesOn (commandRow kind cmd) :=
  stateRow_goesOn (f := State.take (isKind kind) (answerWith cmd)) fun _ => take_pending _ (answerWith_pending cmd)

theorem startWith_pending (cmd : Byte → List Byte → Engine → Engine × Option Answer) (m : Message) (s : State) :
    (startWith cmd m s).pending = s.pending := by
  unfold startWith
  split
  · rfl
  · dsimp only
    split <;> rfl

theorem read_pending (n : Nat) (s : State) : (s.read n).pending = s.pending := by
  unfold State.read State.collected
  dsimp only [State.sends]
  split
  · split <;> rfl
  · rfl

theorem message_pending (kind tag : Byte) (payload : List Byte) (s : State) :
    (s.message kind tag payload).pending = s.pending := by
  unfold State.message
  split
  · exact read_pending _ s
  · unfold State.offer
    dsimp only [State.sends]
    split <;> rfl

theorem transaction_pending (sent : List Byte) (s : State) : (s.transaction sent).pending = s.pending := by
  unfold State.transaction
  split
  · rfl
  · split
    · split
      · exact read_pending _ s
      · exact message_pending _ _ _ s
    · rfl

theorem storeWriteWith_pending (m : Message) (s : State) : (storeWriteWith m s).pending = s.pending := by
  unfold storeWriteWith
  split
  · rfl
  · dsimp only
    split <;> rfl

theorem resetEngine_pending (m : Message) (s : State) : (resetEngine m s).pending = s.pending := by
  unfold resetEngine
  split <;> rfl

theorem finishWrite_pending (s : State) : s.finishWrite.pending = s.pending := by
  unfold State.finishWrite
  split
  · split <;> rfl
  · rfl

theorem wordComplete_pending (s : State) : s.wordComplete.pending = s.pending := by
  unfold State.wordComplete
  split
  · rfl
  · dsimp only
    split
    · exact finishWrite_pending _
    · rfl

theorem losePower_pending (s : State) : s.losePower.pending = s.pending := by
  unfold State.losePower
  dsimp only
  split <;> rfl

theorem settleGrant_pending (s : State) : (settleGrant s).pending = s.pending := by
  unfold settleGrant
  split
  · dsimp only
    split <;> rfl
  · rfl

theorem settleBoot_pending (s : State) : (settleBoot s).pending = s.pending := by
  unfold settleBoot
  split <;> rfl

theorem onEng_pending (f : Engine → Engine) (s : State) : (s.onEng f).pending = s.pending := rfl

theorem settle_pending (s : State) : (settle s).pending = s.pending := by
  unfold settle
  extract_lets s1 s2
  have h1 : s1.pending = s.pending := (settleBoot_pending _).trans (onEng_pending settleClock s)
  have h2 : s2.pending = s1.pending := (settleGrant_pending _).trans (onEng_pending settleCues s1)
  clear_value s2
  rw [onEng_pending, h2, h1]

theorem newFrame_pending (s : State) : s.newFrame.pending = s.pending := by
  unfold State.newFrame
  split
  · rw [finishWrite_pending, onEng_pending]
  · rfl

theorem frame_pending (s : State) : s.frame.pending = s.pending := by
  have hp : (settlePorts s).pending = s.pending := onEng_pending _ s
  unfold State.frame
  dsimp only
  split
  · rw [newFrame_pending, settle_pending, hp]
  · exact hp

theorem exec_goesOn (c : Instr) (hc : c ≠ .powerOn) : RowGoesOn (exec c) := by
  cases c with
  | powerOn => exact absurd rfl hc
  | bootSetupApply => exact stateRow_goesOn settleBoot_pending
  | hostMessage kind tag payload => exact stateRow_goesOn (message_pending kind tag payload)
  | shortTransaction sent => exact stateRow_goesOn (transaction_pending sent)
  | read clocked => exact stateRow_goesOn (read_pending clocked)
  | unknownKind => exact takeRow_goesOn fun _ _ => rfl
  | portSet => exact commandRow_goesOn 1 _
  | laneSet => exact commandRow_goesOn 2 _
  | clockSet => exact commandRow_goesOn 3 _
  | gridSet => exact commandRow_goesOn 4 _
  | followSet => exact commandRow_goesOn 5 _
  | layerMix => exact commandRow_goesOn 6 _
  | liveMix => exact commandRow_goesOn 7 _
  | masterSet => exact commandRow_goesOn 8 _
  | fadeSet => exact commandRow_goesOn 9 _
  | pedalMap => exact commandRow_goesOn 10 _
  | pedalUnmap => exact commandRow_goesOn 11 _
  | eventMask => exact commandRow_goesOn 12 _
  | cue => exact commandRow_goesOn 13 _
  | cueCancel => exact commandRow_goesOn 14 _
  | tap => exact commandRow_goesOn 15 _
  | cycleSet => exact commandRow_goesOn 16 _
  | layerHold => exact commandRow_goesOn 17 _
  | layerRelease => exact commandRow_goesOn 18 _
  | audioRead => exact takeRow_goesOn (startWith_pending audioRead)
  | audioWrite => exact takeRow_goesOn (startWith_pending audioWrite)
  | layerQuery => exact commandRow_goesOn 21 _
  | cycleQuery => exact commandRow_goesOn 22 _
  | laneQuery => exact commandRow_goesOn 23 _
  | memoryQuery => exact commandRow_goesOn 24 _
  | ident => exact takeRow_goesOn fun _ _ => rfl
  | storeRead => exact takeRow_goesOn fun _ _ => rfl
  | storeWrite => exact takeRow_goesOn storeWriteWith_pending
  | storeWordComplete => exact stateRow_goesOn wordComplete_pending
  | storeApply => exact takeRow_goesOn fun m s => answerWith_pending _ m s
  | blockHold => exact commandRow_goesOn 29 _
  | blockRelease => exact commandRow_goesOn 30 _
  | engineReset => exact takeRow_goesOn resetEngine_pending
  | frame => exact stateRow_goesOn frame_pending
  | spliceJump =>
    refine stateRow_goesOn fun s => ?_
    unfold State.jumpFrame
    split
    · exact frame_pending s
    · rfl
  | grantComplete => exact stateRow_goesOn settleGrant_pending
  | powerOff => exact stateRow_goesOn losePower_pending
  | _ => exact engineRow_goesOn _

theorem execPowerOn_pending (s : State) : ∃ t, exec .powerOn s = .next t ∧ t.pending = s.pending := by
  refine ⟨_, rfl, ?_⟩
  split
  · exact losePower_pending s
  · rfl

end Sys2Proof.Machine

namespace Sys2Proof.Settled

open Sys2Proof.Machine

/-- Settles O1. -/
theorem stepRunsFrontCommand : Obligations.StepRunsFrontCommand := by
  refine ⟨fun c rest s h => ?_, fun s h => ?_⟩ <;> simp only [step, h]

/-- Settles O2: but for POWER_ON every row is a change of the state guarded by the power. -/
theorem everyCommandGoesOn : Obligations.EveryCommandGoesOn := by
  refine ⟨fun c s => ?_, fun c s hoff hc => ?_⟩
  · by_cases hc : c = .powerOn
    · subst hc
      exact execPowerOn_pending s
    · obtain ⟨f, hf, hp⟩ := exec_goesOn c hc
      refine ⟨s.whenOn f, by rw [hf, stateRow], ?_⟩
      unfold State.whenOn
      split
      · exact hp s
      · rfl
  · obtain ⟨f, hf, _⟩ := exec_goesOn c hc
    simp only [hf, stateRow, State.whenOn, hoff, Bool.false_eq_true, if_false]

/-- Settles O6. -/
theorem resetIsSound : Obligations.ResetIsSound :=
  ⟨by decide, (Engine.inRange_iff _).mpr (resetWith_ranged _ _), (pagesSound_iff _).mpr (resetWith_pages _ _)⟩

end Sys2Proof.Settled
end

section
/-! Power, reset, the link and the reports: the rows outside the engine (R175 to R185, R191, R193). -/

set_option Elab.async false

namespace Sys2Proof.Machine

variable {s : State}

/-- A row of the state while the part has power. -/
theorem stateRow_on (hp : s.powered = true) (f : State → State) : stateRow f s = .next (f s) := by
  simp only [stateRow, State.whenOn, hp, if_true]

theorem resetWith_pins (cells : List (Nat × Sample)) (pins : Vector (BitVec 10) 4) :
    Engine.resetWith cells pins = { State.reset.eng with
      ped := { State.reset.eng.ped with pins := pins }, mem := { State.reset.eng.mem with cells := cells } } := by
  simp only [State.reset, Engine.resetWith, LoopMem.resetWith, Pedals.resetWith]

theorem losePower_off (s : State) : s.losePower.powered = false := by
  unfold State.losePower
  dsimp only
  split <;> rfl

/-! ## The link -/

theorem listens_header (n : Nat) (s : State) :
    s.listens (4 + n) = List.replicate 4 (linkStatusByte s.link s.eng.evq) ++ List.replicate n 0 := by
  simp only [State.listens, Nat.min_eq_left (Nat.le_add_right 4 n), Nat.add_sub_cancel_left]

theorem transaction_short {sent : List Byte} (h : shortBytes sent = true) (s : State) :
    s.transaction sent = { s with link := { s.link with overrun := true, miso := s.listens sent.length } } := by
  simp only [State.transaction, h, if_true]

/-- A transaction ends early before its header or its declared payload is complete. -/
theorem shortBytes_of {sent : List Byte} (h1 : 1 ≤ sent.length)
    (h : sent.length < 4 ∨ ∃ kind tag lo hi payload, sent = kind :: tag :: lo :: hi :: payload ∧ kind ≠ 0
      ∧ payload.length < word16 lo hi) : shortBytes sent = true := by
  obtain h | ⟨kind, tag, lo, hi, payload, rfl, hk, hlt⟩ := h
  · match sent, h1, h with
    | [_], _, _ => rfl
    | [_, _], _, _ => rfl
    | [_, _, _], _, _ => rfl
  · simp only [word16] at hlt
    simp only [shortBytes, bne_iff_ne.mpr hk, hlt, decide_true, Bool.and_self]

theorem reply_outbound {r : Reply} {rest : List Reply} (h : s.link.replies = r :: rest) : s.outbound = r.bytes := by
  simp only [State.outbound, h]

theorem report_outbound {r : Report} {rest : List Report} (h : s.link.replies = []) (he : s.eng.evq.list = r :: rest) :
    s.outbound = r.bytes := by
  simp only [State.outbound, h, he]

theorem empty_outbound (h : s.link.replies = []) (he : s.eng.evq.list = []) : s.outbound = [0, 0, 0, 0] := by
  simp only [State.outbound, h, he]
  rfl

/-- A message whose last byte is out is removed. -/
theorem read_all {n : Nat} (h : s.outbound.length ≤ n) : s.read n = s.collected.sends
    (List.replicate 4 (linkStatusByte s.link s.eng.evq)
      ++ (s.outbound ++ List.replicate (n - s.outbound.length) 0).take n) := by
  simp only [State.read, if_pos h]

/-- A message cut short stays. -/
theorem read_part {n : Nat} (h : n < s.outbound.length) : s.read n = s.sends
    (List.replicate 4 (linkStatusByte s.link s.eng.evq)
      ++ (s.outbound ++ List.replicate (n - s.outbound.length) 0).take n) := by
  simp only [State.read, if_neg (Nat.not_le.mpr h)]

/-- With nothing to collect nothing is removed. -/
theorem read_empty {n : Nat} (h : s.link.replies = []) (he : s.eng.evq.list = []) : s.read n = s.sends
    (List.replicate 4 (linkStatusByte s.link s.eng.evq) ++ (([0, 0, 0, 0] : List Byte) ++ List.replicate (n - 4) 0).take n) := by
  have hc : s.collected = s := by simp only [State.collected, h, he]
  simp only [State.read, hc, ite_self, empty_outbound h he]
  rfl

/-! ## The status byte (R176) -/

theorem linkStatusByte_eq (lk : Link) (q : EventQueue) :
    linkStatusByte lk q = (if lk.replies.isEmpty then 0 else 1) + (if q.list.isEmpty then 0 else 2)
      + (if lk.overrun then 4 else 0) + (if q.lost then 8 else 0) := by
  simp only [linkStatusByte, List.isEmpty_iff]

theorem statusBits : ∀ a b c d : Bool,
    let x : Byte := (if a then 0 else 1) + (if b then 0 else 2) + (if c then 4 else 0) + (if d then 8 else 0)
    x.getLsbD 0 = !a ∧ x.getLsbD 1 = !b ∧ x.getLsbD 2 = c ∧ x.getLsbD 3 = d ∧ x.toNat < 16 := by decide

/-! ## Fields (R175, R180) -/

theorem leBytes_length : ∀ n x : Nat, (leBytes n x).length = n
  | 0, _ => rfl
  | n + 1, x => congrArg (· + 1) (leBytes_length n (x / 256))

theorem leBytes_two (x : Nat) : leBytes 2 x = [byte x, byte (x / 256)] := rfl

theorem leBytes_four (x : Nat) :
    leBytes 4 x = [byte x, byte (x / 256), byte (x / 65536), byte (x / 16777216)] := by
  simp only [leBytes, byte, Nat.div_div_eq_div_mul]

theorem byte_toNat (n : Nat) : (byte n).toNat = n % 256 := BitVec.toNat_ofNat n 8

theorem word32_bytes {x : Nat} (h : x < 4294967296) :
    word32 (byte x) (byte (x / 256)) (byte (x / 65536)) (byte (x / 16777216)) = x := by
  simp only [word32, byte_toNat]
  omega

end Sys2Proof.Machine

namespace Sys2Proof.Settled

open Sys2Proof.Machine

/-- Settles O7. -/
theorem resetLeavesStatedValues : Obligations.ResetLeavesStatedValues := by
  have hvec : ∀ {α : Type} {n : Nat} (x : α) (i : Fin n), (Vector.replicate n x)[i] = x := fun x i => by
    simp only [Fin.getElem_fin, Vector.getElem_replicate]
  unfold Obligations.ResetLeavesStatedValues
  intro e
  refine ⟨?cycle, ?follower, fun l => hvec _ l, rfl, fun i => hvec _ i, ⟨resetWith_free _ _, rfl, rfl, rfl, rfl⟩, fun v => ?voice, rfl, rfl,
    rfl, rfl, rfl, rfl, ⟨rfl, rfl, rfl, rfl, rfl⟩, fun l => hvec _ l, ⟨rfl, rfl, rfl, rfl⟩, fun p => ?port, ?lane, rfl, rfl,
    fun i => hvec _ i, fun i => hvec _ i⟩
  case cycle => decide
  case follower => decide
  case voice => rw [show e.voices[v] = Voice.reset from hvec _ v]; decide
  case port => rw [show e.ports[p] = Port.reset from hvec _ p]; decide
  case lane => exact (by decide : ∀ l : LaneIx, (#v[Lane.reset 0, Lane.reset 1, Lane.reset 2, Lane.reset 3])[l].source = some l
      ∧ (#v[Lane.reset 0, Lane.reset 1, Lane.reset 2, Lane.reset 3])[l].channel = .left
      ∧ (#v[Lane.reset 0, Lane.reset 1, Lane.reset 2, Lane.reset 3])[l].invert = false
      ∧ (#v[Lane.reset 0, Lane.reset 1, Lane.reset 2, Lane.reset 3])[l].trim = 4096
      ∧ (#v[Lane.reset 0, Lane.reset 1, Lane.reset 2, Lane.reset 3])[l].peak = 0)

/-- Settles O8: POWER_ON of a powered part loses the power first. -/
theorem powerOn : Obligations.PowerOn := by
  refine ⟨fun s hoff => ?off, fun s hon => ⟨s.losePower, stateRow_on hon _, ?on⟩⟩
  case off =>
    simp only [exec, execPowerOn, hoff, Bool.false_eq_true, if_false, State.gainPower]
    rfl
  case on => simp only [exec, execPowerOn, hon, losePower_off, if_true, Bool.false_eq_true, if_false]

/-- Settles O9: the word that is being programmed takes its new value or keeps its old one. -/
theorem powerOff : Obligations.PowerOff := by
  refine ⟨fun s hon hj hi => ?idle, fun s j hon hj hlt => ?busy⟩
  case idle =>
    rw [show exec .powerOff s = .next s.losePower from stateRow_on hon _]
    simp [State.losePower, interruptJob, hj, hi]
  case busy =>
    rw [show exec .powerOff s = .next s.losePower from stateRow_on hon _]
    have hw : j.word? = some (j.offset + 4 * j.done, (j.data.drop (4 * j.done)).take 4) := by
      simp [StoreJob.word?, hlt]
    have hl : s.losePower = { s with
        powered := false, freeCount := s.freeCount + 1,
        store := { cells := if Config.interruptedWordTakesNew s.freeCount = true
                     then cellWrites s.store.cells (j.offset + 4 * j.done) ((j.data.drop (4 * j.done)).take 4)
                     else s.store.cells,
                   job := none, interrupted := none } } := by
      simp only [State.losePower, interruptJob, hj, hw, Option.isSome_some, if_true, finishInterrupted]
    refine ⟨_, by rw [hl], ?_⟩
    split
    · exact .inr rfl
    · exact .inl rfl

/-- Settles O10. -/
theorem engineReset : Obligations.EngineReset := by
  intro s m rest h ped mem reply lk word
  have hr : m.kind = 31 := BitVec.eq_of_toNat_eq h.kind
  rw [show exec .engineReset s = _ from stateRow_takes h _]
  simp only [resetEngine, h.whole, h.payload, Bool.false_eq_true, List.length_nil, ne_eq, not_true_eq_false, or_self, if_false,
    State.reply, queueReply, hr, Link.reset, List.nil_append]
  have hstore : interruptJob s.store = { s.store with job := none, interrupted := word } := by
    unfold word
    cases hj : s.store.job with
    | none => simp only [interruptJob, hj]; rw [← hj]
    | some j => simp only [interruptJob, hj]; rfl
  rw [resetWith_pins, hstore]
  rfl

/-- Settles O11. -/
theorem relockEnd : Obligations.RelockEnd := by
  intro s hp hl clk evq
  rw [show exec .relockEnd s = _ from engineRow_on hp _]
  simp only [endRelock, hl, Bool.false_eq_true, if_false, State.giving, evq]
  split <;> rfl

/-- Settles O13. -/
theorem hostTransactions : Obligations.HostTransactions := by
  refine ⟨fun kind tag payload s hp hk => ?message, fun sent s hp => ⟨fun h1 h => ?short, fun h => ?none⟩⟩
  case message =>
    intro miso m taken
    have hm : s.message kind tag payload = (s.offer m).sends miso := by
      simp only [State.message, if_neg hk, listens_header, m, miso]
      by_cases hl : payload.length ≤ 1020
      · simp [hl, Nat.not_lt.mpr hl]
      · simp [hl, Nat.lt_of_not_le hl]
    rw [show exec (.hostMessage kind tag payload) s = .next (s.message kind tag payload) from stateRow_on hp _, hm]
    exact ⟨fun hroom => by rw [offer_accepted hroom]; rfl, fun hfull => by rw [offer_discarded hfull]; rfl⟩
  case short =>
    refine ⟨s.listens sent.length, ?_⟩
    rw [show exec (.shortTransaction sent) s = .next (s.transaction sent) from stateRow_on hp _,
      transaction_short (shortBytes_of h1 h)]
  case none =>
    subst h
    exact stateRow_on hp _

/-- Settles O14: the message that READ sends is removed when all of it is out. -/
theorem read : Obligations.Read := by
  intro n s hp header sent
  rw [show exec (.read n) s = .next (s.read n) from stateRow_on hp _]
  refine ⟨fun r rest h hl => ?_, fun r rest h hl => ?_, fun r rest h he hl => ?_, fun r rest h he hl => ?_,
    fun h he => ?_⟩
  · have ho := reply_outbound h
    rw [read_all (by rwa [ho]), collected_reply h, ho]
    rfl
  · have ho := reply_outbound h
    rw [read_part (by rwa [ho]), ho]
    rfl
  · have ho := report_outbound h he
    rw [read_all (by rwa [ho]), collected_report h he, ho]
    rfl
  · have ho := report_outbound h he
    rw [read_part (by rwa [ho]), ho]
    rfl
  · rw [read_empty h he]
    rfl

/-- Settles O15. -/
theorem outboundLayout : Obligations.OutboundLayout := by
  refine ⟨fun r => ?reply, fun r => ?report, fun v hlo hhi => ?field⟩
  case reply =>
    intro data n
    have hn : r.payload.length = n := by
      simp only [Reply.payload, List.length_cons, n, data]
      omega
    simp only [Reply.bytes, messageBytes, hn, leBytes_two]
    rfl
  case report =>
    intro word data n
    simp only [Report.bytes, messageBytes, List.length_cons, leBytes_two, leBytes_four, List.cons_append, List.nil_append,
      word]
    have hn : (r.event.fields.flatMap fieldBytes).length + 1 + 1 + 1 + 1 + 1 + 1 + 1 + 1 + 1 + 1 = n := by
      simp only [n, data]
      omega
    rw [hn]
    cases r.lost <;> rfl
  case field =>
    have hx : (BitVec.ofInt 32 v).toNat < 4294967296 := (BitVec.ofInt 32 v).isLt
    refine ⟨_, _, _, _, leBytes_four _, ?_⟩
    rw [word32_bytes hx, BitVec.toNat_ofInt]
    split <;> omega

/-- Settles O16. -/
theorem statusByteAndAttn : Obligations.StatusByteAndAttn := by
  refine ⟨fun lk q => ?_, fun s => ?_⟩
  · rw [linkStatusByte_eq]
    simpa only [Bool.not_not] using statusBits lk.replies.isEmpty q.list.isEmpty lk.overrun q.lost
  · cases hr : s.link.replies <;> cases he : s.eng.evq.list <;> simp [State.attnLow, hr, he]

/-- Settles O17. -/
theorem reportJoinsEventQueue : Obligations.ReportJoinsEventQueue := fun ev k p _ =>
  ⟨fun he hl => queueReport_joins (ev := ev) he hl k p, fun he hl => queueReport_full (ev := ev) he hl k p,
    fun he => queueReport_disabled (ev := ev) he k p⟩

end Sys2Proof.Settled
end

section
/-! What a payload says (R175, R180, R186): its fields, its enumerations, and whether clamping changed a value. -/

set_option Elab.async false

namespace Sys2Proof.Machine

/-! ## Fields of a payload -/

theorem fieldAt_byte (b : Byte) (rest : List Byte) : fieldAt (b :: rest) 0 1 = b.toNat := by
  simp [fieldAt, leNat]

theorem fieldAt_word16 (lo hi : Byte) (rest : List Byte) : fieldAt (lo :: hi :: rest) 0 2 = word16 lo hi := by
  simp [fieldAt, leNat, word16]

theorem fieldAt_word32 (b0 b1 b2 b3 : Byte) (rest : List Byte) :
    fieldAt (b0 :: b1 :: b2 :: b3 :: rest) 0 4 = word32 b0 b1 b2 b3 := by
  simp [fieldAt, leNat, word32]
  omega

theorem fieldAt_later (b : Byte) (rest : List Byte) (n size : Nat) : fieldAt (b :: rest) (n + 1) size = fieldAt rest n size := by
  rw [fieldAt, List.drop_succ_cons, fieldAt]

/-- The first byte of a payload, whatever its length. -/
theorem fieldAt_getD (b : List Byte) (n : Nat) : fieldAt b n 1 = (b[n]?.getD 0).toNat := by
  unfold fieldAt
  cases h : b[n]? with
  | none => simp [List.drop_eq_nil_of_le (List.getElem?_eq_none_iff.mp h), leNat]
  | some x =>
    obtain ⟨hn, rfl⟩ := List.getElem?_eq_some_iff.mp h
    rw [List.drop_eq_getElem_cons hn]
    simp only [List.take_succ_cons, List.take_zero, leNat, Nat.mul_zero, Nat.add_zero, Option.getD_some]

/-! ## Indices, flags and enumerations -/

theorem byte_small {n : Nat} (h : n < 256) : (byte n).toNat = n := by
  rw [byte_toNat, Nat.mod_eq_of_lt h]

theorem ix?_val {n : Nat} (i : Fin n) : ix? n i.val = some i := by
  simp only [ix?, i.isLt, dite_true]

theorem ix?_byte {n : Nat} (i : Fin n) (h : n ≤ 256 := by decide) : ix? n (byte i.val).toNat = some i := by
  rw [byte_small (Nat.lt_of_lt_of_le i.isLt h), ix?_val]

theorem ix?_none {n x : Nat} (h : n ≤ x) : ix? n x = none := by
  simp only [ix?, Nat.not_lt.mpr h, dite_false]

theorem flag?_byte (b : Bool) : flag? (flagByte b).toNat = some b := by cases b <;> decide

theorem flag?_none {x : Nat} (h : 2 ≤ x) : flag? x = none := by
  simp only [flag?, if_neg (show x ≠ 0 by omega), if_neg (show x ≠ 1 by omega)]

theorem channel?_byte (ch : Channel) : channel? (byte ch.code).toNat = some ch := by cases ch <;> decide

theorem channel?_none {x : Nat} (h : 3 ≤ x) : channel? x = none := by
  obtain ⟨n, rfl⟩ := Nat.exists_eq_add_of_le' h
  rfl

theorem laneSource?_byte (src : Option PortIx) : laneSource? (byte (laneSourceCode src)).toNat = some src := by
  cases src with
  | none => decide
  | some p => revert p; decide

theorem laneSource?_none {x : Nat} (h : 5 ≤ x) : laneSource? x = none := by
  simp only [laneSource?, if_neg (show x ≠ 4 by omega), ix?_none (show 4 ≤ x by omega), Option.map_none]

theorem clockSource?_byte (src : ClockSource) : clockSource? (byte src.code).toNat = some src := by cases src <;> decide

theorem clockSource?_none {x : Nat} (h : 2 ≤ x) : clockSource? x = none := by
  obtain ⟨n, rfl⟩ := Nat.exists_eq_add_of_le' h
  rfl

theorem beatSource?_byte (src : BeatSource) : beatSource? (byte src.code).toNat = some src := by
  cases src with
  | none => decide
  | lane l => revert l; decide
  | tap => decide

theorem beatSource?_none {x : Nat} (h : 6 ≤ x) : beatSource? x = none := by
  simp only [beatSource?, if_neg (show x ≠ 0 by omega), if_neg (show x ≠ 5 by omega), ix?_none (show 4 ≤ x - 1 by omega),
    Option.map_none]

/-! ## Clamping (R1, R180) -/

theorem clampNat_zero (hi x : Nat) : clampNat 0 hi x = min hi x := by
  rw [clampNat_eq (Nat.zero_le hi), within, Nat.zero_max]

theorem min_beq (hi x : Nat) : (min hi x == x) = decide (x ≤ hi) := by
  rw [Bool.eq_iff_iff, beq_iff_eq, decide_eq_true_iff]
  omega

theorem within_beq {lo hi : Nat} (h : lo ≤ hi) (x : Nat) : (within lo hi x == x) = decide (lo ≤ x ∧ x ≤ hi) := by
  rw [Bool.eq_iff_iff, beq_iff_eq, decide_eq_true_iff, within]
  omega

theorem clampStatus_not (p : Prop) [Decidable p] : clampStatus (!decide p) = clampedUnless p := by
  by_cases h : p <;> simp [clampStatus, clampedUnless, h]

end Sys2Proof.Machine
end

section
/-! Settings: the lanes, the grid, the follower, the mixer and the pedal map (R12, R36 to R38, R140 to R142, R157, R162,
R163), and STORE_WRITE (R190). -/

set_option Elab.async false

namespace Sys2Proof.Machine

variable {s : State} {m : Message} {rest : List Message}

/-- A refused command is answered with its status and no data. -/
theorem commandRow_refuses {kind : Nat} {b : List Byte} {st : Status} {cmd : List Byte → Engine → Engine × Answer}
    (h : s.Takes kind m b rest) (hr : cmd b s.eng = refuse st s.eng) (hk : kind < 32 := by decide) :
    commandRow kind cmd s = .next (s.refused m rest st) := by
  rw [commandRow_takes h hk, hr]
  rfl

/-- A command that answers is answered with its status and its data. -/
theorem commandRow_answers {kind : Nat} {b : List Byte} {st : Status} {data : List ReplyItem} {e : Engine}
    {cmd : List Byte → Engine → Engine × Answer} (h : s.Takes kind m b rest)
    (hr : cmd b s.eng = (e, { status := st, data := data })) (hk : kind < 32 := by decide) :
    commandRow kind cmd s = .next (s.answered m rest st data e) := by
  rw [commandRow_takes h hk, hr]

/-! ## LANE_SET and GRID_SET -/

theorem laneSet_sets (l : LaneIx) (src : Option PortIx) (ch : Channel) (inv : Bool) (t0 t1 : Byte) (e : Engine) :
    laneSet [byte l.val, byte (laneSourceCode src), byte ch.code, flagByte inv, t0, t1] e
      = ({ e with lanes := upd e.lanes l fun ln =>
            { ln with source := src, channel := ch, invert := inv, trim := min 16383 (word16 t0 t1) } },
         { status := clampedUnless (word16 t0 t1 ≤ 16383),
           data := [natField (laneSourceCode src), natField ch.code, flagField inv, natField (min 16383 (word16 t0 t1))] }) := by
  simp only [laneSet, List.length_cons, List.length_nil, fieldAt_later, fieldAt_byte, fieldAt_word16, ix?_byte l,
    laneSource?_byte, channel?_byte, flag?_byte, clampNat_zero, ne_eq, not_true_eq_false, if_false, Nat.reduceAdd]
  simp only [bne, min_beq, clampStatus_not, laneReply, modLane_lanes, Fin.getElem_fin, upd_self]
  rfl

theorem laneSet_outOfRange {l src ch inv : Byte} (t0 t1 : Byte)
    (h : 4 ≤ l.toNat ∨ 5 ≤ src.toNat ∨ 3 ≤ ch.toNat ∨ 2 ≤ inv.toNat) (e : Engine) :
    laneSet [l, src, ch, inv, t0, t1] e = refuse .outOfRange e := by
  simp only [laneSet, List.length_cons, List.length_nil, fieldAt_later, fieldAt_byte, ne_eq, not_true_eq_false, if_false,
    Nat.reduceAdd]
  obtain h | h | h | h := h
  · rw [ix?_none h]
  · rw [laneSource?_none h]
    cases ix? 4 l.toNat <;> rfl
  · rw [channel?_none h]
    cases ix? 4 l.toNat <;> cases laneSource? src.toNat <;> rfl
  · rw [flag?_none h]
    cases ix? 4 l.toNat <;> cases laneSource? src.toNat <;> cases channel? ch.toNat <;> rfl

theorem gridSet_sets (b : Byte) (e : Engine) :
    gridSet [b] e = ({ e with cyc := e.cyc.grid (within 1 32 b.toNat) },
      { status := clampedUnless (1 ≤ b.toNat ∧ b.toNat ≤ 32),
        data := [natField (e.cyc.grid (within 1 32 b.toNat)).beats,
          optField (e.cyc.grid (within 1 32 b.toNat)).pendingBeats] }) := by
  simp only [gridSet, List.length_cons, List.length_nil, fieldAt_byte, ne_eq, not_true_eq_false, if_false, Nat.reduceAdd]
  rw [clampNat_eq (by decide), bne, within_beq (by decide), clampStatus_not]

theorem grid_stopped {c : Cycle} (h : c.state = .unset ∨ c.state = .baseCapture) (b : Nat) :
    c.grid b = { c with beats := b, pendingBeats := none } := by
  obtain h | h := h <;> simp only [Cycle.grid, h]

theorem grid_started {c : Cycle} (h : c.state = .running ∨ c.state = .paused) (b : Nat) :
    c.grid b = { c with pendingBeats := if b = c.beats then none else some b } := by
  obtain h | h := h <;> simp only [Cycle.grid, h]

/-! ## LAYER_MIX, LIVE_MIX, MASTER_SET and FADE_SET -/

theorem layerMix_sets (l : LayerIx) (g0 g1 pan v0 v1 f0 f1 : Byte) (e : Engine) :
    layerMix [byte l.val, g0, g1, pan, v0, v1, f0, f1] e
      = ({ e with layers := upd e.layers l fun r =>
            { r with gain := min 8191 (word16 g0 g1), pan := min 128 pan.toNat, level := min 32768 (word16 v0 v1),
                     feedback := min 32768 (word16 f0 f1) } },
         { status := clampedUnless
             (word16 g0 g1 ≤ 8191 ∧ pan.toNat ≤ 128 ∧ word16 v0 v1 ≤ 32768 ∧ word16 f0 f1 ≤ 32768),
           data := [natField (min 8191 (word16 g0 g1)), natField (min 128 pan.toNat), natField (min 32768 (word16 v0 v1)),
             natField (min 32768 (word16 f0 f1))] }) := by
  simp only [layerMix, List.length_cons, List.length_nil, fieldAt_later, fieldAt_byte, fieldAt_word16, ix?_byte l,
    ne_eq, not_true_eq_false, if_false, Nat.reduceAdd]
  simp only [clampNat_zero, min_beq, ← Bool.decide_and, clampStatus_not, and_assoc, layerMixReply, modLayer_layers,
    Fin.getElem_fin, upd_self]
  rfl

theorem layerMix_outOfRange {b : List Byte} (hl : b.length = 8) (h : 16 ≤ (b[0]?.getD 0).toNat) (e : Engine) :
    layerMix b e = refuse .outOfRange e := by
  simp only [layerMix, hl, fieldAt_getD, ix?_none h, ne_eq, not_true_eq_false, if_false]

theorem liveMix_sets (l : LaneIx) (g0 g1 pan : Byte) (mute : Bool) (e : Engine) :
    liveMix [byte l.val, g0, g1, pan, flagByte mute] e
      = ({ e with mix := { e.mix with live := upd e.mix.live l fun v =>
            { v with gain := min 8191 (word16 g0 g1), pan := min 128 pan.toNat, mute := mute } } },
         { status := clampedUnless (word16 g0 g1 ≤ 8191 ∧ pan.toNat ≤ 128),
           data := [natField (min 8191 (word16 g0 g1)), natField (min 128 pan.toNat), flagField mute,
             natField e.mix.live[l].env] }) := by
  simp only [liveMix, List.length_cons, List.length_nil, fieldAt_later, fieldAt_byte, fieldAt_word16, ix?_byte l,
    flag?_byte, ne_eq, not_true_eq_false, if_false, Nat.reduceAdd]
  simp only [clampNat_zero, min_beq, ← Bool.decide_and, clampStatus_not, liveReply, modLive, Fin.getElem_fin,
    upd_self]

theorem liveMix_outOfRange {b : List Byte} (hl : b.length = 5)
    (h : 4 ≤ (b[0]?.getD 0).toNat ∨ 2 ≤ (b[4]?.getD 0).toNat) (e : Engine) : liveMix b e = refuse .outOfRange e := by
  simp only [liveMix, hl, fieldAt_getD, ne_eq, not_true_eq_false, if_false]
  obtain h | h := h
  · rw [ix?_none h]
  · rw [flag?_none h]
    cases ix? 4 (b[0]?.getD 0).toNat <;> rfl

theorem masterSet_sets (g0 g1 : Byte) (e : Engine) :
    masterSet [g0, g1] e
      = ({ e with mix := { e.mix with master := min 8191 (word16 g0 g1) } },
         { status := clampedUnless (word16 g0 g1 ≤ 8191), data := [natField (min 8191 (word16 g0 g1))] }) := by
  simp only [masterSet, List.length_cons, List.length_nil, fieldAt_word16, ne_eq, not_true_eq_false, if_false,
    Nat.reduceAdd, clampNat_zero, bne, min_beq, clampStatus_not]

theorem fadeSet_sets (f0 f1 x0 x1 : Byte) (e : Engine) :
    fadeSet [f0, f1, x0, x1] e
      = ({ e with mix := { e.mix with fade := within 32 4096 (word16 f0 f1), cross := within 32 256 (word16 x0 x1) } },
         { status := clampedUnless
             (32 ≤ word16 f0 f1 ∧ word16 f0 f1 ≤ 4096 ∧ 32 ≤ word16 x0 x1 ∧ word16 x0 x1 ≤ 256),
           data := [natField (within 32 4096 (word16 f0 f1)), natField (within 32 256 (word16 x0 x1)),
             natField ((4096 + within 32 4096 (word16 f0 f1) - 1) / within 32 4096 (word16 f0 f1))] }) := by
  simp only [fadeSet, List.length_cons, List.length_nil, fieldAt_later, fieldAt_word16, ne_eq, not_true_eq_false, if_false,
    Nat.reduceAdd]
  rw [clampNat_eq (by decide), clampNat_eq (by decide), within_beq (by decide), within_beq (by decide), ← Bool.decide_and,
    clampStatus_not]
  simp only [and_assoc, ceilDiv]

/-! ## FOLLOW_SET -/

/-- What runs on the follower leaves the record of an onset of the frame absent where it is absent. -/
theorem onFollower_gives {f : Engine → Engine} {e : Engine} (hf : (f e).heard = e.heard) :
    ∃ heard, (e.heard = none → heard = none) ∧ onFollower f e = { f e with heard := heard } := by
  cases hh : e.heard with
  | none =>
    refine ⟨none, fun _ => rfl, ?_⟩
    rw [onFollower_unheard hh, ← hh, ← hf]
  | some h =>
    obtain ⟨heard, he⟩ := onFollower_only f e
    exact ⟨heard, (nomatch ·), he⟩

theorem followSet_queries (e : Engine) :
    followSet [] e = (e, { status := .ok, data := followerReport e.fol }) := rfl

theorem followSet_outOfRange {b : List Byte} (hl : b.length = 18) (h : 6 ≤ (b.getD 0 0).toNat) (e : Engine) :
    followSet b e = refuse .outOfRange e := by
  rw [List.getD_eq_getElem?_getD] at h
  simp only [followSet, hl, fieldAt_getD, beatSource?_none h, ne_eq, not_true_eq_false, if_false, OfNat.ofNat_ne_zero]

/-- The values of the follower as a payload sets them. -/
theorem followParams_sets (c t0 t1 t2 t3 h0 h1 w0 w1 g sp d0 d1 x0 x1 j0 j1 cb : Byte) (f : Follower) :
    followParams [c, t0, t1, t2, t3, h0, h1, w0, w1, g, sp, d0, d1, x0, x1, j0, j1, cb] f
      = { f with
          threshold := min 8388607 (word32 t0 t1 t2 t3), holdOff := within 480 24000 (word16 h0 h1),
          window := min 4800 (word16 w0 w1), shift := within 1 6 g.toNat, span := within 1 8 sp.toNat,
          deltaMax := min 655 (word16 d0 d1), spliceThreshold := min 4800 (word16 x0 x1),
          jMax := min 960 (word16 j0 j1), coastBeats := within 1 64 cb.toNat } := by
  simp only [followParams, fieldAt_later, fieldAt_byte, fieldAt_word16, fieldAt_word32, clampNat_zero]
  rw [clampNat_eq (by decide), clampNat_eq (by decide), clampNat_eq (by decide), clampNat_eq (by decide)]

theorem followClamped_sets (c t0 t1 t2 t3 h0 h1 w0 w1 g sp d0 d1 x0 x1 j0 j1 cb : Byte) (f : Follower) :
    clampStatus (followClamped [c, t0, t1, t2, t3, h0, h1, w0, w1, g, sp, d0, d1, x0, x1, j0, j1, cb]
        (followParams [c, t0, t1, t2, t3, h0, h1, w0, w1, g, sp, d0, d1, x0, x1, j0, j1, cb] f))
      = clampedUnless (word32 t0 t1 t2 t3 ≤ 8388607 ∧ 480 ≤ word16 h0 h1 ∧ word16 h0 h1 ≤ 24000 ∧ word16 w0 w1 ≤ 4800
        ∧ 1 ≤ g.toNat ∧ g.toNat ≤ 6 ∧ 1 ≤ sp.toNat ∧ sp.toNat ≤ 8 ∧ word16 d0 d1 ≤ 655
        ∧ word16 x0 x1 ≤ 4800 ∧ word16 j0 j1 ≤ 960 ∧ 1 ≤ cb.toNat ∧ cb.toNat ≤ 64) := by
  rw [followParams_sets]
  simp only [followClamped, fieldAt_later, fieldAt_byte, fieldAt_word16, fieldAt_word32, min_beq]
  rw [within_beq (by decide), within_beq (by decide), within_beq (by decide), within_beq (by decide)]
  simp only [← Bool.decide_and, clampStatus_not, and_assoc]

/-- The follower's values and its source are set (R36). -/
def setsFollower (src : BeatSource) (f : Follower) (e : Engine) : Engine :=
  recomputeTrim (lowerHoldOff (changeSource src { e with fol := f }))

theorem setsFollower_kept {src : BeatSource} {f : Follower} (h : src = f.source) (e : Engine) :
    setsFollower src f e = { e with fol := { f with
      holdCount := min f.holdCount f.holdOff,
      delta := if f.state = .tracking
        then max (-(f.deltaMax : Int)) (min f.deltaMax (-(Int.tdiv f.err (f.span * e.cyc.beatLength)))) else f.delta } } := by
  have hclamp : trimOf f e.cyc.beatLength
      = max (-(f.deltaMax : Int)) (min f.deltaMax (-(Int.tdiv f.err (f.span * e.cyc.beatLength)))) := by
    unfold trimOf towardZeroDiv
    rw [clampInt_eq (by omega)]
    norm_cast
  simp only [setsFollower, changeSource, if_pos h, recomputeTrim, lowerHoldOff, trimWith]
  split
  · exact congrArg (fun d => ({ e with fol := { f with holdCount := min f.holdCount f.holdOff, delta := d } } : Engine)) hclamp
  · rfl

/-- A follower at rest that is not in TRACKING has no hold-off to lower and no trim to compute. -/
theorem recomputeTrim_rest {e : Engine} (hs : e.fol.state ≠ .tracking) (hc : e.fol.holdCount = 0) :
    recomputeTrim (lowerHoldOff e) = e := by
  have hlower : lowerHoldOff e = e := by
    simp only [lowerHoldOff, hc, Nat.zero_min]
    rw [← hc]
  rw [hlower, recomputeTrim, trimWith, if_neg hs]

theorem setFollowState_fol (st : FollowState) (c : FollowCause) (e : Engine) : (setFollowState st c e).fol
    = { e.fol with state := st, err := 0, delta := 0, beatCount := 0, coastDue := false } := by
  unfold setFollowState
  dsimp only
  split <;> rfl

/-- A follower whose source changes: at rest, OFF or WAITING (R38). -/
def Follower.resourced (src : BeatSource) (st : FollowState) (f : Follower) : Follower :=
  { f with source := src, armed := true, arming := false, holdCount := 0, state := st, err := 0, delta := 0,
           beatCount := 0, coastDue := false }

theorem setsFollower_changed {src : BeatSource} {f : Follower} {st : FollowState} (h : src ≠ f.source)
    (hst : st = if f.held = true ∨ src = .none then FollowState.off else .waiting) (e : Engine) :
    setsFollower src f e = if f.state = st then { e with fol := f.resourced src st }
      else ({ e with fol := f.resourced src st } : Engine).reports (.followState st .source) := by
  subst hst
  rw [setsFollower, changeSource, if_neg h, recomputeTrim_rest]
  · rfl
  · rw [setFollowState_fol]
    dsimp only
    split <;> decide
  · rw [setFollowState_fol]
    rfl

theorem setsFollower_heard (src : BeatSource) (f : Follower) (e : Engine) : (setsFollower src f e).heard = e.heard := by
  by_cases h : src = f.source
  · rw [setsFollower_kept h]
  · obtain ⟨st, hst⟩ : ∃ st, st = if f.held = true ∨ src = .none then FollowState.off else .waiting := ⟨_, rfl⟩
    rw [setsFollower_changed h hst]
    split <;> rfl

/-- FOLLOW_SET with all arguments answers the follower as it stands then. -/
theorem followSet_sets (src : BeatSource) (t0 t1 t2 t3 h0 h1 w0 w1 g sp d0 d1 x0 x1 j0 j1 cb : Byte) (e : Engine) :
    followSet [byte src.code, t0, t1, t2, t3, h0, h1, w0, w1, g, sp, d0, d1, x0, x1, j0, j1, cb] e
      = (setFollower [byte src.code, t0, t1, t2, t3, h0, h1, w0, w1, g, sp, d0, d1, x0, x1, j0, j1, cb] src e,
        { status := clampStatus (followClamped [byte src.code, t0, t1, t2, t3, h0, h1, w0, w1, g, sp, d0, d1, x0, x1, j0, j1, cb]
            (followParams [byte src.code, t0, t1, t2, t3, h0, h1, w0, w1, g, sp, d0, d1, x0, x1, j0, j1, cb] e.fol)),
          data := followerReport (setFollower
            [byte src.code, t0, t1, t2, t3, h0, h1, w0, w1, g, sp, d0, d1, x0, x1, j0, j1, cb] src e).fol }) := by
  unfold followSet
  rw [if_neg (by simp), if_neg (by simp), fieldAt_byte, beatSource?_byte]

/-! ## PEDAL_MAP and PEDAL_UNMAP -/

theorem pedalTarget?_code (t : PedalTarget) (a : Byte) (h : ∀ n, t.argument = some n → a = byte n) :
    pedalTarget? (byte t.code).toNat a.toNat = some t := by
  cases t with
  | masterGain => rfl
  | layerGain l => rw [h l.val rfl]; exact congrArg (Option.map _) (ix?_byte l)
  | layerPan l => rw [h l.val rfl]; exact congrArg (Option.map _) (ix?_byte l)
  | overdubLevel l => rw [h l.val rfl]; exact congrArg (Option.map _) (ix?_byte l)
  | overdubFeedback l => rw [h l.val rfl]; exact congrArg (Option.map _) (ix?_byte l)
  | liveGain l => rw [h l.val rfl]; exact congrArg (Option.map _) (ix?_byte l)
  | livePan l => rw [h l.val rfl]; exact congrArg (Option.map _) (ix?_byte l)

/-- A kind or an argument that no target has. -/
theorem pedalTarget?_none {k a : Nat} (h : 7 ≤ k ∨ (k ∈ [0, 1, 5, 6] ∧ 16 ≤ a) ∨ (k ∈ [2, 3] ∧ 4 ≤ a)) :
    pedalTarget? k a = none := by
  obtain h | ⟨hk, ha⟩ | ⟨hk, ha⟩ := h
  · obtain ⟨n, rfl⟩ := Nat.exists_eq_add_of_le' h
    rfl
  · simp only [List.mem_cons, List.not_mem_nil, or_false] at hk
    obtain rfl | rfl | rfl | rfl := hk <;> simp only [pedalTarget?, ix?_none ha, Option.map_none]
  · simp only [List.mem_cons, List.not_mem_nil, or_false] at hk
    obtain rfl | rfl := hk <;> simp only [pedalTarget?, ix?_none ha, Option.map_none]

theorem pedalMap_outOfRange {i ch kind a : Byte} (l0 l1 h0 h1 d : Byte)
    (h : 8 ≤ i.toNat ∨ 4 ≤ ch.toNat ∨ 7 ≤ kind.toNat ∨ (kind.toNat ∈ [0, 1, 5, 6] ∧ 16 ≤ a.toNat)
      ∨ (kind.toNat ∈ [2, 3] ∧ 4 ≤ a.toNat)) (e : Engine) :
    pedalMap [i, ch, kind, a, l0, l1, h0, h1, d] e = refuse .outOfRange e := by
  simp only [pedalMap, List.length_cons, List.length_nil, fieldAt_later, fieldAt_byte, ne_eq, not_true_eq_false, if_false,
    Nat.reduceAdd, OfNat.ofNat_ne_zero]
  obtain h | h | h := h
  · rw [ix?_none h]
  · rw [ix?_none h]
    cases ix? 8 i.toNat <;> rfl
  · rw [pedalTarget?_none h]
    cases ix? 8 i.toNat <;> cases ix? 4 ch.toNat <;> rfl

theorem targetTaken_iff {e : Engine} {i : MapIx} {t : PedalTarget} :
    targetTaken e i t = true ↔ ∃ j, j ≠ i ∧ ∃ other, e.ped.map[j] = some other ∧ other.target = t := by
  simp only [targetTaken, List.any_eq_true, Bool.and_eq_true, bne_iff_ne]
  constructor
  · rintro ⟨j, _, hj, ht⟩
    refine ⟨j, hj, ?_⟩
    split at ht
    next other ho => exact ⟨other, ho, beq_iff_eq.mp ht⟩
    · cases ht
  · rintro ⟨j, hj, other, ho, ht⟩
    refine ⟨j, mem_mapIxs j, hj, ?_⟩
    rw [ho]
    exact beq_iff_eq.mpr ht

/-- A mapping as a payload asks for it. -/
def askedMapping (ch : PedalIx) (t : PedalTarget) (low high band : Nat) : Mapping :=
  { channel := ch, target := t, low := min t.top low, high := min t.top high, deadband := min 31 band, applied := none }

theorem pedalMap_sets (i : MapIx) (ch : PedalIx) (t : PedalTarget) {a : Byte} (l0 l1 h0 h1 d : Byte)
    (ha : ∀ n, t.argument = some n → a = byte n) (e : Engine) :
    pedalMap [byte i.val, byte ch.val, byte t.code, a, l0, l1, h0, h1, d] e
      = if targetTaken e i t then refuse .conflict e
        else (modMap i (fun _ => some (askedMapping ch t (word16 l0 l1) (word16 h0 h1) d.toNat)) e,
          { status := clampedUnless (word16 l0 l1 ≤ t.top ∧ word16 h0 h1 ≤ t.top ∧ d.toNat ≤ 31),
            data := mappingFields (askedMapping ch t (word16 l0 l1) (word16 h0 h1) d.toNat)
              ++ [natField e.ped.chan[ch].raw, natField e.ped.chan[ch].smooth] }) := by
  simp only [pedalMap, List.length_cons, List.length_nil, fieldAt_later, fieldAt_byte, fieldAt_word16, ix?_byte i, ix?_byte ch,
    pedalTarget?_code t a ha, ne_eq, not_true_eq_false, if_false, Nat.reduceAdd, OfNat.ofNat_ne_zero, clampNat_zero, min_beq,
    ← Bool.decide_and, clampStatus_not, and_assoc]
  rfl

theorem pedalUnmap_unmaps (i : MapIx) {mp : Mapping} {e : Engine} (h : e.ped.map[i] = some mp) :
    pedalUnmap [byte i.val] e = (modMap i (fun _ => none) e, { status := .ok, data := mappingFields mp }) := by
  simp only [pedalUnmap, List.length_cons, List.length_nil, fieldAt_byte, ix?_byte i, h, ne_eq, not_true_eq_false, if_false,
    Nat.reduceAdd]

theorem pedalUnmap_notFound (i : MapIx) {e : Engine} (h : e.ped.map[i] = none) :
    pedalUnmap [byte i.val] e = refuse .notFound e := by
  simp only [pedalUnmap, List.length_cons, List.length_nil, fieldAt_byte, ix?_byte i, h, ne_eq, not_true_eq_false, if_false,
    Nat.reduceAdd]

theorem pedalUnmap_outOfRange {i : Byte} (h : 8 ≤ i.toNat) (e : Engine) : pedalUnmap [i] e = refuse .outOfRange e := by
  simp only [pedalUnmap, List.length_cons, List.length_nil, fieldAt_byte, ix?_none h, ne_eq, not_true_eq_false, if_false,
    Nat.reduceAdd]

/-! ## STORE_WRITE -/

theorem storeWriteWith_refuses {o0 o1 : Byte} {data : List Byte} {st : Status} (h : s.Takes 27 m (o0 :: o1 :: data) rest)
    (hr : storeWrite m.tag (o0 :: o1 :: data) s.store = (s.store, some { status := st, data := [] })) :
    exec .storeWrite s = .next (s.refused m rest st) := by
  rw [show exec .storeWrite s = _ from stateRow_takes h _]
  simp only [storeWriteWith, h.whole, h.payload, hr, Bool.false_eq_true, if_false]
  exact congrArg _ (reply_answered (s := s) (rest := rest) (by rw [h.kind]; decide) { status := st, data := [] } s.eng)

theorem storeWriteWith_starts {o0 o1 : Byte} {data : List Byte} {st : Store} (h : s.Takes 27 m (o0 :: o1 :: data) rest)
    (hr : storeWrite m.tag (o0 :: o1 :: data) s.store = (st, none)) :
    exec .storeWrite s = .next (s.started rest s.eng st) := by
  rw [show exec .storeWrite s = _ from stateRow_takes h _]
  simp only [storeWriteWith, h.whole, h.payload, hr, Bool.false_eq_true, if_false]
  rfl

/-- STORE_WRITE of whole words: where it is refused, and what it puts in flight (R190). -/
theorem storeWrite_words (tag o0 o1 : Byte) {data : List Byte} (h4 : 4 ≤ data.length) (h64 : data.length ≤ 64)
    (hm : data.length % 4 = 0) (st : Store) :
    storeWrite tag (o0 :: o1 :: data) st
      = if word16 o0 o1 % 4 ≠ 0 ∨ 4096 < word16 o0 o1 + data.length then (st, some { status := .outOfRange, data := [] })
        else if word16 o0 o1 < 512 then (st, some { status := .prot, data := [] })
        else if st.job.isSome = true then (st, some { status := .busy, data := [] })
        else ({ st with job := some { offset := word16 o0 o1, data := data, done := 0, tag := tag } }, none) := by
  have hlen : ¬((o0 :: o1 :: data).length < 6 ∨ 66 < (o0 :: o1 :: data).length ∨ data.length % 4 ≠ 0) := by
    simp only [List.length_cons]
    omega
  simp only [storeWrite, List.drop_succ_cons, List.drop_zero, if_neg hlen, fieldAt_word16]
  rfl

end Sys2Proof.Machine

namespace Sys2Proof.Settled

open Sys2Proof.Machine

/-- Settles O20. -/
theorem laneSet : Obligations.LaneSet := fun s m rest =>
  ⟨fun l src ch inv t0 t1 h => by
    rw [show exec .laneSet s = _ from commandRow_answers h (laneSet_sets l src ch inv t0 t1 s.eng)]
    dsimp only
    rw [upd_congr]
    rfl,
   fun _ _ _ _ t0 t1 h hout => commandRow_refuses h (laneSet_outOfRange t0 t1 hout s.eng)⟩

/-- Settles O23. -/
theorem gridSet : Obligations.GridSet := by
  intro s m rest b h n status
  rw [show exec .gridSet s = _ from commandRow_answers h (gridSet_sets b s.eng)]
  refine ⟨fun hst => ?_, fun hst hn => ?_, fun hst hn => ?_⟩
  · rw [grid_stopped hst]
    rfl
  · rw [grid_started hst, if_pos hn]
    rfl
  · rw [grid_started hst, if_neg hn]
    rfl

/-- Settles O24: the follower's values are written, then its source, its hold-off count and its trim. -/
theorem followSet : Obligations.FollowSet := by
  intro s m rest report
  have hreport : ∀ f, report f = followerReport f := fun f => by
    dsimp only [report, followerReport]
    cases f.lastOnset with
    | none => rfl
    | some r =>
      obtain ⟨_, kind, accepted⟩ := r
      cases kind <;> cases accepted <;> rfl
  refine ⟨fun h => ?_, fun b h hl hout => commandRow_refuses h (followSet_outOfRange hl hout s.eng), ?_⟩
  · rw [hreport]
    exact commandRow_answers h (followSet_queries s.eng)
  · intro src t0 t1 t2 t3 h0 h1 w0 w1 g sp d0 d1 x0 x1 j0 j1 cb h thr inRange f
    have hf := followParams_sets (byte src.code) t0 t1 t2 t3 h0 h1 w0 w1 g sp d0 d1 x0 x1 j0 j1 cb s.eng.fol
    have hexec : exec .followSet s = _ := commandRow_answers h
      (followSet_sets src t0 t1 t2 t3 h0 h1 w0 w1 g sp d0 d1 x0 x1 j0 j1 cb s.eng)
    rw [followClamped_sets] at hexec
    obtain ⟨heard, hnone, hgives⟩ := onFollower_gives (e := s.eng) (f := fun e => setsFollower src
      (followParams [byte src.code, t0, t1, t2, t3, h0, h1, w0, w1, g, sp, d0, d1, x0, x1, j0, j1, cb] e.fol) e)
      (setsFollower_heard src _ s.eng)
    dsimp only at hgives
    rw [hf] at hgives
    change setFollower _ src s.eng = { setsFollower src f s.eng with heard := heard } at hgives
    rw [hgives] at hexec
    rw [hexec]
    refine ⟨fun hs => ?_, fun hs => ?_⟩
    · rw [setsFollower_kept (f := f) hs]
      intro q delta f1
      rw [hreport]
      exact ⟨heard, hnone, rfl⟩
    · intro st f1 e1
      rw [setsFollower_changed (f := f) (st := st) hs rfl, hreport]
      have hstate : f.state = s.eng.fol.state := rfl
      by_cases hst : s.eng.fol.state = st
      · simp only [hstate, if_pos hst]
        exact ⟨heard, hnone, rfl⟩
      · simp only [hstate, if_neg hst]
        exact ⟨heard, hnone, rfl⟩

/-- Settles O25. -/
theorem mixSettings : Obligations.MixSettings := fun s m rest =>
  ⟨fun l g0 g1 pan v0 v1 f0 f1 h => commandRow_answers h (layerMix_sets l g0 g1 pan v0 v1 f0 f1 s.eng),
   fun l g0 g1 pan mute h => commandRow_answers h (liveMix_sets l g0 g1 pan mute s.eng),
   fun g0 g1 h => commandRow_answers h (masterSet_sets g0 g1 s.eng),
   fun f0 f1 x0 x1 h => commandRow_answers h (fadeSet_sets f0 f1 x0 x1 s.eng),
   fun _ h hl hout => commandRow_refuses h (layerMix_outOfRange hl hout s.eng),
   fun _ h hl hout => commandRow_refuses h (liveMix_outOfRange hl hout s.eng)⟩

/-- Settles O26. -/
theorem pedalMap : Obligations.PedalMap := by
  intro s m rest
  refine ⟨fun h => commandRow_answers h rfl,
    fun i ch kind a l0 l1 h0 h1 d h hout => commandRow_refuses h (pedalMap_outOfRange l0 l1 h0 h1 d hout s.eng),
    fun i ch t a l0 l1 h0 h1 d h ha => ?maps,
    fun i h => ⟨fun mp hmp => commandRow_answers h (pedalUnmap_unmaps i hmp),
      fun hnone => commandRow_refuses h (pedalUnmap_notFound i hnone)⟩,
    fun i h hout => commandRow_refuses h (pedalUnmap_outOfRange hout s.eng)⟩
  case maps =>
    have hsets := pedalMap_sets i ch t l0 l1 h0 h1 d ha s.eng
    refine ⟨fun htaken => ?_, fun hfree => ?_⟩
    · rw [if_pos (targetTaken_iff.mpr htaken)] at hsets
      exact commandRow_refuses h hsets
    · rw [if_neg fun ht => by
        obtain ⟨j, hj, other, ho, htarget⟩ := targetTaken_iff.mp ht
        exact hfree j hj other ho htarget] at hsets
      exact commandRow_answers h hsets

/-- Settles O36. -/
theorem storeWrite : Obligations.StoreWrite := by
  intro s m rest o0 o1 data h h4 h64 hm off
  have hw := storeWrite_words m.tag o0 o1 h4 h64 hm s.store
  refine ⟨fun hout => storeWriteWith_refuses h ?_, fun ha hb hc => storeWriteWith_refuses h ?_,
    fun ha hb hc hj => storeWriteWith_refuses h ?_, fun ha hb hc hj => storeWriteWith_starts h ?_⟩
  · rw [hw, if_pos hout]
  · rw [hw, if_neg (by omega), if_pos hc]
  · rw [hw, if_neg (by omega), if_neg (by omega), if_pos hj]
  · rw [hw, if_neg (by omega), if_neg (by omega), if_neg (by rw [hj]; decide)]

end Sys2Proof.Settled
end

section
/-! The queries (R18, R60, R125, R158), the layer transfer (R167, R171, R174) and the reads of the store (R188, R189). -/

set_option Elab.async false

namespace Sys2Proof.Machine

variable {s : State} {m : Message} {rest : List Message}

/-! ## Queries -/

theorem layerQuery_of (l : LayerIx) (e : Engine) :
    layerQuery [byte l.val] e = (e, { status := .ok, data := layerRecord e l }) := by
  simp only [layerQuery, List.length_cons, List.length_nil, fieldAt_byte, ix?_byte l, ne_eq, not_true_eq_false, if_false,
    Nat.reduceAdd]

theorem layerQuery_outOfRange {l : Byte} (h : 16 ≤ l.toNat) (e : Engine) : layerQuery [l] e = refuse .outOfRange e := by
  simp only [layerQuery, List.length_cons, List.length_nil, fieldAt_byte, ix?_none h, ne_eq, not_true_eq_false, if_false,
    Nat.reduceAdd]

/-- LANE_QUERY with the fields of the lane's source port. -/
theorem laneQuery_of (l : LaneIx) {port : List ReplyItem} {e : Engine}
    (hsome : ∀ p, e.lanes[l].source = some p → port = portFields e.ports[p]) (hnone : e.lanes[l].source = none → port = []) :
    laneQuery [byte l.val] e
      = ({ e with lanes := upd e.lanes l fun ln => { ln with peak := 0, peakBefore := 0 } },
         { status := .ok, data := laneReply e.lanes[l] ++ [natField e.lanes[l].peak] ++ port ++ clockReply e.clk }) := by
  simp only [laneQuery, List.length_cons, List.length_nil, fieldAt_byte, ix?_byte l, ne_eq, not_true_eq_false, if_false,
    Nat.reduceAdd]
  cases hs : e.lanes[l].source with
  | none => rw [hnone hs]; rfl
  | some p => rw [hsome p hs]; rfl

theorem laneQuery_outOfRange {l : Byte} (h : 4 ≤ l.toNat) (e : Engine) : laneQuery [l] e = refuse .outOfRange e := by
  simp only [laneQuery, List.length_cons, List.length_nil, fieldAt_byte, ix?_none h, ne_eq, not_true_eq_false, if_false,
    Nat.reduceAdd]

/-- A count that is not below 0, rounded to nearest. -/
theorem roundDiv_nat (n d : Nat) : roundDiv n d = ((2 * n + d) / (2 * d) : Nat) := by
  simp [roundDiv, Int.not_lt.mpr (Int.natCast_nonneg n)]

theorem jobFields_eq (e : Engine) (running : Bool) (j : Job) :
    jobFields e running j
      = [natField j.layer.val, natField j.kind.code, flagField running,
         natField (match j.kind, e.layers[j.layer].written with
           | .finishCopy, some (_, w) => w
           | .finishCopy, none => 0
           | .zeroFill, _ => j.done)] := by
  unfold jobFields
  cases j.kind with
  | finishCopy => cases e.layers[j.layer].written <;> rfl
  | zeroFill => rfl

theorem totalPages_eq (which : Layer → Option (List Nat)) (e : Engine) :
    totalPages which e = ∑ l : LayerIx, ((which e.layers[l]).getD []).length := by
  rw [totalPages, ← List.sum_ofFn, List.ofFn_eq_map]
  rfl

/-! ## Transfers -/

theorem startWith_refuses {kind : Nat} {b : List Byte} {st : Status}
    {cmd : Byte → List Byte → Engine → Engine × Option Answer} (h : s.Takes kind m b rest)
    (hr : cmd m.tag b s.eng = (s.eng, some { status := st, data := [] })) (hk : kind < 32 := by decide) :
    stateRow (State.take (isKind kind) (startWith cmd)) s = .next (s.refused m rest st) := by
  rw [startWith_takes h hk, hr]
  rfl

theorem startWith_starts {kind : Nat} {b : List Byte} {e : Engine}
    {cmd : Byte → List Byte → Engine → Engine × Option Answer} (h : s.Takes kind m b rest)
    (hr : cmd m.tag b s.eng = (e, none)) (hk : kind < 32 := by decide) :
    stateRow (State.take (isKind kind) (startWith cmd)) s = .next (s.started rest e s.store) := by
  rw [startWith_takes h hk, hr]

theorem audioRead_noLayer (tag : Byte) {b : List Byte} (h : 16 ≤ (b.getD 0 0).toNat) (hl : b.length = 7) (e : Engine) :
    audioRead tag b e = (e, some { status := .outOfRange, data := [] }) := by
  rw [List.getD_eq_getElem?_getD] at h
  simp only [audioRead, hl, fieldAt_getD, ix?_none h, ne_eq, not_true_eq_false, if_false]

theorem audioWrite_noLayer (tag : Byte) {b : List Byte} (h : 16 ≤ (b.getD 0 0).toNat) (h8 : 8 ≤ b.length)
    (hl : b.length ≤ 1019) (hm : (b.length - 5) % 3 = 0) (e : Engine) :
    audioWrite tag b e = (e, some { status := .outOfRange, data := [] }) := by
  rw [List.getD_eq_getElem?_getD] at h
  simp only [audioWrite, fieldAt_getD, ix?_none h, if_neg (show ¬(b.length < 8 ∨ 1019 < b.length ∨ (b.length - 5) % 3 ≠ 0) by
    omega)]

theorem audioRead_of (tag : Byte) (l : LayerIx) (f0 f1 f2 f3 c0 c1 : Byte) (e : Engine) :
    audioRead tag [byte l.val, f0, f1, f2, f3, c0, c1] e
      = if word16 c0 c1 = 0 ∨ 340 < word16 c0 c1 then (e, some { status := .outOfRange, data := [] })
        else startTransfer { write := false, layer := l, first := word32 f0 f1 f2 f3, count := word16 c0 c1, moved := 0,
                             tag := tag, data := [], release := false } e := by
  simp only [audioRead, List.length_cons, List.length_nil, fieldAt_later, fieldAt_byte, fieldAt_word16, fieldAt_word32,
    ix?_byte l, ne_eq, not_true_eq_false, if_false, Nat.reduceAdd]

/-- Samples are read back from their bytes. -/
theorem samplesOf_sampleBytes : ∀ xs : List Sample, samplesOf (sampleBytes xs) = xs
  | [] => rfl
  | x :: xs => by
    have hx : BitVec.ofNat 24 (leNat [byte x.toNat, byte (x.toNat / 256), byte (x.toNat / 256 / 256)]) = x := by
      apply BitVec.eq_of_toNat_eq
      have hlt := x.isLt
      simp only [leNat, byte_toNat, BitVec.toNat_ofNat]
      omega
    have hcons : sampleBytes (x :: xs)
        = byte x.toNat :: byte (x.toNat / 256) :: byte (x.toNat / 256 / 256) :: sampleBytes xs := rfl
    rw [hcons, samplesOf, hx, samplesOf_sampleBytes xs]

theorem sampleBytes_length (xs : List Sample) : (sampleBytes xs).length = 3 * xs.length := by
  induction xs with
  | nil => rfl
  | cons x xs ih =>
    have hcons : (sampleBytes (x :: xs)).length = 3 + (sampleBytes xs).length := by
      simp only [sampleBytes, List.flatMap_cons, List.length_append, leBytes_length]
    rw [hcons, ih, List.length_cons]
    omega

theorem audioWrite_of (tag : Byte) (l : LayerIx) (f0 f1 f2 f3 : Byte) {xs : List Sample} (h1 : 1 ≤ xs.length)
    (h338 : xs.length ≤ 338) (e : Engine) :
    audioWrite tag ([byte l.val, f0, f1, f2, f3] ++ sampleBytes xs) e
      = startTransfer { write := true, layer := l, first := word32 f0 f1 f2 f3, count := xs.length, moved := 0, tag := tag,
                        data := xs, release := false } e := by
  have hlen : ([byte l.val, f0, f1, f2, f3] ++ sampleBytes xs).length = 5 + 3 * xs.length := by
    rw [List.length_append, sampleBytes_length]
    rfl
  have hdrop : ([byte l.val, f0, f1, f2, f3] ++ sampleBytes xs).drop 5 = sampleBytes xs := rfl
  rw [audioWrite, hlen, hdrop, samplesOf_sampleBytes, if_neg (by omega)]
  simp only [List.cons_append, fieldAt_later, fieldAt_byte, fieldAt_word32, ix?_byte l]

/-- Where a transfer is refused, and that it is else in flight (R171). -/
theorem startTransfer_cases (t : Transfer) (e : Engine) :
    (e.layers[t.layer].hold ≠ .held → startTransfer t e = (e, some { status := .notHeld, data := [] }))
    ∧ (e.layers[t.layer].hold = .held → layerLen e t.layer < t.first + t.count →
      startTransfer t e = (e, some { status := .outOfRange, data := [] }))
    ∧ (e.layers[t.layer].hold = .held → t.first + t.count ≤ layerLen e t.layer → e.xfer.isSome = true →
      startTransfer t e = (e, some { status := .busy, data := [] }))
    ∧ (e.layers[t.layer].hold = .held → t.first + t.count ≤ layerLen e t.layer → e.xfer = none →
      startTransfer t e = ({ e with xfer := some t }, none)) := by
  unfold startTransfer
  refine ⟨fun h => if_pos h, fun h hl => ?_, fun h hl hx => ?_, fun h hl hx => ?_⟩
  · rw [if_neg (not_not.mpr h), if_pos hl]
  · rw [if_neg (not_not.mpr h), if_neg (Nat.not_lt.mpr hl), if_pos hx]
  · rw [if_neg (not_not.mpr h), if_neg (Nat.not_lt.mpr hl), if_neg (by rw [hx]; decide)]

/-! ## Reads of the store -/

theorem storeBytes_eq (cells : List Host.Cell) : ∀ n a : Nat,
    storeBytes cells n a = (List.range n).map fun i => cellRead cells (a + i)
  | 0, _ => rfl
  | n + 1, a => by
    rw [List.range_succ_eq_map, storeBytes, storeBytes_eq cells n (a + 1)]
    simp [storeByte, Function.comp_def, Nat.add_comm, Nat.add_left_comm]

theorem storeReadWith_answers {b : List Byte} (h : s.Takes 26 m b rest) :
    exec .storeRead s = .next (s.answered m rest (storeRead b s.store).status (storeRead b s.store).data s.eng) := by
  rw [show exec .storeRead s = _ from stateRow_takes h _]
  simp only [storeReadWith, h.whole, h.payload, Bool.false_eq_true, if_false]
  exact congrArg _ (reply_answered (s := s) (rest := rest) (by rw [h.kind]; decide) (storeRead b s.store) s.eng)

theorem storeRead_of (o0 o1 c0 c1 : Byte) (st : Store) :
    storeRead [o0, o1, c0, c1] st
      = if word16 c0 c1 = 0 ∨ 256 < word16 c0 c1 ∨ 4096 < word16 o0 o1 + word16 c0 c1 then { status := .outOfRange, data := [] }
        else if st.job.isSome then { status := .busy, data := [] }
        else { status := .ok, data := [.raw (storeBytes st.cells (word16 c0 c1) (word16 o0 o1))] } := by
  simp only [storeRead, List.length_cons, List.length_nil, fieldAt_later, fieldAt_word16, ne_eq, not_true_eq_false, if_false,
    Nat.reduceAdd, Config.storeSize]

theorem identWith_answers (h : s.Takes 25 m [] rest) :
    exec .ident s = .next (s.answered m rest .ok (identData s.store.cells s.eng.clk.rate) s.eng) := by
  rw [show exec .ident s = _ from stateRow_takes h _]
  simp only [identWith, h.whole, h.payload, Bool.false_eq_true, List.length_nil, ne_eq, not_true_eq_false, or_self, if_false]
  exact congrArg _ (reply_answered (s := s) (rest := rest) (by rw [h.kind]; decide)
    { status := .ok, data := identData s.store.cells s.eng.clk.rate } s.eng)

end Sys2Proof.Machine

namespace Sys2Proof.Settled

open Sys2Proof.Machine

/-- Settles O32. -/
theorem audioTransfers : Obligations.AudioTransfers := by
  refine ⟨fun s m rest b hb => ⟨fun h hl => startWith_refuses h (audioRead_noLayer m.tag hb hl s.eng),
    fun h h8 hl hm => startWith_refuses h (audioWrite_noLayer m.tag hb h8 hl hm s.eng)⟩, ?_⟩
  intro s m rest l f0 f1 f2 f3 e first len start checks
  refine ⟨fun c0 c1 h => ?_, fun xs h1 h338 h => ?_⟩
  · have hread := audioRead_of m.tag l f0 f1 f2 f3 c0 c1 s.eng
    refine ⟨fun hc => startWith_refuses h (hread.trans (if_pos hc)), fun h1 h340 => ?_, fun h1 h340 hh hl hx => ?_⟩
    · rw [if_neg (by omega)] at hread
      obtain ⟨hheld, hrange, hbusy, _⟩ := startTransfer_cases _ s.eng
      exact ⟨fun hh => startWith_refuses h (hread.trans (hheld hh)),
        fun hh hl => startWith_refuses h (hread.trans (hrange hh hl)),
        fun hh hl hx => startWith_refuses h (hread.trans (hbusy hh hl hx))⟩
    · rw [if_neg (by omega)] at hread
      exact startWith_starts h (hread.trans ((startTransfer_cases _ s.eng).2.2.2 hh hl hx))
  · have hwrite := audioWrite_of m.tag l f0 f1 f2 f3 h1 h338 s.eng
    obtain ⟨hheld, hrange, hbusy, hstart⟩ := startTransfer_cases _ s.eng
    exact ⟨⟨fun hh => startWith_refuses h (hwrite.trans (hheld hh)),
        fun hh hl => startWith_refuses h (hwrite.trans (hrange hh hl)),
        fun hh hl hx => startWith_refuses h (hwrite.trans (hbusy hh hl hx))⟩,
      fun hh hl hx => startWith_starts h (hwrite.trans (hstart hh hl hx))⟩

/-- Settles O33. -/
theorem layerAndCycleQuery : Obligations.LayerAndCycleQuery := by
  intro s m rest
  refine ⟨fun l h => ?layer, fun l h hl => commandRow_refuses h (layerQuery_outOfRange hl s.eng),
    fun c h hst hc hb hpos => ?running, fun n h hc hn => ?absent⟩
  case layer =>
    intro r v n c chain target cue
    rw [show exec .layerQuery s = _ from commandRow_answers h (layerQuery_of l s.eng)]
    refine congrArg (fun data => Host.Outcome.next (s.answered m rest .ok data s.eng)) ?_
    have hcue : cueFields (cueFor (.layer l) s.eng) = cue := by
      unfold cue cueFields cueFor
      rfl
    rw [← hcue]
    rfl
  case running =>
    intro cy
    refine ⟨(2 * (6000 * s.eng.clk.rate * cy.beats) + c) / (2 * c), ?_, ?_, ?_⟩
    · have := Nat.div_mul_le_self (2 * (6000 * s.eng.clk.rate * cy.beats) + c) (2 * c)
      rw [Nat.mul_comm] at this
      refine Nat.le_trans this (Nat.le_of_eq ?_)
      ring
    · have := Nat.lt_mul_div_succ (2 * (6000 * s.eng.clk.rate * cy.beats) + c) (show 0 < 2 * c by omega)
      refine Nat.lt_of_le_of_lt (Nat.le_of_eq ?_) this
      ring
    · have hlen : reportedLength s.eng = c := by simp only [reportedLength, baseCapture, hb, Cycle.c, hc, Option.getD_some]
      have htempo : tempo s.eng = ((2 * (6000 * s.eng.clk.rate * cy.beats) + c) / (2 * c) : Nat) := by
        simp only [tempo, hc, roundDiv_nat]
        rfl
      rw [show exec .cycleQuery s = _ from commandRow_answers h rfl, hlen, htempo, Cycle.beatLength, Cycle.c, hc]
      rfl
  case absent =>
    intro cy
    have hlen : reportedLength s.eng = n := by
      obtain ⟨_, hb, rfl⟩ | ⟨hst, l, sl, hb, hsl, rfl⟩ := hn
      · simp only [reportedLength, baseCapture, hb, Cycle.c, hc, Option.getD_none]
      · simp only [reportedLength, baseCapture, hb, hsl, hst, if_true]
    rw [show exec .cycleQuery s = _ from commandRow_answers h rfl, hlen]
    simp only [tempo, hc, Cycle.beatLength, Cycle.c, Option.getD_none, Nat.zero_div]
    rfl

/-- Settles O34. -/
theorem laneAndMemoryQuery : Obligations.LaneAndMemoryQuery := by
  refine ⟨fun s m rest => ⟨fun l h => ?lane, fun l h hl => commandRow_refuses h (laneQuery_outOfRange hl s.eng)⟩,
    fun s m rest h => ?memory⟩
  case lane =>
    intro ln clk port
    refine commandRow_answers h (laneQuery_of l (port := port) (fun p hp => ?_) fun hn => ?_)
    · simp only [port, ln, hp]
      rfl
    · simp only [port, ln, hn]
  case memory =>
    intro e size pages age job jobs grant staged
    have hage : ageFields e = age := by
      funext ⟨l, k⟩
      cases k <;> rfl
    have hjob : jobFields e = job := by
      funext running j
      dsimp only [job]
      refine (jobFields_eq e running j).trans ?_
      generalize e.layers[j.layer].written = w
      cases j.kind with
      | finishCopy => cases w <;> rfl
      | zeroFill => rfl
    have hjobs : jobList e = jobs := by
      dsimp only [jobs]
      rw [← hjob]
      unfold jobList
      cases e.mem.jobs <;> rfl
    have hgrant : grantFields e.mem.grant = grant := by
      dsimp only [grant]
      cases e.mem.grant <;> rfl
    have hstaged : stagingFields e = staged := by
      funext i
      dsimp only [staged]
      rw [stagingFields, stagingLevel, dataCount, openGap]
      refine congr_arg (List.cons _) (congr_arg (List.cons _) (congr_arg (fun x => [x]) ?_))
      cases e.slots[i].staging.getLast? with
      | none => rfl
      | some en =>
        obtain ⟨_, _, body⟩ := en
        cases body with
        | data _ _ => rfl
        | gap _ _ isOpen => cases isOpen <;> rfl
    rw [show exec .memoryQuery s = _ from commandRow_answers h rfl]
    simp only [totalPages_eq, ← hage, ← hjobs, ← hgrant, ← hstaged, slotIxs, List.flatMap_cons, List.flatMap_nil,
      List.append_nil, List.append_assoc]
    rfl

/-- Settles O35. -/
theorem storeReading : Obligations.StoreReading := by
  intro s m rest
  refine ⟨fun pt hw sr h hpt hhw hsr => ?_, fun o0 o1 c0 c1 h => ?_⟩
  · rw [identWith_answers h]
    simp only [identData, identValues, hpt, hhw, hsr]
    rfl
  · intro off count
    rw [storeReadWith_answers h, storeRead_of]
    refine ⟨fun h1 h256 hl hj => ?_, fun hout => ?_, fun h1 h256 hl hj => ?_⟩
    · rw [if_neg (by omega), if_neg (by rw [hj]; decide), storeBytes_eq]
    · rw [if_pos hout]
      rfl
    · rw [if_neg (by omega), if_pos hj]
      rfl

end Sys2Proof.Settled
end

section
/-! Messages of a wrong length and of an unknown kind (R175, R179, R186). -/

set_option Elab.async false

namespace Sys2Proof.Machine

section
variable {s : State} {kind : Nat} {m : Message} {rest : List Message}

/-- An oversize message, or a payload of a length that the kind does not accept. -/
def wrongLength (kind : Nat) (m : Message) : Prop := m.oversize = true ∨ legalLength kind m.payload = false

/-- A reply without data, given to the message that a command row has just taken. -/
theorem reply_refused (hk : m.kind.toNat < 32) (st : Status) :
    ({ s with link := { s.link with inbound := rest } } : State).reply m.kind m.tag { status := st, data := [] }
      = s.refused m rest st :=
  reply_answered (s := s) (rest := rest) hk { status := st, data := [] } s.eng

theorem take_ready_kind (h : s.Ready m rest) (hk : m.kind.toNat = kind) (f : Message → State → State) :
    stateRow (State.take (isKind kind) f) s = .next (f m { s with link := { s.link with inbound := rest } }) := by
  simp only [stateRow, State.whenOn, if_pos h.powered]
  rw [take_ready h (by simp [isKind, hk])]

theorem commandRow_badLength {cmd : List Byte → Engine → Engine × Answer} (h : s.Ready m rest)
    (hk : m.kind.toNat = kind) (h32 : kind < 32) (hbad : wrongLength kind m)
    (hcmd : ∀ b e, legalLength kind b = false → cmd b e = refuse .badLength e) :
    commandRow kind cmd s = .next (s.refused m rest .badLength) := by
  cases ho : m.oversize with
  | true => exact commandRow_oversize h hk h32 ho cmd
  | false =>
    have hl : legalLength kind m.payload = false := hbad.resolve_left (by rw [ho]; decide)
    rw [commandRow_takes ⟨h, hk, ho, rfl⟩ h32, hcmd m.payload s.eng hl]
    rfl

/-- A row outside the engine's commands answers BAD_LENGTH when its meaning does so for the message. -/
theorem takeRow_badLength {f : Message → State → State} (h : s.Ready m rest) (hk : m.kind.toNat = kind) (h32 : kind < 32)
    (hf : ∀ s' : State, f m s' = s'.reply m.kind m.tag { status := .badLength, data := [] }) :
    stateRow (State.take (isKind kind) f) s = .next (s.refused m rest .badLength) := by
  rw [take_ready_kind h hk, hf, reply_refused (hk ▸ h32)]

theorem startWith_badLength {cmd : Byte → List Byte → Engine → Engine × Option Answer} (hbad : wrongLength kind m)
    (hcmd : ∀ t b e, legalLength kind b = false → cmd t b e = (e, some { status := .badLength, data := [] })) (s' : State) :
    startWith cmd m s' = s'.reply m.kind m.tag { status := .badLength, data := [] } := by
  unfold startWith
  cases ho : m.oversize with
  | true => rfl
  | false =>
    rw [hcmd _ _ _ (hbad.resolve_left (by rw [ho]; decide))]
    rfl

theorem audioWrite_badLength (t : Byte) (b : List Byte) (e : Engine) (hb : legalLength 20 b = false) :
    audioWrite t b e = (e, some { status := .badLength, data := [] }) := by
  have hb : ¬(8 ≤ b.length ∧ b.length ≤ 1019 ∧ (b.length - 5) % 3 = 0) := of_decide_eq_false hb
  exact if_pos (by omega)

theorem storeWrite_badLength (t : Byte) (b : List Byte) (st : Store) (hb : legalLength 27 b = false) :
    storeWrite t b st = (st, some { status := .badLength, data := [] }) := by
  have hb : ¬(6 ≤ b.length ∧ b.length ≤ 66 ∧ (b.length - 2) % 4 = 0) := of_decide_eq_false hb
  exact if_pos (by rw [List.length_drop]; omega)

theorem storeWriteWith_badLength (hbad : wrongLength 27 m) (s' : State) :
    storeWriteWith m s' = s'.reply m.kind m.tag { status := .badLength, data := [] } := by
  unfold storeWriteWith
  cases ho : m.oversize with
  | true => rfl
  | false =>
    rw [storeWrite_badLength _ _ _ (hbad.resolve_left (by rw [ho]; decide))]
    rfl

theorem storeReadWith_badLength (hbad : wrongLength 26 m) (s' : State) :
    storeReadWith m s' = s'.reply m.kind m.tag { status := .badLength, data := [] } := by
  unfold storeReadWith
  cases ho : m.oversize with
  | true => rfl
  | false =>
    have hb : m.payload.length ≠ 4 := ne_of_beq_false (hbad.resolve_left (by rw [ho]; decide))
    simp only [storeRead, if_pos hb, Bool.false_eq_true, if_false]

theorem storeApplyWith_badLength (hbad : wrongLength 28 m) (s' : State) :
    storeApplyWith m s' = s'.reply m.kind m.tag { status := .badLength, data := [] } := by
  unfold storeApplyWith answerWith
  cases ho : m.oversize with
  | true => rfl
  | false =>
    have hb : m.payload.length ≠ 2 := ne_of_beq_false (hbad.resolve_left (by rw [ho]; decide))
    obtain hp | ⟨k0, hp⟩ | ⟨k0, k1, k2, more, hp⟩ :
        m.payload = [] ∨ (∃ k0, m.payload = [k0]) ∨ ∃ k0 k1 k2 more, m.payload = k0 :: k1 :: k2 :: more := by
      match hm : m.payload with
      | [] => exact .inl rfl
      | [k0] => exact .inr (.inl ⟨k0, rfl⟩)
      | [_, _] => exact absurd (by rw [hm]; rfl) hb
      | k0 :: k1 :: k2 :: more => exact .inr (.inr ⟨k0, k1, k2, more, rfl⟩)
    all_goals
      rw [hp]
      rfl

/-- IDENT and ENGINE_RESET take no payload. -/
theorem noPayload_badLength (hbad : m.oversize = true ∨ (m.payload.length == 0) = false) :
    m.oversize = true ∨ m.payload.length ≠ 0 :=
  hbad.imp_right ne_of_beq_false

theorem setOrQuery_badLength {n k : Nat} (hb : (n == 0 || n == k) = false) : n ≠ 0 ∧ n ≠ k := by
  obtain ⟨h0, hk⟩ := Bool.or_eq_false_iff.1 hb
  exact ⟨ne_of_beq_false h0, ne_of_beq_false hk⟩

theorem cueLengths_eq (t a : Byte) (args : List Byte) :
    cueLengths (t :: a :: args) = cueLength (fieldAt (t :: a :: args) 1 1) := by
  have hzero : (a = 0) = (a.toNat = 0) := propext ⟨by rintro rfl; rfl, fun h => BitVec.eq_of_toNat_eq h⟩
  have htwo : (a = 2) = (a.toNat = 2) := propext ⟨by rintro rfl; rfl, fun h => BitVec.eq_of_toNat_eq h⟩
  simp only [cueLengths, cueLength, fieldAt_later, fieldAt_byte, hzero, htwo]

theorem cueCommand_badLength (b : List Byte) (e : Engine) (hb : legalLength 13 b = false) :
    cueCommand b e = refuse .badLength e := by
  refine if_pos ?_
  match b with
  | [] | [_] => exact .inr (by simp only [List.length_nil, List.length_cons]; omega)
  | t :: a :: args =>
    refine .inl fun hmem => ?_
    have hin : (cueLengths (t :: a :: args)).contains (t :: a :: args).length = true := by
      rw [cueLengths_eq]
      exact List.contains_iff_mem.2 hmem
    exact Bool.false_ne_true (hb.symm.trans hin)

/-- Each command row refuses a message of a wrong length (R175, R186). -/
theorem rowOf_badLength {c : Instr} (hrow : rowOf kind = some c) (h : s.Ready m rest) (hk : m.kind.toNat = kind)
    (hbad : wrongLength kind m) : exec c s = .next (s.refused m rest .badLength) := by
  unfold rowOf at hrow
  split at hrow
  all_goals cases hrow
  · exact commandRow_badLength h hk (by decide) hbad fun b e hb => if_pos (ne_of_beq_false hb)
  · exact commandRow_badLength h hk (by decide) hbad fun b e hb => if_pos (ne_of_beq_false hb)
  · exact commandRow_badLength h hk (by decide) hbad fun b e hb => if_pos (ne_of_beq_false hb)
  · exact commandRow_badLength h hk (by decide) hbad fun b e hb => if_pos (ne_of_beq_false hb)
  · exact commandRow_badLength h hk (by decide) hbad fun b e hb =>
      (if_neg (setOrQuery_badLength hb).1).trans (if_pos (setOrQuery_badLength hb).2)
  · exact commandRow_badLength h hk (by decide) hbad fun b e hb => if_pos (ne_of_beq_false hb)
  · exact commandRow_badLength h hk (by decide) hbad fun b e hb => if_pos (ne_of_beq_false hb)
  · exact commandRow_badLength h hk (by decide) hbad fun b e hb => if_pos (ne_of_beq_false hb)
  · exact commandRow_badLength h hk (by decide) hbad fun b e hb => if_pos (ne_of_beq_false hb)
  · exact commandRow_badLength h hk (by decide) hbad fun b e hb =>
      (if_neg (setOrQuery_badLength hb).1).trans (if_pos (setOrQuery_badLength hb).2)
  · exact commandRow_badLength h hk (by decide) hbad fun b e hb => if_pos (ne_of_beq_false hb)
  · exact commandRow_badLength h hk (by decide) hbad fun b e hb =>
      eventMask_refuses (setOrQuery_badLength hb).1 (setOrQuery_badLength hb).2 e
  · exact commandRow_badLength h hk (by decide) hbad cueCommand_badLength
  · exact commandRow_badLength h hk (by decide) hbad fun b e hb => if_pos (ne_of_beq_false hb)
  · exact commandRow_badLength h hk (by decide) hbad fun b e hb => if_pos (ne_of_beq_false hb)
  · exact commandRow_badLength h hk (by decide) hbad fun b e hb => if_pos (ne_of_beq_false hb)
  · exact commandRow_badLength h hk (by decide) hbad fun b e hb => if_pos (ne_of_beq_false hb)
  · exact commandRow_badLength h hk (by decide) hbad fun b e hb => if_pos (ne_of_beq_false hb)
  · exact takeRow_badLength h hk (by decide) (startWith_badLength hbad fun t b e hb => if_pos (ne_of_beq_false hb))
  · exact takeRow_badLength h hk (by decide) (startWith_badLength hbad audioWrite_badLength)
  · exact commandRow_badLength h hk (by decide) hbad fun b e hb => if_pos (ne_of_beq_false hb)
  · exact commandRow_badLength h hk (by decide) hbad fun b e hb => if_pos (ne_of_beq_false hb)
  · exact commandRow_badLength h hk (by decide) hbad fun b e hb => if_pos (ne_of_beq_false hb)
  · exact commandRow_badLength h hk (by decide) hbad fun b e hb => if_pos (ne_of_beq_false hb)
  · exact takeRow_badLength h hk (by decide) fun s' =>
      congrArg (s'.reply m.kind m.tag) (if_pos (noPayload_badLength hbad))
  · exact takeRow_badLength h hk (by decide) (storeReadWith_badLength hbad)
  · exact takeRow_badLength h hk (by decide) (storeWriteWith_badLength hbad)
  · exact takeRow_badLength h hk (by decide) (storeApplyWith_badLength hbad)
  · exact commandRow_badLength h hk (by decide) hbad fun b e hb => if_pos (ne_of_beq_false hb)
  · exact commandRow_badLength h hk (by decide) hbad fun b e hb => if_pos (ne_of_beq_false hb)
  · exact takeRow_badLength h hk (by decide) fun s' => if_pos (noPayload_badLength hbad)

/-- A kind without a row is answered with reply kind 255 (R179, R180). -/
theorem replyKind_unknown (hk : 32 ≤ m.kind.toNat) : replyKind m.kind = 255 := by
  unfold replyKind
  exact if_neg (by omega)

end

end Sys2Proof.Machine

namespace Sys2Proof.Settled
open Sys2Proof.Machine

/-- Settles O18: each row's own check of the length, and the reply kind of a kind without a row. -/
theorem unknownKindsAndWrongLengths : Obligations.UnknownKindsAndWrongLengths := by
  refine ⟨fun s m rest h hk => ?_, fun kind c hrow s m rest h hk hbad => rowOf_badLength hrow h hk hbad⟩
  intro r lk
  rw [show exec .unknownKind s = .next (s.whenOn _) from rfl, State.whenOn, if_pos h.powered,
    take_ready h (decide_eq_true hk)]
  simp only [answerUnknown, State.reply, queueReply, replyKind_unknown hk]
  rfl

end Sys2Proof.Settled
end

section
/-! Which holds are granted (R168), CUE_CANCEL (R67), LAYER_HOLD and LAYER_RELEASE (R167 to R170, R174). -/

set_option Elab.async false

namespace Sys2Proof.Machine

/-! ## Which holds are granted -/

/-- A PENDING hold whose conditions hold. -/
def grantable (e : Engine) (l : LayerIx) : Bool := e.layers[l].hold == .pending && holdConditions e l

theorem grantable_iff (e : Engine) (l : LayerIx) :
    grantable e l = true ↔ e.layers[l].hold = .pending ∧ holdConditions e l = true := by
  simp only [grantable, Bool.and_eq_true, beq_iff_eq]

theorem writingPending_false (e : Engine) (l : LayerIx) :
    writingPending e l = false
      ↔ ∀ d ∈ e.cues.list, ¬(d.target = .layer l ∧ d.action.writing = true) ∧ d.action ≠ .clearAll := by
  simp [writingPending, List.any_eq_false]

theorem zeroFilling_false (e : Engine) (l : LayerIx) :
    zeroFilling e l = false ↔ ∀ j ∈ e.mem.jobs, ¬(j.layer = l ∧ j.kind = .zeroFill) := by
  simp [zeroFilling, List.any_eq_false]

theorem holdConditions_iff (e : Engine) (l : LayerIx) :
    holdConditions e l = true ↔ (e.layers[l].state = .playing ∨ e.layers[l].state = .stopped)
      ∧ e.layers[l].written = none
      ∧ (∀ d ∈ e.cues.list, ¬(d.target = .layer l ∧ d.action.writing = true) ∧ d.action ≠ .clearAll)
      ∧ ∀ j ∈ e.mem.jobs, ¬(j.layer = l ∧ j.kind = .zeroFill) := by
  rw [← writingPending_false, ← zeroFilling_false]
  simp only [holdConditions, Bool.and_eq_true, Bool.or_eq_true, beq_iff_eq, Bool.not_eq_true', Option.isNone_iff_eq_none]
  tauto

/-- Whether the hold of one layer can be granted does not turn on the records of the others. -/
theorem grantable_congr {e t : Engine} {l : LayerIx} (hl : t.layers[l] = e.layers[l]) (hc : t.cues = e.cues)
    (hm : t.mem = e.mem) : grantable t l = grantable e l := by
  simp only [grantable, holdConditions, writingPending, zeroFilling, hl, hc, hm]

/-- The layers of a list in turn: the holds that can be granted are, in the order of the list. -/
theorem grantHold_foldl (ls : List LayerIx) (hn : ls.Nodup) (e : Engine) :
    ∃ layers : Vector Layer 16,
      (∀ l : LayerIx, layers[l] =
        if l ∈ ls ∧ grantable e l = true then { e.layers[l] with hold := .held } else e.layers[l])
      ∧ ls.foldl (fun e l => grantHold l e) e = { e with
          layers := layers
          evq := (ls.filter (grantable e)).foldl (fun q l => queueReport (.holdGranted l) e.cyc.k e.cyc.p q) e.evq } := by
  induction ls generalizing e with
  | nil => exact ⟨e.layers, fun l => (if_neg (by simp)).symm, rfl⟩
  | cons k rest ih =>
    obtain ⟨hk, hrest⟩ := List.nodup_cons.1 hn
    cases hg : grantable e k with
    | false =>
      obtain ⟨layers, hlayers, heq⟩ := ih hrest e
      refine ⟨layers, fun l => ?_, ?_⟩
      · rw [hlayers l]
        refine if_congr ⟨fun h => ⟨List.mem_cons_of_mem _ h.1, h.2⟩, fun h => ⟨?_, h.2⟩⟩ rfl rfl
        refine (List.mem_cons.1 h.1).resolve_left ?_
        rintro rfl
        exact Bool.false_ne_true (hg.symm.trans h.2)
      · rw [List.foldl_cons, grantHold_none (by rw [← grantable_iff, hg]; exact Bool.false_ne_true), heq,
          List.filter_cons_of_neg (by rw [hg]; exact Bool.false_ne_true)]
    | true =>
      have hother : ∀ l ∈ rest, grantable (grantHold k e) l = grantable e l := fun l hl => by
        rw [grantHold_grants ((grantable_iff e k).1 hg)]
        exact grantable_congr (upd_other _ _ _ _ fun h => hk (h ▸ hl)) rfl rfl
      obtain ⟨layers, hlayers, heq⟩ := ih hrest (grantHold k e)
      have hlay : ∀ l : LayerIx, (grantHold k e).layers[l]
          = if k = l then { e.layers[l] with hold := .held } else e.layers[l] := fun l => by
        rw [grantHold_grants ((grantable_iff e k).1 hg)]
        exact upd_get _ _ _ _
      refine ⟨layers, fun l => ?_, ?_⟩
      · rw [hlayers l, hlay l]
        by_cases hl : k = l
        · subst hl
          rw [if_neg (fun h => hk h.1), if_pos rfl, if_pos ⟨List.mem_cons_self, hg⟩]
        · rw [if_neg hl]
          by_cases hm : l ∈ rest
          · rw [hother l hm]
            exact if_congr (by simp [hm]) rfl rfl
          · rw [if_neg fun h => hm h.1, if_neg fun h => hm ((List.mem_cons.1 h.1).resolve_left fun h => hl h.symm)]
      · rw [List.foldl_cons, heq, List.filter_cons_of_pos hg, List.foldl_cons, List.filter_congr hother,
          grantHold_grants ((grantable_iff e k).1 hg)]
        rfl

theorem layerIxs_pairwise : layerIxs.Pairwise (· < ·) := by decide

theorem layerIxs_nodup : layerIxs.Nodup := by decide

/-- Granting the holds that can be granted. -/
theorem grantHolds_spec (e : Engine) :
    ∃ layers : Vector Layer 16,
      (∀ l : LayerIx, layers[l] = if grantable e l = true then { e.layers[l] with hold := .held } else e.layers[l])
      ∧ grantHolds e = { e with
          layers := layers
          evq := (layerIxs.filter (grantable e)).foldl (fun q l => queueReport (.holdGranted l) e.cyc.k e.cyc.p q)
            e.evq } := by
  obtain ⟨layers, hlayers, heq⟩ := grantHold_foldl layerIxs layerIxs_nodup e
  exact ⟨layers, fun l => (hlayers l).trans (if_congr (by simp [mem_layerIxs l]) rfl rfl), heq⟩

/-- A hold that cannot be granted, and the rest of its layer, stay as they are. -/
theorem grantHolds_layer {e : Engine} {l : LayerIx} (h : holdConditions e l = false) :
    (grantHolds e).layers[l] = e.layers[l] := by
  obtain ⟨layers, hlayers, heq⟩ := grantHolds_spec e
  rw [heq]
  refine (hlayers l).trans (if_neg fun hg => ?_)
  exact Bool.false_ne_true (h.symm.trans ((grantable_iff e l).1 hg).2)

theorem grantHolds_cyc (e : Engine) : (grantHolds e).cyc = e.cyc := by
  obtain ⟨layers, -, heq⟩ := grantHolds_spec e
  rw [heq]

theorem grantHolds_cues (e : Engine) : (grantHolds e).cues = e.cues := by
  obtain ⟨layers, -, heq⟩ := grantHolds_spec e
  rw [heq]

/-! ## CUE_CANCEL -/

theorem disarm_armed {e : Engine} {l : LayerIx} (h : e.layers[l].state = .armed) (n : Nat) :
    disarm l n e = ({ e with layers := upd e.layers l fun r =>
      { r with state := .empty, hold := .none, lastChange := e.cyc.k } } : Engine).reports
        (.layerState l .empty .cueRemoved n) := by
  rw [disarm, if_pos h, setLayerState_eq, modLayer, modLayer, upd_upd]
  rfl

theorem disarm_not {e : Engine} {l : LayerIx} (h : e.layers[l].state ≠ .armed) (n : Nat) : disarm l n e = e := if_neg h

theorem disarmFor_record {c : Cue} {l : LayerIx} {j : Nat} {lane : LaneIx} (ha : c.action = .record j lane)
    (ht : c.target = .layer l) (e : Engine) : disarmFor c e = disarm l c.number e := by
  unfold disarmFor
  rw [ha, ht]

/-- Only the ARMED layer of a RECORD returns to EMPTY. -/
theorem disarmFor_not {c : Cue} {e : Engine}
    (h : ∀ l j lane, c.action = .record j lane → c.target = .layer l → e.layers[l].state ≠ .armed) :
    disarmFor c e = e := by
  unfold disarmFor
  split
  · exact disarm_not (h _ _ _ ‹_› ‹_›) _
  · rfl

theorem cueNumbered_none {e : Engine} {n : Nat} (h : ∀ d ∈ e.cues.list, d.number ≠ n) : cueNumbered n e = none :=
  List.find?_eq_none.2 fun d hd hb => h d hd (beq_iff_eq.1 hb)

theorem cueNumbered_some {e : Engine} {n : Nat} {before after : List Cue} {c : Cue}
    (hl : e.cues.list = before ++ c :: after) (hn : c.number = n) (h : ∀ d ∈ before, d.number ≠ n) :
    cueNumbered n e = some c := by
  rw [cueNumbered, hl, List.find?_append, List.find?_eq_none.2 fun d hd hb => h d hd (beq_iff_eq.1 hb)]
  exact List.find?_cons_of_pos (p := fun d : Cue => d.number == n) (beq_iff_eq.2 hn)

/-- A cue that alone bears its number leaves the queue. -/
theorem removeCue_alone {s : State} {before after : List Cue} {c : Cue} (hl : s.eng.cues.list = before ++ c :: after)
    (h : ∀ d ∈ before ++ after, d.number ≠ c.number) : removeCue c.number s.eng = s.dequeued before after := by
  have hkeep : ∀ list : List Cue, (∀ d ∈ list, d.number ≠ c.number) → list.filter (fun d => d.number != c.number) = list :=
    fun list hd => List.filter_eq_self.2 fun d hm => bne_iff_ne.2 (hd d hm)
  rw [removeCue, hl, List.filter_append, List.filter_cons_of_neg (by simp),
    hkeep before fun d hd => h d (List.mem_append_left _ hd), hkeep after fun d hd => h d (List.mem_append_right _ hd)]
  rfl

theorem cueCancel_of (n0 n1 : Byte) (e : Engine) :
    cueCancel [n0, n1] e = match cueNumbered (word16 n0 n1) e with
      | none => refuse .notFound e
      | some c => (grantHolds (disarmFor c (removeCue c.number e)),
          { status := .ok, data := [natField c.target.code, natField c.action.code] }) := by
  simp only [cueCancel, fieldAt_word16]
  rfl

/-! ## LAYER_HOLD and LAYER_RELEASE -/

theorem pagesFor_eq (len : Nat) : pagesFor len = (len + 16383) / 16384 := by
  unfold pagesFor ceilDiv
  rw [show Config.pageFrames = 16384 from rfl, Nat.add_sub_assoc (by decide)]

theorem eachSlot_modSlot (f : Slot → Slot) (e : Engine) (i : SlotIx) :
    (eachSlot (fun s => modSlot s f) e).slots[i] = f e.slots[i] := by
  simp only [eachSlot, slotIxs, List.foldl_cons, List.foldl_nil, modSlot_slots, Fin.getElem_fin, upd_get]
  match i with
  | 0 | 1 => rfl

/-- What a reclaim may change: of the layers the kept chains, of the slots what is staged, of the memory all but what its
frames hold, and the event queue; the jobs that go on are jobs of before (R106, R108, R117). -/
structure Reclaims (g t : Engine) : Prop where
  rest : t = { g with layers := t.layers, slots := t.slots, evq := t.evq, mem := { t.mem with cells := g.mem.cells } }
  jobs : ∀ j ∈ t.mem.jobs, j ∈ g.mem.jobs
  layer : ∀ l : LayerIx, t.layers[l] = { g.layers[l] with undo := t.layers[l].undo, redo := t.layers[l].redo }
  slot : ∀ i : SlotIx, (t.slots[i]).sameButStaging g.slots[i]

theorem Reclaims.refl (g : Engine) : Reclaims g g := ⟨rfl, fun _ h => h, fun _ => rfl, fun _ => rfl⟩

theorem Reclaims.trans {g e t : Engine} (h : Reclaims g e) (h' : Reclaims e t) : Reclaims g t where
  rest := by
    rw [h'.rest, h.rest]
  jobs := fun j hj => h.jobs j (h'.jobs j hj)
  layer := fun l => by
    rw [h'.layer l, h.layer l]
  slot := fun i => by
    have h1 := h.slot i
    have h2 := h'.slot i
    unfold Slot.sameButStaging at *
    rw [← h1, ← h2]

theorem Reclaims.cyc {g t : Engine} (h : Reclaims g t) : t.cyc = g.cyc := by rw [h.rest]

theorem Reclaims.cues {g t : Engine} (h : Reclaims g t) : t.cues = g.cues := by rw [h.rest]

theorem dropEntries_sameButStaging (l : LayerIx) (key : Nat) (sl : Slot) : (dropEntries l key sl).sameButStaging sl := rfl

theorem freeChain_reclaims (l : LayerIx) (chain : Option (List Nat)) (e : Engine) : Reclaims e (freeChain l chain e) := by
  match chain with
  | none | some [] => exact .refl e
  | some (key :: pages) =>
    refine ⟨rfl, fun j hj => ?_, fun _ => rfl, fun i => ?_⟩
    · rw [freeChain_jobs] at hj
      exact (List.mem_filter.1 hj).1
    · rw [freeChain, eachSlot_modSlot, dropJobs_slots]
      exact dropEntries_sameButStaging l key e.slots[i]

theorem reclaimOne_reclaims (l : LayerIx) (k : AgeKind) (e : Engine) : Reclaims e (reclaimOne l k e) := by
  have hfree : ∀ chain, Reclaims e (dropAge l (freeChain l chain e)) := fun chain =>
    (freeChain_reclaims l chain e).trans ⟨rfl, fun _ h => h, fun _ => rfl, fun _ => rfl⟩
  unfold reclaimOne
  refine (hfree _).trans ⟨rfl, fun _ h => h, fun i => ?_, fun _ => rfl⟩
  simp only [post_layers, modLayer_layers, Fin.getElem_fin, upd_get]
  split
  · cases k <;> rfl
  · rfl

theorem reclaimWalk_reclaims (need extra : Nat) (own : Option LayerIx) (list : List (LayerIx × AgeKind)) (e : Engine) :
    Reclaims e (reclaimWalk need extra own list e) := by
  induction list generalizing e with
  | nil => exact .refl e
  | cons a rest ih =>
    obtain ⟨l, k⟩ := a
    unfold reclaimWalk
    split_ifs
    · exact .refl e
    · exact ih e
    · exact (reclaimOne_reclaims l k e).trans (ih _)

theorem legalMultiple_iff (n : Nat) : legalMultiple n = true ↔ n ∈ [1, 2, 3, 4, 6, 8] := by
  simp [legalMultiple]

theorem layerHold_of (l : LayerIx) (n : Byte) (e : Engine) :
    layerHold [byte l.val, n] e = ((holdLayer l n.toNat e).1,
      { status := (holdLayer l n.toNat e).2,
        data := if (holdLayer l n.toNat e).2.refuses then [] else holdReply (holdLayer l n.toNat e).1 l }) := by
  simp only [layerHold, fieldAt_later, fieldAt_byte, ix?_byte l]
  rfl

theorem holdReply_setHold (l : LayerIx) (h : Hold) (e : Engine) :
    holdReply (setHold l h e) l
      = [natField e.layers[l].state.code, natField (e.layers[l].mult.getD 0), natField (e.layers[l].mult.getD 0 * e.cyc.len.getD 0),
         optField (e.layers[l].cur.map List.length), natField h.code] := by
  simp only [holdReply, setHold, layerLen, modLayer_layers, modLayer_cyc, Fin.getElem_fin, upd_self]
  rfl

section
variable {e : Engine} {l : LayerIx} {n : Nat}

theorem holdLayer_grants (hh : e.layers[l].hold = .none) (hs : e.layers[l].state ≠ .empty)
    (hc : holdConditions e l = true) : holdLayer l n e = (setHold l .held e, .ok) := by
  simp only [holdLayer, hh, if_neg hs, if_pos hc]

theorem holdLayer_waits (hh : e.layers[l].hold = .none) (hs : e.layers[l].state ≠ .empty)
    (hc : holdConditions e l = false) : holdLayer l n e = (setHold l .pending e, .pending) := by
  simp only [holdLayer, hh, if_neg hs, hc, Bool.false_eq_true, if_false]

theorem holdLayer_empty (hh : e.layers[l].hold = .none) (hs : e.layers[l].state = .empty) :
    holdLayer l n e = importLayer l n e := by
  simp only [holdLayer, hh, if_pos hs]

theorem cuePendingFor_iff :
    cuePendingFor e l = true ↔ ∃ d ∈ e.cues.list, d.target = .layer l ∨ d.action = .clearAll := by
  simp [cuePendingFor]

/-- An import that no cue stands against turns on the pages alone. -/
theorem holdLayer_imports (hh : e.layers[l].hold = .none) (hs : e.layers[l].state = .empty)
    (hn : legalMultiple n = true) (hc : e.cyc.state = .running ∨ e.cyc.state = .paused)
    (hd : ∀ d ∈ e.cues.list, d.target ≠ .layer l ∧ d.action ≠ .clearAll) :
    holdLayer l n e = match allocChain (pagesFor (n * e.cyc.c)) e with
      | (none, e1) => (grantHolds e1, .noSpace)
      | (some pages, e1) =>
        (grantHolds (setLayerState l .stopped .imported 0 (addJob l .zeroFill
          (modLayer l (fun r => { r with mult := some n, cur := some pages, hold := .pending }) e1))), .pending) := by
  have hpend : ¬cuePendingFor e l = true := by
    rw [cuePendingFor_iff]
    rintro ⟨d, hm, ht | ha⟩
    · exact (hd d hm).1 ht
    · exact (hd d hm).2 ha
  rw [holdLayer_empty hh hs, importLayer, hn, if_neg (by decide), if_neg (not_not.2 hc)]
  exact if_neg hpend

end

theorem allocChain_fails {need : Nat} {e : Engine} (h : (reclaimWalk need 0 none e.mem.age e).mem.free.length < need) :
    allocChain need e = (none, reclaimWalk need 0 none e.mem.age e) := by
  simp only [allocChain, if_neg (Nat.not_le.2 h)]

theorem allocChain_gives {need : Nat} {e : Engine} (h : need ≤ (reclaimWalk need 0 none e.mem.age e).mem.free.length) :
    allocChain need e
      = (some ((reclaimWalk need 0 none e.mem.age e).mem.free.take need),
         { reclaimWalk need 0 none e.mem.age e with mem := { (reclaimWalk need 0 none e.mem.age e).mem with
             free := (reclaimWalk need 0 none e.mem.age e).mem.free.drop need } }) := by
  simp only [allocChain, if_pos h, takePages]

theorem addJob_free {e : Engine} {l : LayerIx} (h : ∀ j ∈ e.mem.jobs, j.layer ≠ l) (k : FillKind) :
    addJob l k e = { e with mem := { e.mem with jobs := e.mem.jobs ++
      [{ layer := l, key := chainKey e.layers[l].cur, kind := k, done := 0 }] } } := by
  have hno : hasJob e l = false := by simpa [hasJob, List.any_eq_false] using h
  simp only [addJob, hno, Bool.false_eq_true, if_false]

/-- An import onto a layer without a job: its record, and a ZERO_FILL of its chain. -/
theorem import_eq {w : Engine} {l : LayerIx} {k : Nat} (hk : w.cyc.k = k) (h : ∀ j ∈ w.mem.jobs, j.layer ≠ l) (n need : Nat) :
    setLayerState l .stopped .imported 0 (addJob l .zeroFill (modLayer l
        (fun r => { r with mult := some n, cur := some (w.mem.free.take need), hold := .pending })
        { w with mem := { w.mem with free := w.mem.free.drop need } }))
      = ({ w with
          layers := upd w.layers l fun _ => { w.layers[l] with
            mult := some n, cur := some (w.mem.free.take need), hold := .pending, state := .stopped, lastChange := k }
          mem := { w.mem with free := w.mem.free.drop need, jobs := w.mem.jobs ++
            [{ layer := l, key := (w.mem.free.take need).head?, kind := .zeroFill, done := 0 }] } } : Engine).reports
        (.layerState l .stopped .imported 0) := by
  rw [addJob_free (by exact h), setLayerState_eq]
  simp only [modLayer, upd_upd, Fin.getElem_fin, upd_self, chainKey_eq, Option.bind_some, ← hk]
  rfl

theorem holdReply_grantHolds {e : Engine} {l : LayerIx} (h : holdConditions e l = false) :
    holdReply (grantHolds e) l = holdReply e l := by
  simp only [holdReply, layerLen, grantHolds_layer h, grantHolds_cyc]

theorem holdConditions_filling {e : Engine} {l : LayerIx} (h : ∃ j ∈ e.mem.jobs, j.layer = l ∧ j.kind = .zeroFill) :
    holdConditions e l = false := by
  obtain ⟨j, hj, hl, hk⟩ := h
  rw [← Bool.not_eq_true, holdConditions_iff]
  rintro ⟨-, -, -, hno⟩
  exact hno j hj ⟨hl, hk⟩

theorem layerRelease_of (l : LayerIx) (e : Engine) :
    layerRelease [byte l.val] e = match e.layers[l].hold with
      | .none => refuse .notHeld e
      | .pending => (setHold l .none e, { status := .ok, data := [] })
      | .held =>
        (if transferOf e l then setRelease l true e else setHold l .none e, { status := .ok, data := [] }) := by
  simp only [layerRelease, fieldAt_byte, ix?_byte l]
  rfl

theorem layerHold_none {l : Byte} (h : 16 ≤ l.toNat) (n : Byte) (e : Engine) : layerHold [l, n] e = refuse .outOfRange e := by
  simp only [layerHold, fieldAt_byte, ix?_none h]
  rfl

theorem layerRelease_none {l : Byte} (h : 16 ≤ l.toNat) (e : Engine) : layerRelease [l] e = refuse .outOfRange e := by
  simp only [layerRelease, fieldAt_byte, ix?_none h]
  rfl

end Sys2Proof.Machine

namespace Sys2Proof.Settled
open Sys2Proof.Machine

/-- Settles O52: the layers in ascending order, each granted by its own record, the cues and the jobs. -/
theorem grantHolds : Obligations.GrantHolds := by
  intro e met
  have hmet : ∀ l : LayerIx, grantable e l = true ↔ met l := fun l => by
    rw [grantable_iff, holdConditions_iff]
  obtain ⟨layers, hlayers, heq⟩ := grantHolds_spec e
  refine ⟨layers, layerIxs.filter (grantable e), layerIxs_pairwise.filter _, fun l => ?_, fun l => ⟨fun h => ?_, fun h => ?_⟩, heq⟩
  · rw [List.mem_filter, ← hmet l]
    exact and_iff_right (mem_layerIxs l)
  · exact (hlayers l).trans (if_pos ((hmet l).2 h))
  · exact (hlayers l).trans (if_neg fun hg => h ((hmet l).1 hg))

/-- Settles O28. -/
theorem cueCancel : Obligations.CueCancel := by
  intro s m rest n0 n1 h
  refine ⟨fun hd => ?_, fun before after c hl hn halone => ?_⟩
  · exact commandRow_refuses h (by rw [cueCancel_of, cueNumbered_none hd])
  · intro e answer
    have hcancel : ∀ e', disarmFor c e = e' → exec .cueCancel s = .next (answer e') := by
      rintro e' rfl
      refine commandRow_answers h ?_
      rw [cueCancel_of, cueNumbered_some hl hn fun d hd => (halone d (List.mem_append_left _ hd)).trans_eq hn]
      exact congrArg (fun e => (Machine.grantHolds (disarmFor c e), _)) (removeCue_alone hl halone)
    refine ⟨fun hnot => hcancel e (disarmFor_not hnot), fun l j lane ha ht harmed => ?_⟩
    intro layers
    exact hcancel _ ((disarmFor_record ha ht e).trans (disarm_armed harmed c.number))

/-- Settles O31: the status by the hold, the state and the hold conditions; an import by what the reclaim left. -/
theorem layerHoldAndRelease : Obligations.LayerHoldAndRelease := by
  refine ⟨fun s m rest l n h => ?hold, fun s m rest l n hl => ?none, fun s m rest l h => ?release⟩
  case hold =>
    intro e r c data put waits
    have hans : ∀ {t st}, holdLayer l n.toNat e = (t, st) → st.refuses = false →
        exec .layerHold s = .next (s.answered m rest st (holdReply t l) t) := fun ht hst =>
      commandRow_answers h (by rw [layerHold_of, ht, hst]; rfl)
    have href : ∀ {t st}, holdLayer l n.toNat e = (t, st) → st.refuses = true →
        exec .layerHold s = .next (s.answered m rest st [] t) := fun ht hst =>
      commandRow_answers h (by rw [layerHold_of, ht, hst]; rfl)
    have hwaits : waits ↔ holdConditions e l = false := by
      rw [← Bool.not_eq_true, holdConditions_iff, ← not_iff_not, not_not]
      dsimp only [waits]
      simp only [not_or, not_and, not_exists, Option.not_isSome_iff_eq_none, ne_eq]
      tauto
    refine ⟨fun hh => ?_, fun hh => ?_, fun hh hs hw => ?_, fun hh hs hw => ?_, fun hh hs hn => ?_, fun hh hs hn hc => ?_,
      fun hh hs hn hd => ?_, fun hh hs hn hc hd hj => ?_⟩
    · intro x
      have hx : x = e.xfer.map fun t => if t.layer = l then { t with release := false } else t := rfl
      clear_value x
      subst hx
      exact hans (show holdLayer l n.toNat e = (setRelease l false e, .ok) by rw [holdLayer, show e.layers[l].hold = _ from hh]) rfl
    · exact hans (show holdLayer l n.toNat e = (e, .pending) by rw [holdLayer, show e.layers[l].hold = _ from hh]) rfl
    · rw [hans (holdLayer_grants hh hs ((Bool.not_eq_false _).mp (mt hwaits.2 hw))) rfl, holdReply_setHold]
      rfl
    · rw [hans (holdLayer_waits hh hs (hwaits.1 hw)) rfl, holdReply_setHold]
      rfl
    · exact href ((holdLayer_empty hh hs).trans (if_pos (Bool.eq_false_iff.2 (mt (legalMultiple_iff _).1 hn)))) rfl
    · refine href ((holdLayer_empty hh hs).trans ((if_neg ?_).trans (if_pos ?_))) rfl
      · rw [(legalMultiple_iff _).2 hn]
        decide
      · rcases hc with hc | hc <;> rw [hc] <;> decide
    · have hpend : cuePendingFor e l = true := cuePendingFor_iff.2 hd
      refine href ((holdLayer_empty hh hs).trans ((if_neg ?_).trans ?_)) rfl
      · rw [(legalMultiple_iff _).2 hn]
        decide
      · rw [if_pos hpend, ite_self]
    · intro pages walk
      have himport := holdLayer_imports (n := n.toNat) hh hs ((legalMultiple_iff _).2 hn) hc hd
      rw [show pagesFor (n.toNat * e.cyc.c) = pages from pagesFor_eq _] at himport
      refine ⟨fun hp => reclaimWalk_enough (by omega) none _, fun hp => ?_, fun hp => ?_⟩
      · rw [allocChain_fails hp] at himport
        exact href himport rfl
      · rw [allocChain_gives hp] at himport
        have hwalk : Reclaims e walk := reclaimWalk_reclaims ..
        dsimp only at himport
        rw [import_eq (congrArg Cycle.k hwalk.cyc) fun j hm => hj j (hwalk.jobs j hm)] at himport
        intro r1 mem
        generalize hT : (({ walk with layers := upd walk.layers l fun _ => r1, mem := mem } : Engine).reports
          (.layerState l .stopped .imported 0)) = T
        have himp : holdLayer l n.toNat e = (Machine.grantHolds T, .pending) := by rw [← hT]; exact himport
        have hreply : holdReply (Machine.grantHolds T) l = data r1 := by
          subst hT
          have hfill : ∃ j ∈ mem.jobs, j.layer = l ∧ j.kind = .zeroFill :=
            ⟨_, List.mem_append_right _ List.mem_cons_self, rfl, rfl⟩
          rw [holdReply_grantHolds (holdConditions_filling hfill)]
          simp only [holdReply, layerLen, Engine.reports, Fin.getElem_fin, upd_self, hwalk.cyc]
          rfl
        rw [hans himp rfl, hreply]
  case none =>
    exact ⟨fun h => commandRow_refuses h (layerHold_none hl n _), fun h => commandRow_refuses h (layerRelease_none hl _)⟩
  case release =>
    intro e off
    refine ⟨fun hh => ?_, fun hh => ?_, fun hh hx => ?_, fun hh t ht hl => ?_⟩
    · exact commandRow_refuses h (by rw [layerRelease_of, show s.eng.layers[l].hold = _ from hh])
    · exact commandRow_answers h (by rw [layerRelease_of, show s.eng.layers[l].hold = _ from hh]; rfl)
    · refine commandRow_answers h ?_
      have hno : transferOf s.eng l = false := by
        unfold transferOf
        cases hxf : s.eng.xfer with
        | none => rfl
        | some t => exact beq_eq_false_iff_ne.2 (hx t hxf)
      rw [layerRelease_of, show s.eng.layers[l].hold = _ from hh, hno]
      rfl
    · refine commandRow_answers h ?_
      have ht : s.eng.xfer = some t := ht
      rw [layerRelease_of, show s.eng.layers[l].hold = _ from hh, transferOf, setRelease, ht]
      simp only [hl, beq_self_eq_true, if_true, Option.map_some]
      rfl

end Sys2Proof.Settled
end

section
/-! The words of a store write (R190, R191), and setups: at start-up and by STORE_APPLY (R192, R193). -/

set_option Elab.async false

namespace Sys2Proof.Machine

/-! ## The words of a store write -/

/-- The word a write programs next, while one is left. -/
theorem StoreJob.word?_left {j : StoreJob} (h : 4 * j.done + 4 ≤ j.data.length) :
    j.word? = some (j.offset + 4 * j.done, (j.data.drop (4 * j.done)).take 4) :=
  if_pos (by omega)

theorem programWord_left {st : Store} {j : StoreJob} (hj : st.job = some j) (h : 4 * j.done + 4 ≤ j.data.length) :
    programWord st = { st with
      cells := cellWrites st.cells (j.offset + 4 * j.done) ((j.data.drop (4 * j.done)).take 4)
      job := some { j with done := j.done + 1 } } := by
  simp only [programWord, hj, StoreJob.word?_left h]

/-- A word of the write changes its four bytes and no other. -/
theorem cellRead_word {cells : List Host.Cell} (hc : cellsWf cells = true) (data : List Byte) (offset done : Nat)
    (h : 4 * done + 4 ≤ data.length) (a : Nat) :
    cellRead (cellWrites cells (offset + 4 * done) ((data.drop (4 * done)).take 4)) a
      = if offset + 4 * done ≤ a ∧ a < offset + 4 * done + 4 then data.getD (a - offset) 0 else cellRead cells a := by
  have hlen : ((data.drop (4 * done)).take 4).length = 4 := by simp; omega
  split
  case isTrue ha =>
    obtain ⟨i, rfl⟩ : ∃ i, a = offset + 4 * done + i := ⟨a - (offset + 4 * done), by omega⟩
    have hi : i < ((data.drop (4 * done)).take 4).length := by omega
    have hd : offset + 4 * done + i - offset = 4 * done + i := by omega
    rw [cellRead_writes_inside _ _ _ i hi hc, hd, List.getD_eq_getElem _ _ (by omega), List.getElem_take, List.getElem_drop]
  case isFalse ha => exact cellRead_writes_outside _ _ _ _ (by omega)

/-- A write with words left is not completed. -/
theorem finishWrite_left {s : State} {j : StoreJob} (hj : s.store.job = some j) (h : 4 * j.done < j.data.length) :
    s.finishWrite = s := by
  have hc : j.complete = false := decide_eq_false (by omega)
  simp only [State.finishWrite, hj, hc, Bool.false_eq_true, if_false]

theorem finishWrite_done {s : State} {j : StoreJob} (hj : s.store.job = some j) (h : j.data.length ≤ 4 * j.done) :
    s.finishWrite = (({ s with store := { s.store with job := none } }).reply 27 j.tag { status := .ok, data := [] }).onEng
      (post (.storeDone j.offset j.data.length)) := by
  have hc : j.complete = true := decide_eq_true h
  simp only [State.finishWrite, hj, hc, if_true]

theorem storeWordComplete_interrupted {s : State} (hp : s.powered = true) {a : Nat} {w : List Byte}
    (h : s.store.interrupted = some (a, w)) :
    exec .storeWordComplete s = .next { s with
      store := finishInterrupted (Config.interruptedWordTakesNew s.freeCount) s.store, freeCount := s.freeCount + 1 } := by
  rw [show exec .storeWordComplete s = _ from stateRow_on hp _, State.wordComplete, h]
  rfl

theorem storeWordComplete_programs {s : State} (hp : s.powered = true) (h : s.store.interrupted = none) :
    exec .storeWordComplete s = .next (if s.eng.clk.frameOpen then { s with store := programWord s.store }.finishWrite
      else { s with store := programWord s.store }) := by
  rw [show exec .storeWordComplete s = _ from stateRow_on hp _, State.wordComplete, h]
  rfl

/-! ## Setups -/

/-- A list that is empty holds no entry. -/
theorem findUser_empty {cells : List Host.Cell} (h : cellRead cells 512 = 0) (k0 k1 : Byte) :
    findUser cells k0 k1 = .absent := by
  unfold findUser
  rw [show Config.storeSize = 4095 + 1 from rfl, findEntry, if_neg (by decide), if_pos (by exact h)]

/-- An entry that stands first in the list is found. -/
theorem findUser_first {cells : List Host.Cell} {k0 k1 len : Byte} {v : List Byte} (hk : k0 ≠ 0) (h0 : cellRead cells 512 = k0)
    (h1 : cellRead cells 513 = k1) (h2 : cellRead cells 514 = len) (hv : storeBytes cells len.toNat 515 = v) :
    findUser cells k0 k1 = .value v := by
  have hlen : len.toNat < 256 := len.isLt
  unfold findUser
  rw [show Config.storeSize = 4095 + 1 from rfl, show Config.userBase = 512 from rfl, findEntry, if_neg (by decide)]
  simp only [storeByte, h0, h1, h2, if_neg hk, and_self, if_true]
  rw [if_neg (by decide), if_neg (by omega), hv]

/-- What follows the messages of a setup is none: a lone byte, or a message cut short. -/
def cutShort (more : List Byte) : Prop :=
  more.length = 1 ∨ ∃ kind len left, more = kind :: len :: left ∧ left.length < len.toNat

theorem embedded_cutShort {more : List Byte} (h : cutShort more) (fuel : Nat) : embedded fuel more = none := by
  rcases h with h | ⟨kind, len, left, rfl, hlen⟩
  · obtain ⟨x, rfl⟩ := List.length_eq_one_iff.1 h
    cases fuel <;> rfl
  · cases fuel with
    | zero => rfl
    | succ fuel => exact if_pos hlen

theorem setupValue_length (msgs : List (Byte × List Byte)) : msgs.length ≤ (setupValue msgs).length := by
  induction msgs with
  | nil => exact Nat.le_refl 0
  | cons m rest ih =>
    simp only [setupValue, List.flatMap_cons, List.length_append, List.length_cons] at ih ⊢
    omega

/-- The messages of a setup, executed until one is not OK. -/
theorem runEmbedded_stops (msgs : List (Byte × List Byte)) (i : Nat) (through : Nat → Engine) (n : Nat) (q : Byte × List Byte)
    (h : ∀ j m, j < n → msgs[j]? = some m → (configCommand m.1.toNat m.2 (through (i + j))).1 = through (i + j + 1)
      ∧ (configCommand m.1.toNat m.2 (through (i + j))).2.status = .ok)
    (hq : msgs[n]? = some q) (hs : (configCommand q.1.toNat q.2 (through (i + n))).2.status ≠ .ok) :
    runEmbedded i msgs (through i)
      = ((configCommand q.1.toNat q.2 (through (i + n))).1, (configCommand q.1.toNat q.2 (through (i + n))).2.status,
          ((i + n : Nat) : Int)) := by
  induction msgs generalizing i n with
  | nil => simp at hq
  | cons m rest ih =>
    obtain ⟨kind, payload⟩ := m
    cases n with
    | zero =>
      obtain rfl : (kind, payload) = q := by simpa using hq
      simp only [Nat.add_zero] at hs ⊢
      exact if_neg hs
    | succ n =>
      have hshift : ∀ j, i + 1 + j = i + (j + 1) := fun j => by omega
      obtain ⟨heng, hok⟩ := h 0 (kind, payload) (Nat.succ_pos n) rfl
      simp only [Nat.add_zero] at heng hok
      simp only [runEmbedded, hok, if_true, heng]
      rw [ih (i + 1) n (fun j m hj hm => ?_) (by simpa using hq) (by rwa [hshift]), hshift]
      rw [hshift]
      exact h (j + 1) m (by omega) (by simpa using hm)

theorem setupRuns_step {msgs : List (Byte × List Byte)} {n : Nat} {through : Nat → Engine} (h : setupRuns msgs n through)
    {j : Nat} {m : Byte × List Byte} (hj : j < n) (hm : msgs[j]? = some m) :
    (configCommand m.1.toNat m.2 (through j)).1 = through (j + 1)
      ∧ (configCommand m.1.toNat m.2 (through j)).2.status = .ok := by
  have hrun := h j m hj hm
  exact ⟨congrArg Prod.fst hrun, congrArg (fun o => o.2.status) hrun⟩

section
variable {cells : List Host.Cell} {k0 k1 : Byte} {e : Engine}

theorem applySetup_absent (h : findUser cells k0 k1 = .absent) : applySetup cells k0 k1 e = (e, .notFound, -1) := by
  simp only [applySetup, h]

theorem applySetup_malformed (h : findUser cells k0 k1 = .malformed) : applySetup cells k0 k1 e = (e, .badStore, -1) := by
  simp only [applySetup, h]

variable {msgs : List (Byte × List Byte)} (hmsgs : ∀ m ∈ msgs, m.2.length ≤ 255)
include hmsgs

theorem applySetup_cutShort {more : List Byte} (h : findUser cells k0 k1 = .value (setupValue msgs ++ more))
    (hcut : cutShort more) : applySetup cells k0 k1 e = (e, .badStore, -1) := by
  have hlen : msgs.length ≤ (setupValue msgs ++ more).length := by
    rw [List.length_append]
    exact Nat.le_add_right_of_le (setupValue_length msgs)
  simp only [applySetup, h, embedded_setup msgs hmsgs more _ hlen, embedded_cutShort hcut, Option.map_none]

theorem applySetup_whole (h : findUser cells k0 k1 = .value (setupValue msgs)) :
    applySetup cells k0 k1 e = runEmbedded 0 msgs e := by
  have hall : embedded (setupValue msgs).length (setupValue msgs) = some msgs := by
    have hrun := embedded_setup msgs hmsgs [] (setupValue msgs).length (setupValue_length msgs)
    rw [List.append_nil] at hrun
    rw [hrun]
    cases (setupValue msgs).length - msgs.length <;> simp [embedded]
  simp only [applySetup, h, hall]

theorem applySetup_all {through : Nat → Engine} (h : findUser cells k0 k1 = .value (setupValue msgs))
    (hruns : setupRuns msgs msgs.length through) :
    applySetup cells k0 k1 (through 0) = (through msgs.length, .ok, -1) := by
  rw [applySetup_whole hmsgs h, runEmbedded_all msgs 0 through fun j m hm => ?_, Nat.zero_add]
  rw [Nat.zero_add]
  exact setupRuns_step hruns (List.getElem?_eq_some_iff.1 hm).1 hm

theorem applySetup_stops {through : Nat → Engine} {n : Nat} {q : Byte × List Byte}
    (h : findUser cells k0 k1 = .value (setupValue msgs)) (hruns : setupRuns msgs n through) (hq : msgs[n]? = some q)
    (hs : (configCommand q.1.toNat q.2 (through n)).2.status ≠ .ok) :
    applySetup cells k0 k1 (through 0)
      = ((configCommand q.1.toNat q.2 (through n)).1, (configCommand q.1.toNat q.2 (through n)).2.status, (n : Int)) := by
  have hstop := runEmbedded_stops msgs 0 through n q (fun j m hj hm => ?_) hq (by rwa [Nat.zero_add])
  · rw [applySetup_whole hmsgs h, hstop, Nat.zero_add]
  · rw [Nat.zero_add]
    exact setupRuns_step hruns hj hm

end

/-- A setup of one FADE_SET that stands first in the list. -/
theorem applySetup_fadeSet {cells : List Host.Cell} {k0 k1 f0 f1 x0 x1 : Byte} (hk : k0 ≠ 0)
    (h : storeBytes cells 9 512 = [k0, k1, 6, 9, 4, f0, f1, x0, x1]) (e : Engine) :
    applySetup cells k0 k1 e = runEmbedded 0 [(9, [f0, f1, x0, x1])] e := by
  have hb : ∀ i (hi : i < 9), cellRead cells (512 + i) = ([k0, k1, 6, 9, 4, f0, f1, x0, x1] : List Byte)[i] := fun i hi => by
    simp only [← h, storeBytes_eq, List.getElem_map, List.getElem_range]
  have hv : storeBytes cells 6 515 = setupValue [(9, [f0, f1, x0, x1])] := by
    rw [storeBytes_eq]
    simp only [List.range_succ, List.range_zero, List.map_cons, List.map_nil, List.nil_append, List.cons_append]
    rw [show (515 : Nat) + 0 = 512 + 3 from rfl, show (515 : Nat) + 1 = 512 + 4 from rfl, show (515 : Nat) + 2 = 512 + 5 from rfl,
      show (515 : Nat) + 3 = 512 + 6 from rfl, show (515 : Nat) + 4 = 512 + 7 from rfl, show (515 : Nat) + 5 = 512 + 8 from rfl,
      hb 3 (by decide), hb 4 (by decide), hb 5 (by decide), hb 6 (by decide), hb 7 (by decide), hb 8 (by decide)]
    rfl
  exact applySetup_whole (by simp) (findUser_first (len := 6) hk (hb 0 (by decide)) (hb 1 (by decide)) (hb 2 (by decide)) hv)

/-- What the setup of one FADE_SET answers: the two lengths clamped, CLAMPED by its first message when one was out of
range. -/
theorem runEmbedded_fadeSet (f0 f1 x0 x1 : Byte) (e : Engine) :
    let f := within 32 4096 (word16 f0 f1)
    let x := within 32 256 (word16 x0 x1)
    runEmbedded 0 [(9, [f0, f1, x0, x1])] e
      = ({ e with mix := { e.mix with fade := f, cross := x } },
          if f = word16 f0 f1 ∧ x = word16 x0 x1 then (.ok, -1) else (.clamped, 0)) := by
  intro f x
  have hcmd : configCommand (9 : Byte).toNat [f0, f1, x0, x1] e = fadeSet [f0, f1, x0, x1] e := rfl
  have hin : (32 ≤ word16 f0 f1 ∧ word16 f0 f1 ≤ 4096 ∧ 32 ≤ word16 x0 x1 ∧ word16 x0 x1 ≤ 256)
      ↔ (f = word16 f0 f1 ∧ x = word16 x0 x1) := by
    simp only [f, x, within]
    omega
  simp only [runEmbedded, hcmd, fadeSet_sets, clampedUnless, if_congr hin rfl rfl]
  split
  case isTrue => rfl
  case isFalse => rfl

/-! ## STORE_APPLY -/

section
variable {s : State} {m : Message} {rest : List Message} {k0 k1 : Byte}

theorem storeApply_answers (h : s.Takes 28 m [k0, k1] rest) :
    exec .storeApply s = .next (s.answered m rest (storeApply [k0, k1] s.store s.eng).2.status
      (storeApply [k0, k1] s.store s.eng).2.data (storeApply [k0, k1] s.store s.eng).1) := by
  rw [show exec .storeApply s = _ from stateRow_takes h _]
  simp only [storeApplyWith, answerWith, h.whole, h.payload, Bool.false_eq_true, if_false]
  exact congrArg _ (reply_answered (s := s) (rest := rest) (by rw [h.kind]; decide) _ _)

theorem storeApply_tells {e : Engine} {st : Status} {i : Int} (h : s.Takes 28 m [k0, k1] rest) (hj : s.store.job = none)
    (ha : applySetup s.store.cells k0 k1 s.eng = (e, st, i)) :
    exec .storeApply s = .next (s.answered m rest st [natField st.code, .field i] e) := by
  rw [storeApply_answers h]
  simp only [storeApply, hj, Option.isSome_none, Bool.false_eq_true, if_false, ha]

end

/-- The part boots: the boot entry's setup, READY, and commands are taken from now on. -/
theorem bootSetupApply_boots {s : State} {e : Engine} {st : Status} {i : Int} (hp : s.powered = true)
    (hs : s.eng.clk.starting = true) (hf : s.eng.clk.frameOpen = true) (hi : s.store.interrupted = none)
    (ha : applySetup s.store.cells 0x42 0x53 s.eng = (e, st, i)) :
    exec .bootSetupApply s
      = .next (s.giving { e.reports (.ready st i) with clk := { e.clk with starting := false } }) := by
  have hdue : bootDue s.eng s.store = true := by simp only [bootDue, hs, hf, hi, Option.isNone_none, Bool.and_self]
  rw [show exec .bootSetupApply s = _ from stateRow_on hp _, settleBoot, if_pos hdue]
  simp only [State.onEng, bootApply, ha]
  rfl

end Sys2Proof.Machine

namespace Sys2Proof.Settled
open Sys2Proof.Machine

/-- Settles O37. -/
theorem storeWordComplete : Obligations.StoreWordComplete := by
  intro s hp
  refine ⟨fun j hc hi hj hd => ?_, fun a w hi => ?_⟩
  · intro at'
    refine ⟨cellWrites s.store.cells at' ((j.data.drop (4 * j.done)).take 4), cellRead_word hc j.data j.offset j.done hd,
      fun hlt => ?_, fun hlast hf => ?_⟩
    · rw [storeWordComplete_programs hp hi, programWord_left hj hd, finishWrite_left rfl (by simpa using by omega), ite_self]
    · rw [storeWordComplete_programs hp hi, programWord_left hj hd, if_pos hf, finishWrite_done rfl (by simpa using by omega)]
      rfl
  · rw [storeWordComplete_interrupted hp hi]
    cases Config.interruptedWordTakesNew s.freeCount with
    | false => exact ⟨s.store.cells, .inl rfl, by simp only [finishInterrupted, hi, Bool.false_eq_true, if_false]⟩
    | true => exact ⟨cellWrites s.store.cells a w, .inr rfl, by simp only [finishInterrupted, hi, if_true]⟩

/-- Settles O38: what each kind's row does, and the messages of the entry one after another. -/
theorem storeApply : Obligations.StoreApply := by
  refine ⟨fun kind hk => ?_, fun kind payload e hk => ?_, fun s m rest k0 k1 h => ?_⟩
  · simp only [List.mem_cons, List.not_mem_nil, or_false] at hk
    rcases hk with rfl | rfl | rfl | rfl | rfl | rfl | rfl | rfl | rfl | rfl | rfl | rfl | rfl | rfl | rfl
    all_goals exact ⟨_, rfl, fun s m rest payload h => commandRow_takes h (by decide) _⟩
  · unfold configCommand
    split
    case h_16 => rfl
    all_goals exact absurd (by decide) hk
  · intro tells found
    refine ⟨fun hj => ?_, fun hj => ⟨fun h0 => ?_, fun hf => ?_, fun hf => ?_, fun msgs hm => ⟨fun more hf hcut => ?_,
      fun through hf h0 => ⟨fun hruns => ?_, fun n q hruns hq => ?_⟩⟩, fun hk f0 f1 x0 x1 hb => ?_⟩⟩
    · rw [storeApply_answers h]
      simp only [Machine.storeApply, hj, if_true]
      rfl
    · exact storeApply_tells h hj (applySetup_absent (findUser_empty h0 k0 k1))
    · exact storeApply_tells h hj (applySetup_absent hf)
    · exact storeApply_tells h hj (applySetup_malformed hf)
    · exact storeApply_tells h hj (applySetup_cutShort hm hf hcut)
    · exact storeApply_tells h hj (h0 ▸ applySetup_all hm hf hruns)
    · exact fun hs => storeApply_tells h hj (h0 ▸ applySetup_stops hm hf hruns hq hs)
    · intro f x e
      have hrun := runEmbedded_fadeSet f0 f1 x0 x1 s.eng
      have htells := fun {st i} (hr : _ = (st, i)) => storeApply_tells (st := st) (i := i) h hj
        ((applySetup_fadeSet hk hb s.eng).trans (hrun.trans (congrArg (Prod.mk _) hr)))
      split
      case isTrue hin => exact htells (if_pos hin)
      case isFalse hout => exact htells (if_neg hout)

/-- Settles O12. -/
theorem bootSetupApply : Obligations.BootSetupApply := by
  intro s hp hs hf hi ready boots found
  have hboots : ∀ {e st i}, applySetup s.store.cells 0x42 0x53 s.eng = (e, st, i) → boots (ready st i e) :=
    fun ha => bootSetupApply_boots hp hs hf hi ha
  refine ⟨fun h0 => ?_, fun hf => ?_, fun hf => ?_, fun msgs hm => ⟨fun more hf hcut => ?_,
    fun through hf h0 => ⟨fun hruns => ?_, fun n q hruns hq => ?_⟩⟩, fun f0 f1 x0 x1 hb => ?_⟩
  · exact hboots (applySetup_absent (findUser_empty h0 _ _))
  · exact hboots (applySetup_absent hf)
  · exact hboots (applySetup_malformed hf)
  · exact hboots (applySetup_cutShort hm hf hcut)
  · exact hboots (h0 ▸ applySetup_all hm hf hruns)
  · exact fun hs => hboots (h0 ▸ applySetup_stops hm hf hruns hq hs)
  · intro f x e
    have hrun := runEmbedded_fadeSet f0 f1 x0 x1 s.eng
    have htells := fun {st i} (hr : _ = (st, i)) => hboots (st := st) (i := i)
      ((applySetup_fadeSet (by decide) hb s.eng).trans (hrun.trans (congrArg (Prod.mk _) hr)))
    split
    case isTrue hin => exact htells (if_pos hin)
    case isFalse hout => exact htells (if_neg hout)

end Sys2Proof.Settled
end

section
/-! The samples of the lanes and of the mixer (R137, R138, R156), and the receivers of a CYCLE boundary (R15 to R17, R68,
R70). -/

set_option Elab.async false

namespace Sys2Proof.Machine

/-! ## A lane's sample -/

/-- The lane's channel value lies in the range of a sample. -/
theorem Lane.value_eq (ln : Lane) (lr : Sample × Sample) :
    let chan : Int := match ln.channel with
      | .left => lr.1.toInt
      | .right => lr.2.toInt
      | .sum => (lr.1.toInt + lr.2.toInt) / 2
    ln.value lr = if ln.invert then min 8388607 (-chan) else chan := by
  intro chan
  obtain ⟨hl, hl'⟩ := sample_range lr.1
  obtain ⟨hr, hr'⟩ := sample_range lr.2
  have hval : ln.value lr = if ln.invert then clampInt (-8388608) 8388607 (-chan) else chan := by
    dsimp only [chan]
    unfold Lane.value
    cases ln.channel <;> rfl
  have hle : chan ≤ 8388607 := by
    dsimp only [chan]
    cases ln.channel with
    | left => exact hl'
    | right => exact hr'
    | sum => dsimp only; omega
  have hclamp : clampInt (-8388608) 8388607 (-chan) = min 8388607 (-chan) := by
    rw [clampInt_eq (by decide)]
    omega
  rw [hval, hclamp]

theorem laneSample_none {e : Engine} {ln : Lane} (h : ln.source = none) : laneSample e ln = 0 := by
  simp only [laneSample, h]

theorem lockLostDue_iff (q : Port) : lockLostDue q = true ↔ q.lock = .locked ∧ 4 ≤ q.bad := by
  simp [lockLostDue]

theorem laneSample_silent {e : Engine} {ln : Lane} {p : PortIx} (hs : ln.source = some p)
    (h : e.ports[p].lock ≠ .locked ∨ 4 ≤ e.ports[p].bad ∨ e.ports[p].filling = true) : laneSample e ln = 0 := by
  simp only [laneSample, hs]
  refine if_neg fun ⟨hlock, hfill, hlost⟩ => ?_
  rcases h with h | h | h
  · exact h hlock
  · exact Bool.false_ne_true (hlost.symm.trans ((lockLostDue_iff _).2 ⟨hlock, h⟩))
  · exact Bool.false_ne_true (hfill.symm.trans h)

theorem laneSample_heard {e : Engine} {ln : Lane} {p : PortIx} (hs : ln.source = some p)
    (hlock : e.ports[p].lock = .locked) (hbad : e.ports[p].bad < 4) (hfill : e.ports[p].filling = false) :
    laneSample e ln = sat24 (roundDiv (ln.value e.ports[p].last * ln.trim) 4096) := by
  have hlost : lockLostDue e.ports[p] = false := by
    rw [← Bool.not_eq_true, lockLostDue_iff]
    omega
  simp only [laneSample, hs]
  exact if_pos ⟨hlock, hfill, hlost⟩

/-! ## The frame's pair -/

/-- The live values once their envelopes have taken their step. -/
theorem stepLive_live (e : Engine) (l : LaneIx) :
    (stepLive e).mix.live[l]
      = { e.mix.live[l] with env := envStep (ceilDiv 4096 e.mix.fade) e.mix.live[l].target e.mix.live[l].env } := by
  simp only [stepLive, quadIxs, List.foldl_cons, List.foldl_nil, Fin.getElem_fin, upd_get]
  match l with
  | 0 | 1 | 2 | 3 => rfl

theorem tickWindow_computed (e : Engine) : (tickWindow e).mix.computed = e.mix.computed := by
  unfold tickWindow
  split <;> rfl

theorem mixFrame_computed (e : Engine) :
    (mixFrame e).mix.computed = some (sat24 (masterStep (sideSum .left (stepLive e)) e.mix.master),
      sat24 (masterStep (sideSum .right (stepLive e)) e.mix.master)) :=
  tickWindow_computed _

theorem sideSum_eq (side : Side) (e : Engine) :
    sideSum side (stepLive e)
      = (∑ l : LayerIx, e.voices[l].sample.toInt * e.layers[l].gain * panWeight side e.layers[l].pan * e.voices[l].env)
        + ∑ l : LaneIx, e.lanes[l].x.toInt * e.mix.live[l].gain * panWeight side e.mix.live[l].pan
            * envStep (ceilDiv 4096 e.mix.fade) e.mix.live[l].target e.mix.live[l].env := by
  rw [sideSum, layerIxs_sum, quadIxs_sum]
  simp only [voiceTerm, liveTerm, mixTerm, stepLive_live]
  rfl

/-! ## A CYCLE boundary -/

theorem dueWave_append (xs ys : List Cue) : dueWave (xs ++ ys) = max (dueWave xs) (dueWave ys) := by
  induction xs with
  | nil => simp [dueWave]
  | cons c rest ih => simp only [List.cons_append, dueWave, ih, Nat.max_assoc]

/-- The cues of a list that answer the predicate and are not due have counted one boundary in a wave. -/
def countedBy (p : Cue → Bool) (wave : Nat) (list : List Cue) : List Cue :=
  list.mapIdx fun i c => if p c = true ∧ 0 < c.remaining then c.counts wave (list.take i) else c

theorem countedBy_getElem? (p : Cue → Bool) (wave : Nat) (list : List Cue) (i : Nat) :
    (countedBy p wave list)[i]?
      = list[i]?.map fun c => if p c = true ∧ 0 < c.remaining then c.counts wave (list.take i) else c :=
  List.getElem?_mapIdx

theorem countedBy_none (wave : Nat) (list : List Cue) : countedBy (fun _ => false) wave list = list := by
  refine List.ext_getElem? fun i => ?_
  rw [countedBy_getElem?]
  simp

/-- Counting moves no due cue to a wave beyond those that a cue after it joins anyway. -/
theorem dueWave_countedBy (p : Cue → Bool) (wave : Nat) (list : List Cue) (i : Nat) :
    max wave (dueWave ((countedBy p wave list).take i)) = max wave (dueWave (list.take i)) := by
  induction i with
  | zero => rfl
  | succ i ih =>
    rw [List.take_add_one, List.take_add_one, dueWave_append, dueWave_append, countedBy_getElem?, ← Nat.max_assoc, ih, ← Nat.max_assoc]
    cases list[i]? with
    | none => rfl
    | some c =>
      simp only [Option.map_some, Option.toList_some, dueWave, Nat.max_zero]
      split
      case isTrue h =>
        obtain ⟨-, h⟩ := h
        have hjoins : ∀ w : Nat, max w (if c.remaining - 1 = 0 then w else 0) = max w 0 := fun w => by
          split_ifs <;> omega
        simp only [Cue.counts, if_neg (show c.remaining ≠ 0 by omega)]
        exact hjoins _
      case isFalse => rfl

/-- A further boundary reaches the cues that await it, none of which has counted one before. -/
theorem countList_countedBy {p : Cue → Bool} {b : Boundary} (h : ∀ c : Cue, c.awaits b = true → p c = false) (wave : Nat)
    (list : List Cue) :
    countList b wave (countedBy p wave list) = countedBy (fun c => p c || c.awaits b) wave list := by
  rw [countList_eq]
  refine List.ext_getElem? fun i => ?_
  rw [List.getElem?_mapIdx, countedBy_getElem?, countedBy_getElem?, Option.map_map]
  refine congrArg (fun f => Option.map f list[i]?) (funext fun c => ?_)
  have hwave : max wave (dueWave ((countedBy p wave list).take i)) = max wave (dueWave (list.take i)) :=
    dueWave_countedBy p wave list i
  simp only [Function.comp_apply, hwave]
  by_cases hb : c.awaits b = true
  · have hp := h c hb
    simp only [hp, hb, Bool.false_or, Bool.false_eq_true, false_and, if_false, true_and]
    exact if_congr (by rw [hb]; simp) rfl rfl
  · have hnot : ∀ d : Cue, d.awaits b = c.awaits b → d.count b (max wave (dueWave (list.take i))) = d :=
      fun d hd => Cue.count_not (fun hc => hb (hd ▸ hc.1)) _
    rw [Bool.not_eq_true] at hb
    simp only [hb, Bool.or_false]
    split
    · exact hnot _ (by cases b <;> rfl)
    · exact hnot c rfl

theorem followBeat_only (e : Engine) : ∃ fol heard, followBeat e = { e with fol := fol, heard := heard } := by
  obtain ⟨heard, h⟩ := onFollower_only (fun e => if e.fol.state = .tracking ∧ e.fol.coastDue = false then
    { e with fol := { e.fol with beatCount := min 64 (e.fol.beatCount + 1),
                                 coastDue := decide (e.fol.coastBeats ≤ e.fol.beatCount + 1) } }
    else e) e
  rw [show followBeat e = _ from h]
  split
  · exact ⟨_, _, rfl⟩
  · exact ⟨_, _, rfl⟩

/-- What a CYCLE boundary that no layer receives touches. -/
theorem bareBoundary_only (wave : Nat) (e : Engine) : ∃ fol heard,
    bareBoundary wave e = { e with
      fol := fol, heard := heard, mix := { e.mix with clipReported := false }
      cues := { e.cues with list := countList .beat wave (countList .cycle wave e.cues.list) }
      evq := queueReport (.beat e.cyc.beat) e.cyc.k e.cyc.p e.evq } := by
  obtain ⟨fol, heard, h⟩ := followBeat_only (countCues .beat wave (post (.beat e.cyc.beat)
    (countCues .cycle wave { e with mix := { e.mix with clipReported := false } })))
  exact ⟨fol, heard, h⟩

theorem wrapsNow_iff (e : Engine) (l : LayerIx) :
    wrapsNow e l = true ↔ ∃ n, e.layers[l].mult = some n ∧ e.cyc.m % n = 0 := by
  unfold wrapsNow
  cases e.layers[l].mult with
  | none => simp
  | some n => simp

/-- The LAYER boundaries of a list of layers, in its order. -/
theorem layerBoundary_foldl (wave : Nat) (ls : List LayerIx) (e : Engine) : ∃ heard,
    ls.foldl (fun e l => if wrapsNow e l then layerBoundary wave l e else e) e = { e with
      heard := heard
      cues := { e.cues with list := (ls.filter (wrapsNow e)).foldl (fun list l => countList (.layer l) wave list) e.cues.list }
      evq := (ls.filter (wrapsNow e)).foldl (fun q l => queueReport (.wrap l) e.cyc.k e.cyc.p q) e.evq } := by
  induction ls generalizing e with
  | nil => exact ⟨e.heard, rfl⟩
  | cons l rest ih =>
    rw [List.foldl_cons]
    cases hw : wrapsNow e l with
    | false =>
      rw [List.filter_cons_of_neg (by rw [hw]; exact Bool.false_ne_true)]
      exact ih e
    | true =>
      rw [List.filter_cons_of_pos hw]
      obtain ⟨heard, h⟩ := ih (layerBoundary wave l e)
      exact ⟨heard, h⟩

/-- The cue waits for a boundary of the cycle, or for one of these layers. -/
def awaitsAny (ls : List LayerIx) (c : Cue) : Bool :=
  c.awaits .cycle || c.awaits .beat || ls.any fun l => c.awaits (.layer l)

theorem awaitsAny_iff (ls : List LayerIx) (c : Cue) :
    awaitsAny ls c = true ↔ c.quantum = .cycle ∨ c.quantum = .beat ∨ (c.quantum = .layer ∧ ∃ l ∈ ls, c.target = .layer l) := by
  simp only [awaitsAny, Cue.awaits, Bool.or_eq_true, beq_iff_eq, List.any_eq_true, Bool.and_eq_true]
  constructor
  · rintro ((h | h) | ⟨l, hl, hq, ht⟩)
    · exact .inl h
    · exact .inr (.inl h)
    · exact .inr (.inr ⟨hq, l, hl, ht⟩)
  · rintro (h | h | ⟨hq, l, hl, ht⟩)
    · exact .inl (.inl h)
    · exact .inl (.inr h)
    · exact .inr ⟨l, hl, hq, ht⟩

theorem countLayers_countedBy (wave : Nat) (list : List Cue) (ls seen : List LayerIx) (hn : (seen ++ ls).Nodup) :
    ls.foldl (fun list l => countList (.layer l) wave list) (countedBy (awaitsAny seen) wave list)
      = countedBy (awaitsAny (seen ++ ls)) wave list := by
  induction ls generalizing seen with
  | nil => rw [List.append_nil, List.foldl_nil]
  | cons l rest ih =>
    have hfresh : ∀ c : Cue, c.awaits (.layer l) = true → awaitsAny seen c = false := fun c hc => by
      simp only [Cue.awaits, Bool.and_eq_true, beq_iff_eq] at hc
      obtain ⟨hq, ht⟩ := hc
      rw [← Bool.not_eq_true, awaitsAny_iff, hq, ht]
      rintro (h | h | ⟨-, k, hk, htk⟩)
      · exact Quantum.noConfusion h
      · exact Quantum.noConfusion h
      · obtain rfl := Target.layer.inj htk
        exact (List.nodup_append.1 hn).2.2 l hk l List.mem_cons_self rfl
    have hgrow : (fun c : Cue => awaitsAny seen c || c.awaits (.layer l)) = awaitsAny (seen ++ [l]) := by
      funext c
      simp only [awaitsAny, List.any_append, List.any_cons, List.any_nil, Bool.or_false, Bool.or_assoc]
    rw [List.foldl_cons, countList_countedBy hfresh, hgrow, ih (seen ++ [l]) (by simpa using hn), List.append_assoc]
    rfl

theorem countBare_countedBy (wave : Nat) (list : List Cue) :
    countList .beat wave (countList .cycle wave list) = countedBy (awaitsAny []) wave list := by
  have hcycle : countList .cycle wave list = countedBy (fun c => false || c.awaits .cycle) wave list := by
    rw [← countList_countedBy (fun _ _ => rfl), countedBy_none]
  have hbeat : ∀ c : Cue, c.awaits .beat = true → (false || c.awaits .cycle) = false := fun c hc => by
    simp only [Cue.awaits, beq_iff_eq] at hc
    simp [Cue.awaits, hc]
  rw [hcycle, countList_countedBy hbeat]
  simp only [Bool.false_or]
  congr 1
  funext c
  simp [awaitsAny]

/-- A CYCLE boundary, in the words of its receivers: the clip flag, the cues, the reports and the follower. -/
theorem cycleBoundary_only (wave : Nat) (e : Engine) : ∃ fol heard,
    cycleBoundary wave e = { e with
      fol := fol, heard := heard, mix := { e.mix with clipReported := false }
      cues := { e.cues with list := countedBy (awaitsAny (layerIxs.filter (wrapsNow e))) wave e.cues.list }
      evq := (layerIxs.filter (wrapsNow e)).foldl (fun q l => queueReport (.wrap l) e.cyc.k e.cyc.p q)
        (queueReport (.beat e.cyc.beat) e.cyc.k e.cyc.p e.evq) } := by
  obtain ⟨fol, heard, hbare⟩ := bareBoundary_only wave e
  obtain ⟨heard', hlayers⟩ := layerBoundary_foldl wave layerIxs (bareBoundary wave e)
  have hcount := countLayers_countedBy wave e.cues.list (layerIxs.filter (wrapsNow e)) [] (layerIxs_nodup.filter _)
  rw [← countBare_countedBy, List.nil_append] at hcount
  refine ⟨fol, heard', ?_⟩
  rw [show cycleBoundary wave e = _ from hlayers, hbare]
  simp only [← hcount]
  rfl

end Sys2Proof.Machine

namespace Sys2Proof.Settled
open Sys2Proof.Machine

/-- Settles O60. -/
theorem laneAndMixSamples : Obligations.LaneAndMixSamples := by
  refine ⟨fun e ln => ⟨fun h => ?_, fun p hs hlock hbad hfill => ?_⟩, fun e => ?_⟩
  · rcases h with h | ⟨p, hs, h⟩
    · exact laneSample_none h
    · exact laneSample_silent hs h
  · intro lr chan value
    refine ⟨roundDiv (value * ln.trim) 4096, roundDiv_rounded _ _ (by decide), ?_⟩
    rw [laneSample_heard hs hlock hbad hfill, show ln.value e.ports[p].last = value from Lane.value_eq ln lr, sat24_toInt]
  · intro env sum
    refine ⟨masterStep (sideSum .left (stepLive e)) e.mix.master, masterStep (sideSum .right (stepLive e)) e.mix.master, _, _,
      mixFrame_computed e, ?_, ?_, sat24_toInt _, sat24_toInt _⟩
    · rw [sideSum_eq]
      exact roundDiv_rounded _ _ (by decide)
    · rw [sideSum_eq]
      exact roundDiv_rounded _ _ (by decide)

/-- Settles O41: the cues that wait for some boundary of the cycle count one, each in no earlier wave than the due cues older
than it. -/
theorem cycleBoundaryReceived : Obligations.CycleBoundaryReceived := by
  intro wave e wraps
  obtain ⟨fol, heard, h⟩ := cycleBoundary_only wave e
  have hmem : ∀ l, l ∈ layerIxs.filter (wrapsNow e) ↔ wraps l := fun l => by
    rw [List.mem_filter, wrapsNow_iff]
    exact and_iff_right (mem_layerIxs l)
  rw [h]
  refine ⟨rfl, fun i c hc => ?_, layerIxs.filter (wrapsNow e), layerIxs_pairwise.filter _, hmem, rfl⟩
  have hwaits : awaitsAny (layerIxs.filter (wrapsNow e)) c = true
      ↔ c.quantum = .cycle ∨ c.quantum = .beat ∨ (c.quantum = .layer ∧ ∃ l, c.target = .layer l ∧ wraps l) := by
    simp only [awaitsAny_iff, hmem, and_comm]
  rw [← hwaits, countedBy_getElem?, hc, Option.map_some]
  exact ⟨fun h => congrArg some (if_pos h), fun h => congrArg some (if_neg h)⟩

end Sys2Proof.Settled
end

section
/-! CUE (R44, R61 to R66): what a payload asks for, what the cues superseded leave, and the cue that joins the queue. -/

set_option Elab.async false

namespace Sys2Proof.Machine

/-! ## The codes of a cue -/

theorem Target.code_cases (t : Target) : (t = .all ∧ t.code = 255) ∨ (t ≠ .all ∧ t.code < 16) := by
  cases t with
  | all => exact .inl ⟨rfl, rfl⟩
  | layer l => exact .inr ⟨nofun, l.isLt⟩

theorem target?_some {x : Nat} {t : Target} (h : target? x = some t) : t.code = x := by
  unfold target? at h
  split at h
  · cases h
    exact Eq.symm ‹_›
  · obtain ⟨l, hl, rfl⟩ := Option.map_eq_some_iff.1 h
    unfold ix? at hl
    split at hl
    · cases hl
      rfl
    · cases hl

theorem target?_code (t : Target) : target? (byte t.code).toNat = some t := by
  cases t with
  | all => rfl
  | layer l =>
    have hl : (byte (Target.layer l).code).toNat = l.val := byte_small (Nat.lt_trans l.isLt (by decide))
    rw [hl, target?, if_neg (by have := l.isLt; omega), ix?_val]
    rfl

theorem quantum?_some {x : Nat} {q : Quantum} (h : quantum? x = some q) : q.code = x := by
  unfold quantum? at h
  split at h <;> cases h <;> rfl

theorem quantum?_code (q : Quantum) : quantum? (byte q.code).toNat = some q := by cases q <;> rfl

theorem Quantum.code_cases (q : Quantum) :
    q.code ≤ 4 ∧ (q = .immediate ↔ q.code = 0) ∧ (q = .onset ↔ q.code = 1) ∧ (q = .layer ↔ q.code = 4) := by
  cases q <;> decide

theorem Action.code_le (a : Action) : a.code ≤ 15 := by cases a <;> exact Nat.le_of_ble_eq_true rfl

theorem Action.onAll_iff (a : Action) : a.onAll = true ↔ 11 ≤ a.code := by cases a <;> simp [Action.onAll, Action.code]

theorem Action.resume_iff (a : Action) : a = .resume ↔ a.code = 14 := by cases a <;> simp [Action.code]

theorem Action.records_iff (a : Action) : a.records = true ↔ a.code = 0 := by cases a <;> simp [Action.records, Action.code]

theorem Action.code_byte (a : Action) : (byte a.code).toNat = a.code := byte_small (Nat.lt_of_le_of_lt a.code_le (by decide))

theorem ix?_isSome {n x : Nat} {i : Fin n} (h : ix? n x = some i) : x < n := by
  unfold ix? at h
  split at h
  · assumption
  · cases h

/-- An action that a payload asks for has its code; a RECORD has a multiple and a lane, an OVERDUB a lane. -/
theorem action?_some {code : Nat} {b : List Byte} {a : Action} (h : action? code b = some a) :
    a.code = code ∧ (code = 0 → legalMultiple (fieldAt b 4 1) = true ∧ fieldAt b 5 1 < 4)
      ∧ (code = 2 → fieldAt b 4 1 < 4) := by
  unfold action? at h
  split at h
  case h_1 =>
    split at h
    next lane hl =>
      split at h
      · cases h
        exact ⟨rfl, fun _ => ⟨‹_›, ix?_isSome hl⟩, nofun⟩
      · cases h
    · cases h
  case h_3 =>
    split at h
    next lane hl =>
      cases h
      exact ⟨rfl, nofun, fun _ => ix?_isSome hl⟩
    · cases h
  case h_17 => cases h
  all_goals
    cases h
    exact ⟨rfl, nofun, nofun⟩

/-! ## What no CUE may ask for -/

/-- Checks 3 to 5 of R63 in the words of the statements. -/
theorem CueAsk.suits_iff (a : CueAsk) : a.suits = true ↔ a.action.suits a.target a.quantum a.count := by
  have hall : (a.action.onAll = (a.target == Target.all))
      ↔ ((a.action = .stopAll ∨ a.action = .playAll ∨ a.action = .pause ∨ a.action = .resume ∨ a.action = .clearAll)
        ↔ a.target = .all) := by
    rw [Bool.eq_iff_iff, beq_iff_eq]
    refine iff_congr ?_ Iff.rfl
    cases a.action <;> simp [Action.onAll]
  have hcount : (a.quantum == .immediate || (decide (1 ≤ a.count) && decide (a.count ≤ 4))) = true
      ↔ a.quantum = .immediate ∨ (1 ≤ a.count ∧ a.count ≤ 4) := by simp
  have hlayer : (!(a.quantum == .layer && (a.target == .all || a.action.code == 0))) = true
      ↔ ¬(a.quantum = .layer ∧ (a.target = .all ∨ a.action.records = true)) := by
    rw [Action.records_iff]
    simp [imp_iff_not_or]
  have hresume : (!(a.action == .resume && a.quantum != .immediate && a.quantum != .onset)) = true
      ↔ (a.action = .resume → a.quantum = .immediate ∨ a.quantum = .onset) := by
    simp only [Bool.not_eq_true', Bool.and_eq_false_iff, beq_eq_false_iff_ne, bne_eq_false_iff_eq, imp_iff_not_or, or_assoc, ne_eq]
  rw [CueAsk.suits, Bool.and_eq_true, Bool.and_eq_true, Bool.and_eq_true, beq_iff_eq, hall, hcount, hlayer, hresume,
    and_assoc, and_assoc]
  rfl

theorem cueAsk?_some {b : List Byte} {k : CueAsk} (h : cueAsk? b = some k) :
    target? (fieldAt b 0 1) = some k.target ∧ action? (fieldAt b 1 1) b = some k.action
      ∧ quantum? (fieldAt b 2 1) = some k.quantum ∧ k.count = fieldAt b 3 1 ∧ k.suits = true := by
  unfold cueAsk? at h
  split at h
  next t a q ht ha hq =>
    dsimp only at h
    split at h
    next hs =>
      cases h
      exact ⟨ht, ha, hq, rfl, hs⟩
    · cases h
  · cases h

theorem fieldAt_args (t a q n : Byte) (args : List Byte) (i : Nat) :
    fieldAt (t :: a :: q :: n :: args) (i + 4) 1 = (args.getD i 0).toNat := by
  rw [fieldAt_getD, List.getD_eq_getElem?_getD]
  rfl

theorem outOfRangeCue_none {b : List Byte} (h : outOfRangeCue b) : cueAsk? b = none := by
  match b with
  | [] | [_] | [_, _] | [_, _, _] => exact h.elim
  | t :: a :: q :: n :: args =>
    cases hask : cueAsk? (t :: a :: q :: n :: args) with
    | none => rfl
    | some k =>
      obtain ⟨ht, ha, hq, hn, hs⟩ := cueAsk?_some hask
      have ht := target?_some ht
      obtain ⟨ha, hrec, hover⟩ := action?_some ha
      have hq := quantum?_some hq
      rw [fieldAt_byte] at ht
      rw [fieldAt_later, fieldAt_byte] at ha hrec hover
      rw [fieldAt_later, fieldAt_later, fieldAt_byte] at hq
      rw [fieldAt_later, fieldAt_later, fieldAt_later, fieldAt_byte] at hn
      rw [fieldAt_args t a q n args 0, fieldAt_args t a q n args 1] at hrec
      rw [fieldAt_args t a q n args 0] at hover
      obtain ⟨hall, hcount, hlayer, hresume⟩ := k.suits_iff.1 hs
      have hall : 11 ≤ k.action.code ↔ k.target = .all := by
        rw [← hall, ← Action.onAll_iff]
        cases k.action <;> simp [Action.onAll]
      rw [Action.records_iff] at hlayer
      rw [Action.resume_iff] at hresume
      have hcode := k.action.code_le
      obtain ⟨hq4, himm, hons, hlay⟩ := k.quantum.code_cases
      rw [himm] at hcount
      rw [hlay] at hlayer
      rw [himm, hons] at hresume
      exfalso
      have hkinds := k.target.code_cases
      rcases h with h | h | h | h | h | h | h | h | ⟨h0, h | h⟩ | h
      · omega
      · omega
      · omega
      · have : k.target = .all := hall.1 (by omega)
        rcases hkinds with ⟨-, hk⟩ | ⟨hk, -⟩
        · omega
        · exact hk this
      · rcases hkinds with ⟨hk, -⟩ | ⟨-, hk⟩
        · have := hall.2 hk
          omega
        · omega
      · omega
      · obtain ⟨h4, h | h⟩ := h
        · refine hlayer ⟨by omega, .inl ?_⟩
          rcases hkinds with ⟨hk, -⟩ | ⟨-, hk⟩
          · exact hk
          · omega
        · exact hlayer ⟨by omega, .inr (by omega)⟩
      · have := hresume (by omega)
        omega
      · exact h ((legalMultiple_iff _).1 (hrec h0).1)
      · have := (hrec h0).2
        omega
      · have := hover h.1
        omega

/-! ## What a CUE asks for -/

/-- The arguments of an action, read back from the payload; a level or a feedback out of range is clamped. -/
theorem action?_asked {a : Action} {args : List Byte} (h : a.asked args) (t x q n : Byte) :
    action? a.code (t :: x :: q :: n :: args) = some a
      ∧ clampStatus (cueClamped a.code (t :: x :: q :: n :: args)) = clampedUnless (weightsInRange args = true)
      ∧ (t :: x :: q :: n :: args).length ∈ cueLength a.code := by
  have hplain : ∀ c : Nat, c ≠ 2 → cueClamped c [t, x, q, n] = false := fun c hc => by
    simp only [cueClamped, beq_eq_false_iff_ne.2 hc, Bool.false_and]
  cases a with
  | record m lane =>
    obtain ⟨hm, rfl⟩ := h
    have hsmall : (byte m).toNat = m := by
      refine byte_small ?_
      have := (legalMultiple_iff m).1 hm
      simp only [List.mem_cons, List.not_mem_nil, or_false] at this
      omega
    refine ⟨?_, rfl, by simp [cueLength, Action.code]⟩
    simp only [Action.code, action?, fieldAt_args t x q n _ 0, fieldAt_args t x q n _ 1, List.getD_cons_succ, List.getD_cons_zero,
      hsmall, ix?_byte lane, hm, if_true]
  | overdub lane level feedback =>
    obtain ⟨v0, v1, f0, f1, rfl, rfl, rfl⟩ := h
    refine ⟨?_, ?_, by simp [cueLength, Action.code]⟩
    · simp only [Action.code, action?, fieldAt_later, fieldAt_byte, fieldAt_word16, ix?_byte lane, clampNat_zero]
    · simp only [Action.code, cueClamped, weightsInRange, fieldAt_later, fieldAt_word16, clampStatus, clampedUnless,
        decide_eq_true_eq, beq_self_eq_true, Bool.true_and, Bool.or_eq_true]
      split <;> split <;> first | rfl | omega
  | _ =>
    obtain rfl : args = [] := h
    exact ⟨rfl, rfl, by simp [cueLength, Action.code]⟩

/-- The cue a payload asks for. -/
theorem cueAsk?_asked {t : Target} {a : Action} {q : Quantum} {n : Byte} {args : List Byte} (ha : a.asked args)
    (hs : a.suits t q n.toNat) :
    cueAsk? (byte t.code :: byte a.code :: byte q.code :: n :: args)
      = some { target := t, action := a, quantum := q, count := n.toNat,
               changed := cueClamped a.code (byte t.code :: byte a.code :: byte q.code :: n :: args) } := by
  obtain ⟨hact, -, -⟩ := action?_asked ha (byte t.code) (byte a.code) (byte q.code) n
  simp only [cueAsk?, fieldAt_byte, fieldAt_later, target?_code, quantum?_code, Action.code_byte, hact]
  exact if_pos ((CueAsk.suits_iff _).2 hs)

/-! ## The prediction (R64) -/

theorem foretold_predicted (e : Engine) (l : LayerIx) :
    predicted e l = ((e.foretold l).1, (e.foretold l).2 && e.layers[l].undo.isSome, (e.foretold l).2 && e.layers[l].redo.isSome) := by
  unfold predicted Engine.foretold cueFor
  cases (e.cues.list.find? fun d => d.target == .all).map Cue.action with
  | none => rfl
  | some a => cases a <;> rfl

theorem stateAllows_iff (k : CueAsk) (e : Engine) : stateAllows k e = true ↔ e.accepts k.action k.target := by
  unfold stateAllows Engine.accepts
  cases k.target with
  | all => exact iff_of_true rfl nofun
  | layer l =>
    simp only [foretold_predicted, Target.layer.injEq, forall_eq']
    cases k.action <;> simp

theorem holdAllows_iff (k : CueAsk) (e : Engine) (hs : k.action.suits k.target k.quantum k.count) :
    holdAllows k e = true ↔ e.unheld k.action k.target := by
  have hall : k.action = .clearAll → k.target = .all := fun ha => hs.1.1 (by simp [ha])
  unfold holdAllows Engine.unheld
  cases ht : k.target with
  | all =>
    have hheld : anyHeld e = false ↔ ∀ l : LayerIx, e.layers[l].hold = .none := by
      simp [anyHeld, mem_layerIxs]
    rw [and_iff_left (by nofun), Bool.not_eq_true', Bool.and_eq_false_iff, beq_eq_false_iff_ne, hheld]
    exact imp_iff_not_or.symm
  | layer l =>
    have hno : k.action ≠ .clearAll := fun ha => by
      have := hall ha
      rw [ht] at this
      cases this
    rw [and_iff_right fun ha => absurd ha hno, Bool.not_eq_true', Bool.and_eq_false_iff, bne_eq_false_iff_eq]
    simp only [Target.layer.injEq, forall_eq']
    rw [imp_iff_not_or, Bool.not_eq_true]

/-! ## The cues superseded -/

/-- The cue is a RECORD of the layer, which is ARMED. -/
def disarms (e : Engine) (c : Cue) (l : LayerIx) : Bool :=
  decide (c.action.records = true ∧ c.target = .layer l ∧ e.layers[l].state = .armed)

/-- What a cue that is superseded reports: that it is, and its ARMED layer's return to EMPTY. -/
def supersedingTold (e : Engine) (by' : Nat) (c : Cue) : List Event :=
  .cueSuperseded c.number c.target c.action by'
    :: (layerIxs.filter (disarms e c)).map fun l => .layerState l .empty .cueRemoved c.number

/-- A layer back at EMPTY, its RECORD gone. -/
def Layer.disarmed (r : Layer) (k : Nat) : Layer := { r with state := .empty, hold := .none, lastChange := k }

theorem layerIxs_filter_eq (l : LayerIx) {p : LayerIx → Bool} (h : ∀ i, p i = true ↔ i = l) : layerIxs.filter p = [l] := by
  have hp : p = fun i => i == l := funext fun i => Bool.eq_iff_iff.2 ((h i).trans beq_iff_eq.symm)
  rw [hp]
  clear h hp
  revert l
  decide

theorem layerIxs_filter_none {p : LayerIx → Bool} (h : ∀ i, p i = false) : layerIxs.filter p = [] :=
  List.filter_eq_nil_iff.2 fun i _ hi => Bool.false_ne_true ((h i).symm.trans hi)

theorem Action.records_some {a : Action} (h : a.records = true) : ∃ n lane, a = .record n lane := by
  cases a with
  | record n lane => exact ⟨n, lane, rfl⟩
  | _ => cases h

/-- The layer of a RECORD that goes returns to EMPTY if it is ARMED. -/
theorem disarmFor_spec (c : Cue) (e : Engine) :
    ∃ layers : Vector Layer 16,
      (∀ l : LayerIx, layers[l] = if disarms e c l = true then e.layers[l].disarmed e.cyc.k else e.layers[l])
      ∧ disarmFor c e = { e with
          layers := layers
          evq := ((layerIxs.filter (disarms e c)).map fun l => Event.layerState l .empty .cueRemoved c.number).foldl
            (fun q ev => queueReport ev e.cyc.k e.cyc.p q) e.evq } := by
  by_cases h : ∃ l, disarms e c l = true
  · obtain ⟨l, hl⟩ := h
    obtain ⟨hrec, ht, harmed⟩ := of_decide_eq_true hl
    obtain ⟨n, lane, ha⟩ := Action.records_some hrec
    have honly : ∀ i, disarms e c i = true ↔ i = l := fun i => by
      constructor
      · intro hi
        obtain ⟨-, hti, -⟩ := of_decide_eq_true hi
        exact Target.layer.inj (hti.symm.trans ht)
      · rintro rfl
        exact hl
    refine ⟨upd e.layers l fun r => r.disarmed e.cyc.k, fun i => ?_, ?_⟩
    · refine (upd_get _ _ _ _).trans (if_congr ?_ rfl rfl)
      rw [honly]
      exact eq_comm
    · rw [disarmFor_record ha ht, disarm_armed harmed, layerIxs_filter_eq l honly]
      rfl
  · have hno : ∀ l, disarms e c l = false := fun l => Bool.eq_false_iff.2 fun hl => h ⟨l, hl⟩
    refine ⟨e.layers, fun l => by rw [hno l, if_neg Bool.false_ne_true], ?_⟩
    rw [layerIxs_filter_none hno, disarmFor_not fun l n lane ha ht harmed => ?_]
    · rfl
    · exact h ⟨l, decide_eq_true ⟨by rw [ha]; rfl, ht, harmed⟩⟩

theorem disarms_congr {e t : Engine} {c : Cue} (h : ∀ l, c.target = .layer l → t.layers[l] = e.layers[l]) (l : LayerIx) :
    disarms t c l = disarms e c l := by
  unfold disarms
  by_cases ht : c.target = .layer l
  · rw [h l ht]
  · simp only [ht, false_and, and_false]

/-- The cues of a list are superseded one after another: they leave the queue, their ARMED layers return to EMPTY. -/
theorem supersede_foldl (by' : Nat) (cs : List Cue) (hn : (cs.map Cue.target).Nodup) (e : Engine) :
    ∃ layers : Vector Layer 16,
      (∀ l : LayerIx, layers[l] = if cs.any (disarms e · l) = true then e.layers[l].disarmed e.cyc.k else e.layers[l])
      ∧ cs.foldl (fun e c => supersede by' c e) e = { e with
          layers := layers
          cues := { e.cues with list := e.cues.list.filter fun d => !(cs.map Cue.number).contains d.number }
          evq := (cs.flatMap (supersedingTold e by')).foldl (fun q ev => queueReport ev e.cyc.k e.cyc.p q) e.evq } := by
  induction cs generalizing e with
  | nil => exact ⟨e.layers, fun l => rfl, by simp⟩
  | cons c rest ih =>
    rw [List.map_cons, List.nodup_cons] at hn
    obtain ⟨hfresh, hrest⟩ := hn
    obtain ⟨layers1, hlayers1, h1⟩ := disarmFor_spec c (post (.cueSuperseded c.number c.target c.action by') (removeCue c.number e))
    generalize hd : (post (.cueSuperseded c.number c.target c.action by') (removeCue c.number e)) = d at h1 hlayers1
    have hdl : d.layers = e.layers := by rw [← hd]; rfl
    have hdc : d.cyc = e.cyc := by rw [← hd]; rfl
    have hdis : ∀ l, disarms d c l = disarms e c l := fun l => disarms_congr (fun l _ => by rw [hdl]) l
    have hsup : supersede by' c e = disarmFor c d := by rw [← hd]; rfl
    obtain ⟨layers, hlayers, h⟩ := ih hrest (disarmFor c d)
    have hlay1 : ∀ l : LayerIx, (disarmFor c d).layers[l]
        = if disarms e c l = true then e.layers[l].disarmed e.cyc.k else e.layers[l] := fun l => by
      rw [h1, ← hdis l, ← hdl, ← hdc]
      exact hlayers1 l
    have hcyc1 : (disarmFor c d).cyc = e.cyc := by rw [h1, ← hdc]
    have hother : ∀ x ∈ rest, ∀ l, disarms (disarmFor c d) x l = disarms e x l := fun x hx l =>
      disarms_congr (fun l ht => by
        rw [hlay1 l, if_neg fun hl => hfresh ?_]
        obtain ⟨-, htc, -⟩ := of_decide_eq_true hl
        rw [htc, ← ht]
        exact List.mem_map_of_mem hx) l
    have hany : ∀ l, rest.any (disarms (disarmFor c d) · l) = rest.any (disarms e · l) := fun l =>
      Bool.eq_iff_iff.2 (by
        simp only [List.any_eq_true]
        exact exists_congr fun x => and_congr_right fun hx => by rw [hother x hx l])
    have htold : rest.flatMap (supersedingTold (disarmFor c d) by') = rest.flatMap (supersedingTold e by') :=
      List.flatMap_congr fun x hx => by
        simp only [supersedingTold, funext (hother x hx)]
    refine ⟨layers, fun l => ?_, ?_⟩
    · rw [hlayers l, hany l, hlay1 l, hcyc1, List.any_cons]
      cases disarms e c l with
      | true => simp only [if_true, Bool.true_or, Layer.disarmed, ite_self]
      | false => simp only [Bool.false_eq_true, if_false, Bool.false_or]
    · rw [List.foldl_cons, hsup, h, htold, hcyc1, List.flatMap_cons, List.foldl_append]
      have hcues : (disarmFor c d).cues = { e.cues with list := e.cues.list.filter fun x => x.number != c.number } := by
        rw [h1, ← hd]
        rfl
      have hevq : (disarmFor c d).evq
          = (supersedingTold e by' c).foldl (fun q ev => queueReport ev e.cyc.k e.cyc.p q) e.evq := by
        rw [h1, show disarms d c = disarms e c from funext hdis, hdc, ← hd]
        rfl
      have hrest : disarmFor c d = { e with
          layers := (disarmFor c d).layers, cues := (disarmFor c d).cues, evq := (disarmFor c d).evq } := by
        rw [h1, ← hd]
        rfl
      have hlist : (e.cues.list.filter fun x => x.number != c.number).filter (fun x => !(rest.map Cue.number).contains x.number)
          = e.cues.list.filter fun x => !((c :: rest).map Cue.number).contains x.number := by
        rw [List.filter_filter]
        refine List.filter_congr fun x _ => ?_
        rw [List.map_cons, List.contains_cons, Bool.not_or, Bool.and_comm]
        rfl
      rw [hevq, hcues]
      dsimp only
      rw [hlist, hrest]

/-! ## The cue that joins the queue -/

theorem freeNumber_skips (pending : List Nat) : ∀ fuel n : Nat,
    ∃ k, freeNumber pending fuel n = succNumber^[k] n ∧ ∀ i < k, succNumber^[i] n ∈ pending
  | 0, n => ⟨0, rfl, nofun⟩
  | fuel + 1, n => by
    unfold freeNumber
    split
    case isTrue hn =>
      obtain ⟨k, hk, hall⟩ := freeNumber_skips pending fuel (succNumber n)
      refine ⟨k + 1, hk, fun i hi => ?_⟩
      cases i with
      | zero => exact hn
      | succ i => exact hall i (by omega)
    case isFalse => exact ⟨0, rfl, nofun⟩

/-- The EMPTY layer of a RECORD that joins the queue becomes ARMED. -/
def armsLayer (e : Engine) (a : Action) (t : Target) (l : LayerIx) : Bool :=
  decide (a.records = true ∧ t = .layer l ∧ e.layers[l].state = .empty)

theorem armFor_spec (k : CueAsk) (n : Nat) (e : Engine) :
    ∃ layers : Vector Layer 16,
      (∀ l : LayerIx, layers[l] = if armsLayer e k.action k.target l = true
        then { e.layers[l] with state := .armed, lastChange := e.cyc.k } else e.layers[l])
      ∧ armFor k n e = { e with
          layers := layers
          evq := ((layerIxs.filter (armsLayer e k.action k.target)).map fun l => Event.layerState l .armed .cue n).foldl
            (fun q ev => queueReport ev e.cyc.k e.cyc.p q) e.evq } := by
  by_cases h : ∃ l, armsLayer e k.action k.target l = true
  · obtain ⟨l, hl⟩ := h
    obtain ⟨hrec, ht, hempty⟩ := of_decide_eq_true hl
    obtain ⟨m, lane, ha⟩ := Action.records_some hrec
    have honly : ∀ i, armsLayer e k.action k.target i = true ↔ i = l := fun i => by
      constructor
      · intro hi
        obtain ⟨-, hti, -⟩ := of_decide_eq_true hi
        exact Target.layer.inj (hti.symm.trans ht)
      · rintro rfl
        exact hl
    have harm : armFor k n e = setLayerState l .armed .cue n e := by
      unfold armFor
      rw [ha, ht]
      exact if_pos hempty
    refine ⟨upd e.layers l fun r => { r with state := .armed, lastChange := e.cyc.k }, fun i => ?_, ?_⟩
    · refine (upd_get _ _ _ _).trans (if_congr ?_ rfl rfl)
      rw [honly]
      exact eq_comm
    · rw [harm, layerIxs_filter_eq l honly]
      rfl
  · have hno : ∀ l, armsLayer e k.action k.target l = false := fun l => Bool.eq_false_iff.2 fun hl => h ⟨l, hl⟩
    refine ⟨e.layers, fun l => by rw [hno l, if_neg Bool.false_ne_true], ?_⟩
    rw [layerIxs_filter_none hno]
    unfold armFor
    split
    case h_1 m lane l ha ht =>
      rw [if_neg fun hempty => h ⟨l, decide_eq_true ⟨by rw [ha]; rfl, ht, hempty⟩⟩]
      rfl
    · rfl

theorem superseded_eq (k : CueAsk) (e : Engine) :
    superseded k e = e.cues.list.filter fun d => decide (k.action = .clearAll ∨ d.target = k.target) := by
  unfold superseded
  split
  case isTrue h => exact (List.filter_eq_self.2 fun d _ => decide_eq_true (.inl h)).symm
  case isFalse h => exact List.filter_congr fun d _ => by simp [h, beq_eq_decide]

/-- The cues that stay are those that do not go, each of them bearing its own number. -/
theorem filter_number_notMem {list : List Cue} (hn : (list.map Cue.number).Nodup) (goes : Cue → Bool) :
    list.filter (fun d => !((list.filter goes).map Cue.number).contains d.number) = list.filter fun d => !goes d := by
  refine List.filter_congr fun d hd => congrArg _ (Bool.eq_iff_iff.2 ?_)
  rw [List.contains_iff_mem, List.mem_map]
  constructor
  · rintro ⟨c, hc, hcd⟩
    obtain ⟨hc, hg⟩ := List.mem_filter.1 hc
    obtain rfl := List.inj_on_of_nodup_map hn hc hd hcd
    exact hg
  · exact fun hg => ⟨d, List.mem_filter.2 ⟨hd, hg⟩, rfl⟩

theorem CueQueue.distinct_iff (q : CueQueue) :
    q.distinct = true ↔ (q.list.map Cue.number).Nodup ∧ q.nextNumber ∉ q.list.map Cue.number ∧ (q.list.map Cue.target).Nodup := by
  simp only [CueQueue.distinct, Bool.and_eq_true, decide_eq_true_eq, and_assoc]

/-- An accepted cue: the cues it supersedes are gone with their reports, it stands at the tail, and its EMPTY layer is
ARMED. -/
theorem acceptCue_spec (k : CueAsk) {e : Engine} (hd : e.cues.distinct = true) :
    let goes := fun d : Cue => decide (k.action = .clearAll ∨ d.target = k.target)
    let gone := e.cues.list.filter goes
    let cue : Cue :=
      { number := e.cues.nextNumber, action := k.action, target := k.target, quantum := k.quantum,
        remaining := if k.quantum = .immediate then 1 else k.count, deferrals := 0, wave := 0 }
    let list := e.cues.list.filter (fun d => !goes d) ++ [cue]
    let left := fun l : LayerIx => if gone.any (disarms e · l) = true then e.layers[l].disarmed e.cyc.k else e.layers[l]
    let arms := fun l : LayerIx => decide (k.action.records = true ∧ k.target = .layer l ∧ (left l).state = .empty)
    let told := gone.flatMap (supersedingTold e e.cues.nextNumber)
    let said := (layerIxs.filter arms).map fun l => Event.layerState l .armed .cue e.cues.nextNumber
    ∃ layers : Vector Layer 16,
      (∀ l : LayerIx, layers[l] = if arms l then { left l with state := .armed, lastChange := e.cyc.k } else left l)
      ∧ acceptCue k e
        = (grantHolds { e with
            cues := { list := list, nextNumber := freeNumber (list.map Cue.number) 13 (succNumber e.cues.nextNumber) }
            layers := layers
            evq := (told ++ said).foldl (fun q ev => queueReport ev e.cyc.k e.cyc.p q) e.evq },
          { status := clampStatus k.changed,
            data := [natField e.cues.nextNumber,
              natField (((e.cues.list.find? fun d => d.target == k.target).map Cue.number).getD 0), natField list.length] }) := by
  intro goes gone cue list left arms told said
  obtain ⟨hnumbers, -, htargets⟩ := (CueQueue.distinct_iff _).1 hd
  have hgone : superseded k e = gone := superseded_eq k e
  have hsub : (gone.map Cue.target).Nodup := htargets.sublist (List.filter_sublist.map _)
  obtain ⟨layers1, hlayers1, h1⟩ := supersede_foldl e.cues.nextNumber gone hsub e
  rw [filter_number_notMem hnumbers goes] at h1
  have happ : appendCue k e.cues.nextNumber (gone.foldl (fun e' c => supersede e.cues.nextNumber c e') e) = { e with
      layers := layers1
      cues := { list := list, nextNumber := freeNumber (list.map Cue.number) 13 (succNumber e.cues.nextNumber) }
      evq := told.foldl (fun q ev => queueReport ev e.cyc.k e.cyc.p q) e.evq } := by
    rw [h1]
    rfl
  obtain ⟨layers, hlayers, h2⟩ := armFor_spec k e.cues.nextNumber
    (appendCue k e.cues.nextNumber (gone.foldl (fun e' c => supersede e.cues.nextNumber c e') e))
  have harms : armsLayer (appendCue k e.cues.nextNumber (gone.foldl (fun e' c => supersede e.cues.nextNumber c e') e))
      k.action k.target = arms := by
    funext l
    rw [happ]
    have hleft : layers1[l] = left l := hlayers1 l
    simp only [armsLayer, arms, hleft]
  refine ⟨layers, fun l => ?_, ?_⟩
  · have hleft : layers1[l] = left l := hlayers1 l
    rw [hlayers l, harms, happ]
    simp only [hleft]
  · rw [harms, happ] at h2
    unfold acceptCue
    rw [hgone]
    dsimp only
    rw [grantHolds_cues, happ, h2, List.foldl_append]
    rfl

/-- The cue a payload asks for, by its parts. -/
def askedCue (t : Target) (a : Action) (q : Quantum) (n : Byte) (args : List Byte) : CueAsk :=
  { target := t, action := a, quantum := q, count := n.toNat,
    changed := cueClamped a.code (byte t.code :: byte a.code :: byte q.code :: n :: args) }

/-- The command, once its payload asks for a cue: the checks in their order, then the cue joins the queue. -/
theorem cueCommand_asked {t : Target} {a : Action} {q : Quantum} {n : Byte} {args : List Byte} (ha : a.asked args)
    (hs : a.suits t q n.toNat) (e : Engine) :
    cueCommand (byte t.code :: byte a.code :: byte q.code :: n :: args) e
      = if 12 ≤ e.cues.list.length then refuse .queueFull e
        else if holdAllows (askedCue t a q n args) e = false then refuse .layerHeld e
        else if stateAllows (askedCue t a q n args) e = false then refuse .wrongState e
        else acceptCue (askedCue t a q n args) e := by
  obtain ⟨-, -, hlen⟩ := action?_asked ha (byte t.code) (byte a.code) (byte q.code) n
  have hcode : fieldAt (byte t.code :: byte a.code :: byte q.code :: n :: args) 1 1 = a.code := by
    rw [fieldAt_later, fieldAt_byte, Action.code_byte]
  have hshort : ¬(byte t.code :: byte a.code :: byte q.code :: n :: args).length < 4 := by
    simp only [List.length_cons]
    omega
  unfold cueCommand
  rw [hcode, if_neg (not_or.2 ⟨not_not.2 hlen, hshort⟩), cueAsk?_asked ha hs]
  rfl

/-- A payload of a length that suits its action, which asks for no cue, is out of range. -/
theorem cueCommand_outOfRange {b : List Byte} (hl : legalLength 13 b = true) (hb : outOfRangeCue b) (e : Engine) :
    cueCommand b e = refuse .outOfRange e := by
  match b with
  | [] | [_] | [_, _] | [_, _, _] => exact hb.elim
  | t :: a :: q :: n :: args =>
    have hl : (cueLengths (t :: a :: q :: n :: args)).contains (t :: a :: q :: n :: args).length = true := hl
    rw [cueLengths_eq, List.contains_iff_mem] at hl
    have hshort : ¬(t :: a :: q :: n :: args).length < 4 := by
      simp only [List.length_cons]
      omega
    unfold cueCommand
    rw [if_neg (not_or.2 ⟨not_not.2 hl, hshort⟩), outOfRangeCue_none hb]

/-- The next cue number: none of the pending ones, and the first such one after the number given. -/
theorem nextNumber_spec {list : List Cue} (hlen : list.length ≤ 12) (number : Nat) :
    let next := freeNumber (list.map Cue.number) 13 (succNumber number)
    (∀ d ∈ list, d.number ≠ next)
      ∧ (1 ≤ number → number ≤ 65535 → ∃ k, next = (number + k) % 65535 + 1
        ∧ ∀ i < k, ∃ d ∈ list, d.number = (number + i) % 65535 + 1) := by
  intro next
  refine ⟨fun d hd hn => ?_, fun h1 h2 => ?_⟩
  · refine freeNumber_free (pending := list.map Cue.number) (by rwa [List.length_map]) number ?_
    exact List.mem_map.2 ⟨d, hd, hn⟩
  · obtain ⟨k, hk, hall⟩ := freeNumber_skips (list.map Cue.number) 13 (succNumber number)
    have hiter : ∀ i, succNumber^[i] (succNumber number) = (number + i) % 65535 + 1 := fun i => by
      rw [← Function.iterate_succ_apply, succNumber_iterate h1 h2]
      congr 2
      omega
    refine ⟨k, hk.trans (hiter k), fun i hi => ?_⟩
    rw [← hiter i]
    exact List.mem_map.1 (hall i hi)

end Sys2Proof.Machine

namespace Sys2Proof.Settled
open Sys2Proof.Machine

/-- Settles O27: the checks in their order, and what superseding, queueing and arming leave. -/
theorem cueAccepted : Obligations.CueAccepted := by
  refine ⟨fun s m rest b h hl hb => ?_, fun s m rest t a q n args h ha hs hd => ?_⟩
  · exact commandRow_refuses h (cueCommand_outOfRange hl hb _)
  · intro e full number cue goes gone list replaced disarms' left arms told said
    have hcmd := cueCommand_asked (t := t) (q := q) (n := n) ha hs e
    have hheld := holdAllows_iff (askedCue t a q n args) e hs
    have hstate := stateAllows_iff (askedCue t a q n args) e
    refine ⟨fun hf => ?_, fun hf hh => ?_, fun hf hh hst => ?_, fun hf hh hst => ?_⟩
    · exact commandRow_refuses h (hcmd.trans (if_pos hf))
    · exact commandRow_refuses h (hcmd.trans ((if_neg hf).trans (if_pos (Bool.eq_false_iff.2 (mt hheld.1 hh)))))
    · exact commandRow_refuses h (hcmd.trans ((if_neg hf).trans ((if_neg ((Bool.not_eq_false _).mpr (hheld.2 hh))).trans
        (if_pos (Bool.eq_false_iff.2 (mt hstate.1 hst))))))
    · obtain ⟨layers, hlayers, hacc⟩ := acceptCue_spec (askedCue t a q n args) hd
      have hlen : list.length ≤ 12 := by
        have hkept : (e.cues.list.filter fun d => !goes d).length ≤ e.cues.list.length := List.length_filter_le ..
        simp only [list, List.length_append, List.length_cons, List.length_nil]
        omega
      obtain ⟨hfree, hnext⟩ := nextNumber_spec hlen number
      have hst' : clampStatus (askedCue t a q n args).changed = clampedUnless (weightsInRange args = true) :=
        (action?_asked ha _ _ _ n).2.1
      rw [hst'] at hacc
      exact ⟨_, layers, hfree, hnext, hlayers, commandRow_answers h (hcmd.trans ((if_neg hf).trans
        ((if_neg ((Bool.not_eq_false _).mpr (hheld.2 hh))).trans
          ((if_neg ((Bool.not_eq_false _).mpr (hstate.2 hst))).trans hacc))))⟩

end Sys2Proof.Settled
end

section
/-! Cues put off for their lane, and cues that fail by the order of their checks (R71, R72, R169). -/

set_option Elab.async false

namespace Sys2Proof.Machine

section
variable {s : State} {c : Cue} {before after : List Cue} {want : Action → Bool}

/-! ## A cue that fails -/

theorem disarmFor_other (h : c.action.records = false) (e : Engine) : disarmFor c e = e :=
  disarmFor_not fun l j lane ha => by rw [ha] at h; cases h

/-- A cue other than a RECORD that fails with no effect of its own. -/
theorem cueRow_fails (h : s.Turn c before after) (hw : want c.action = true)
    (hl : ∀ l, c.action.lane? = some l → s.eng.lockedLane l) (hrec : c.action.records = false) {r : FailReason}
    (ha : actOn c (s.dequeued before after) = failed r (s.dequeued before after)) :
    cueRow want s = .next (s.cueFailed c r (s.dequeued before after)) := by
  rw [cueRow_failed h hw hl ha, disarmFor_other hrec]
  rfl

/-- A RECORD that fails on its ARMED layer. -/
theorem disarmFor_drops {n : Nat} {lane : LaneIx} {l : LayerIx} (ha : c.action = .record n lane) (ht : c.target = .layer l)
    {e : Engine} (harmed : e.layers[l].state = .armed) (r : FailReason) :
    ({ s with eng := grantHolds (disarmFor c (e.reports (.cueFailed c.number c.target c.action r))) } : State)
      = s.recordFailed c l r e := by
  rw [disarmFor_record ha ht, disarm_armed (by exact harmed)]
  rfl

/-- A RECORD that fails on a layer that is not ARMED. -/
theorem disarmFor_stays {l : LayerIx} (ht : c.target = .layer l) {e : Engine} (hnot : e.layers[l].state ≠ .armed)
    (r : FailReason) :
    ({ s with eng := grantHolds (disarmFor c (e.reports (.cueFailed c.number c.target c.action r))) } : State)
      = s.cueFailed c r e := by
  have hstays : disarmFor c (e.reports (.cueFailed c.number c.target c.action r))
      = e.reports (.cueFailed c.number c.target c.action r) := disarmFor_not fun k j lane _ htk => by
    obtain rfl := Target.layer.inj (htk.symm.trans ht)
    exact hnot
  rw [hstays]
  rfl

/-! ## The lane of a cue -/

theorem laneLocked_iff (e : Engine) (l : LaneIx) : laneLocked e l = true ↔ e.lockedLane l := by
  unfold laneLocked Engine.lockedLane
  cases e.lanes[l].source with
  | none => simp
  | some p => simp

/-- A cue whose lane is not LOCKED is put off, up to four times. -/
theorem cueRow_defers (h : s.Turn c before after) (hw : want c.action = true) {lane : LaneIx} (hl : c.action.lane? = some lane)
    (hno : ¬s.eng.lockedLane lane) (hd : c.deferrals < 4) :
    cueRow want s = .next (s.giving { s.eng with cues := { s.eng.cues with
      list := before ++ { c with deferrals := c.deferrals + 1, remaining := 1, wave := 0 } :: after } }) := by
  have hunlocked : laneLocked s.eng lane = false := Bool.eq_false_iff.2 (mt (laneLocked_iff _ _).1 hno)
  have hkeep : ∀ list : List Cue, (∀ d ∈ list, d ∈ before ++ after) → list.map (fun x => if x.number = c.number then
      { x with deferrals := min 4 (x.deferrals + 1), remaining := 1, wave := 0 } else x) = list := fun list hsub =>
    (List.map_congr_left fun d hd => if_neg (h.alone d (hsub d hd))).trans (List.map_id list)
  rw [cueRow_turn h hw, executeCue, hl]
  simp only [hunlocked, Bool.false_eq_true, if_false, if_pos hd, deferCue, h.list, List.map_append, List.map_cons, if_true]
  rw [hkeep before fun d hm => List.mem_append_left _ hm, hkeep after fun d hm => List.mem_append_right _ hm,
    show min 4 (c.deferrals + 1) = c.deferrals + 1 by omega]
  rfl

/-- A cue whose lane is not LOCKED fails once it has been put off four times. -/
theorem cueRow_laneLost (h : s.Turn c before after) (hw : want c.action = true) {lane : LaneIx}
    (hl : c.action.lane? = some lane) (hno : ¬s.eng.lockedLane lane) (hd : 4 ≤ c.deferrals) :
    cueRow want s = .next { s with eng := grantHolds (disarmFor c ((s.dequeued before after).reports
      (.cueFailed c.number c.target c.action .laneNotLocked))) } := by
  have hunlocked : laneLocked s.eng lane = false := Bool.eq_false_iff.2 (mt (laneLocked_iff _ _).1 hno)
  rw [cueRow_turn h hw, executeCue, hl, removeCue_turn h]
  simp only [hunlocked, Bool.false_eq_true, if_false, if_neg (Nat.not_lt.2 hd)]
  rfl

end

/-! ## The checks of each action -/

theorem freeSlot?_none {e : Engine} (h : ∀ i : SlotIx, e.slots[i].use ≠ .free) : freeSlot? e = none :=
  List.find?_eq_none.2 fun i _ hi => h i (beq_iff_eq.1 hi)

section
variable {e : Engine} {l : LayerIx} {lane : LaneIx} {n level feedback number wave : Nat}

theorem recordCue_notArmed (h : e.layers[l].state ≠ .armed) : recordCue n lane number l e = failed .wrongState e := if_pos h

theorem recordCue_notRunning (h : e.layers[l].state = .armed) (hc : ¬(e.cyc.state = .unset ∨ e.cyc.state = .running)) :
    recordCue n lane number l e = failed .wrongState e := by
  simp only [recordCue, h, ne_eq, not_true_eq_false, if_false]
  cases hst : e.cyc.state with
  | unset => exact absurd (.inl hst) hc
  | running => exact absurd (.inr hst) hc
  | _ => rfl

theorem recordCue_held (h : e.layers[l].state = .armed) (hc : e.cyc.state = .unset ∨ e.cyc.state = .running)
    (hh : e.layers[l].hold ≠ .none) : recordCue n lane number l e = failed .layerHeld e := by
  simp only [recordCue, h, ne_eq, not_true_eq_false, if_false]
  rcases hc with hc | hc <;> rw [hc] <;> exact if_pos hh

theorem recordCue_noSlot (h : e.layers[l].state = .armed) (hc : e.cyc.state = .unset ∨ e.cyc.state = .running)
    (hh : e.layers[l].hold = .none) (hs : ∀ i : SlotIx, e.slots[i].use ≠ .free) :
    recordCue n lane number l e = failed .noSlot e := by
  simp only [recordCue, h, hh, ne_eq, not_true_eq_false, if_false, freeSlot?_none hs]
  rcases hc with hc | hc <;> rw [hc]

theorem overdubCue_wrongState (h : ¬(e.cyc.state = .running ∧ e.layers[l].state = .playing ∧ e.layers[l].written = none)) :
    overdubCue lane level feedback number l e = failed .wrongState e := by
  unfold overdubCue
  by_cases hc : e.cyc.state = .running
  · refine (if_neg (not_not.2 hc)).trans (if_pos ?_)
    by_cases hp : e.layers[l].state = .playing
    · exact .inr (Option.isSome_iff_ne_none.2 fun hw => h ⟨hc, hp, hw⟩)
    · exact .inl hp
  · exact if_pos hc

theorem overdubCue_held (hc : e.cyc.state = .running) (hp : e.layers[l].state = .playing) (hw : e.layers[l].written = none)
    (hh : e.layers[l].hold ≠ .none) : overdubCue lane level feedback number l e = failed .layerHeld e := by
  simp only [overdubCue, hc, hp, hw, ne_eq, not_true_eq_false, if_false, Option.isSome_none, Bool.false_eq_true, or_self]
  exact if_pos hh

theorem overdubCue_noSlot (hc : e.cyc.state = .running) (hp : e.layers[l].state = .playing) (hw : e.layers[l].written = none)
    (hh : e.layers[l].hold = .none) (hs : ∀ i : SlotIx, e.slots[i].use ≠ .free) :
    overdubCue lane level feedback number l e = failed .noSlot e := by
  simp only [overdubCue, hc, hp, hw, hh, ne_eq, not_true_eq_false, if_false, Option.isSome_none, Bool.false_eq_true, or_self,
    freeSlot?_none hs]

theorem sounding_iff : sounding e l = true ↔ e.layers[l].state = .playing ∨ e.layers[l].state = .overdubbing := by
  simp [sounding]

theorem settled_iff : settled e l = true ↔ e.layers[l].state = .playing ∨ e.layers[l].state = .stopped := by
  simp [settled]

theorem stopCue_wrongState (hp : e.layers[l].state ≠ .playing) (ho : e.layers[l].state ≠ .overdubbing) :
    stopCue number l e = failed .wrongState e :=
  if_neg fun h => (sounding_iff.1 h).elim hp ho

theorem undoCue_wrongState (hh : e.layers[l].hold = .none)
    (h : ¬(e.layers[l].state = .playing ∨ e.layers[l].state = .stopped) ∨ e.layers[l].undo = none) :
    undoCue l e = failed .wrongState e :=
  (if_neg (not_not.2 hh)).trans (if_pos (h.imp (fun h => Bool.eq_false_iff.2 (mt settled_iff.1 h)) Option.isNone_iff_eq_none.2))

theorem redoCue_wrongState (hh : e.layers[l].hold = .none)
    (h : ¬(e.layers[l].state = .playing ∨ e.layers[l].state = .stopped) ∨ e.layers[l].redo = none) :
    redoCue l e = failed .wrongState e :=
  (if_neg (not_not.2 hh)).trans (if_pos (h.imp (fun h => Bool.eq_false_iff.2 (mt settled_iff.1 h)) Option.isNone_iff_eq_none.2))

theorem pauseCue_wrongState (h : e.cyc.state = .unset ∨ e.cyc.state = .paused) :
    pauseCue number wave e = failed .wrongState e := by
  unfold pauseCue
  rcases h with h | h <;> rw [h]

theorem anyHeld_iff (e : Engine) : anyHeld e = true ↔ ∃ i : LayerIx, e.layers[i].hold ≠ .none := by
  simp [anyHeld, mem_layerIxs]

end

end Sys2Proof.Machine

namespace Sys2Proof.Settled
open Sys2Proof.Machine

/-- Settles O51: the lane first, then each action's own checks in their order. -/
theorem cuesThatFail : Obligations.CuesThatFail := by
  intro s c before after h e fails deferred busy
  refine ⟨fun n lane l ha ht => ?record, fun lane lv fb ha => ?overdub, fun l ht => ?layers, fun ha hc => ?pause,
    fun ha hc => ?resume, fun ha hh => ?clearAll⟩
  case record =>
    intro st drops ran
    have hlane : c.action.lane? = some lane := by rw [ha]; rfl
    have hact : actOn c e = recordCue n lane c.number l e := by simp only [actOn, ha, ht]
    have hlocked : s.eng.lockedLane lane → ∀ k, c.action.lane? = some k → s.eng.lockedLane k := fun hk k hl => by
      obtain rfl := Option.some.inj (hlane.symm.trans hl)
      exact hk
    have hdrops : ∀ {r}, s.eng.lockedLane lane → st = .armed → recordCue n lane c.number l e = failed r e → drops r :=
      fun hk harmed hr => by
        refine (cueRow_failed h (by rw [ha]) (hlocked hk) (hact.trans hr)).trans (congrArg _ ?_)
        exact disarmFor_drops ha ht harmed _
    refine ⟨fun hk hd => ?_, fun hk hd harmed => ?_, fun hk hd hnot => ?_, fun hk hnot => ?_, fun hk harmed hc => ?_,
      fun hk harmed hc hh => ?_, fun hk harmed hc hh hb => ?_⟩
    · exact cueRow_defers h (by rw [ha]) hlane hk hd
    · exact (cueRow_laneLost h (by rw [ha]) hlane hk hd).trans (congrArg _ (disarmFor_drops ha ht harmed _))
    · exact (cueRow_laneLost h (by rw [ha]) hlane hk hd).trans (congrArg _ (disarmFor_stays ht hnot _))
    · exact (cueRow_failed h (by rw [ha]) (hlocked hk) (hact.trans (recordCue_notArmed hnot))).trans
        (congrArg _ (disarmFor_stays ht hnot _))
    · exact hdrops hk harmed (recordCue_notRunning harmed hc)
    · exact hdrops hk harmed (recordCue_held harmed hc hh)
    · exact hdrops hk harmed (recordCue_noSlot harmed hc hh hb)
  case overdub =>
    have hlane : c.action.lane? = some lane := by rw [ha]; rfl
    have hrec : c.action.records = false := by rw [ha]; rfl
    refine ⟨fun hk hd => cueRow_defers h (by rw [ha]) hlane hk hd, fun hk hd => ?_, fun l hk ht => ?_⟩
    · refine (cueRow_laneLost h (by rw [ha]) hlane hk hd).trans (congrArg _ ?_)
      rw [disarmFor_other hrec]
      rfl
    · intro ready
      have hfails : ∀ {r}, overdubCue lane lv fb c.number l e = failed r e → fails .overdub r := fun hr =>
        cueRow_fails h (by rw [ha]) (fun k hl => by
          obtain rfl := Option.some.inj (hlane.symm.trans hl)
          exact hk) hrec (by rw [← hr]; simp only [actOn, ha, ht]; rfl)
      exact ⟨fun hn => hfails (overdubCue_wrongState hn),
        fun ⟨hc, hp, hw⟩ hh => hfails (overdubCue_held hc hp hw hh),
        fun ⟨hc, hp, hw⟩ hh hb => hfails (overdubCue_noSlot hc hp hw hh hb)⟩
  case layers =>
    intro r st settled
    have hfails : ∀ {a : Machine.Action} {want i reason}, c.action = a → exec i s = cueRow want s → want a = true → a.lane? = none →
        a.records = false → actOn c e = failed reason e → fails i reason := fun ha hi hw hl hrec hr =>
      hi.trans (cueRow_fails h (ha ▸ hw) (fun k hk => by rw [ha, hl] at hk; cases hk) (ha ▸ hrec) hr)
    refine ⟨fun ha hn => ?_, fun ha hn => ?_, fun ha hn => ?_, fun ha hp ho => ?_, fun ha hn => ?_, fun ha hn => ?_,
      fun hh => ⟨fun ha => ?_, fun ha => ?_, fun ha => ?_⟩, fun hh => ⟨fun ha hn => ?_, fun ha hn => ?_⟩⟩
    · exact hfails ha rfl rfl rfl rfl (by simp only [actOn, ha, ht]; exact if_pos hn)
    · exact hfails ha rfl rfl rfl rfl (by simp only [actOn, ha, ht]; exact if_neg hn)
    · exact hfails ha rfl rfl rfl rfl (by simp only [actOn, ha, ht]; exact if_neg hn)
    · exact hfails ha rfl rfl rfl rfl (by simp only [actOn, ha, ht]; exact stopCue_wrongState hp ho)
    · exact hfails ha rfl rfl rfl rfl (by simp only [actOn, ha, ht]; exact if_pos hn)
    · exact hfails ha rfl rfl rfl rfl (by simp only [actOn, ha, ht]; exact if_pos hn)
    · exact hfails ha rfl rfl rfl rfl (by simp only [actOn, ha, ht]; exact if_pos hh)
    · exact hfails ha rfl rfl rfl rfl (by simp only [actOn, ha, ht]; exact if_pos hh)
    · exact hfails ha rfl rfl rfl rfl (by simp only [actOn, ha, ht]; exact if_pos hh)
    · exact hfails ha rfl rfl rfl rfl (by simp only [actOn, ha, ht]; exact undoCue_wrongState hh hn)
    · exact hfails ha rfl rfl rfl rfl (by simp only [actOn, ha, ht]; exact redoCue_wrongState hh hn)
  case pause =>
    exact cueRow_fails h (by rw [ha]; rfl) (by rw [ha]; nofun) (by rw [ha]; rfl)
      (by simp only [actOn, ha]; exact pauseCue_wrongState hc)
  case resume =>
    exact cueRow_fails h (by rw [ha]; rfl) (by rw [ha]; nofun) (by rw [ha]; rfl) (by simp only [actOn, ha]; exact if_neg hc)
  case clearAll =>
    exact cueRow_fails h (by rw [ha]; rfl) (by rw [ha]; nofun) (by rw [ha]; rfl)
      (by simp only [actOn, ha]; exact if_pos ((anyHeld_iff e).2 hh))

end Sys2Proof.Settled
end

section
/-! What the shared operations of the cues leave: granted holds, a voice that leaves a splice or stops, an overdub that
ends. Then PLAY, STOP, MUTE, UNMUTE, UNDO and REDO (R48, R50, R51, R54, R55). -/

set_option Elab.async false

namespace Sys2Proof.Machine

/-! ## Holds granted after a cue -/

theorem grantHolds_only (e : Engine) : ∃ layers evq, grantHolds e = { e with layers := layers, evq := evq } := by
  obtain ⟨layers, -, h⟩ := grantHolds_spec e
  exact ⟨layers, _, h⟩

section
variable (e : Engine)

@[simp] theorem grantHolds_clk : (grantHolds e).clk = e.clk := by obtain ⟨_, _, h⟩ := grantHolds_only e; rw [h]
@[simp] theorem grantHolds_fol : (grantHolds e).fol = e.fol := by obtain ⟨_, _, h⟩ := grantHolds_only e; rw [h]
@[simp] theorem grantHolds_slots : (grantHolds e).slots = e.slots := by obtain ⟨_, _, h⟩ := grantHolds_only e; rw [h]
@[simp] theorem grantHolds_mem : (grantHolds e).mem = e.mem := by obtain ⟨_, _, h⟩ := grantHolds_only e; rw [h]
@[simp] theorem grantHolds_voices : (grantHolds e).voices = e.voices := by obtain ⟨_, _, h⟩ := grantHolds_only e; rw [h]
@[simp] theorem grantHolds_mix : (grantHolds e).mix = e.mix := by obtain ⟨_, _, h⟩ := grantHolds_only e; rw [h]
@[simp] theorem grantHolds_ports : (grantHolds e).ports = e.ports := by obtain ⟨_, _, h⟩ := grantHolds_only e; rw [h]
@[simp] theorem grantHolds_lanes : (grantHolds e).lanes = e.lanes := by obtain ⟨_, _, h⟩ := grantHolds_only e; rw [h]
@[simp] theorem grantHolds_ped : (grantHolds e).ped = e.ped := by obtain ⟨_, _, h⟩ := grantHolds_only e; rw [h]
@[simp] theorem grantHolds_xfer : (grantHolds e).xfer = e.xfer := by obtain ⟨_, _, h⟩ := grantHolds_only e; rw [h]
@[simp] theorem grantHolds_heard : (grantHolds e).heard = e.heard := by obtain ⟨_, _, h⟩ := grantHolds_only e; rw [h]

theorem grantHolds_sameButHold (l : LayerIx) : ((grantHolds e).layers[l]).sameButHold e.layers[l] := by
  obtain ⟨layers, hlayers, h⟩ := grantHolds_spec e
  rw [h]
  show (layers[l]).sameButHold e.layers[l]
  rw [hlayers l]
  split <;> rfl

theorem grantHolds_evq : ∃ granted : List LayerIx,
    (grantHolds e).evq = e.evq.told e.cyc.k e.cyc.p (granted.map Event.holdGranted) := by
  obtain ⟨layers, -, h⟩ := grantHolds_spec e
  refine ⟨layerIxs.filter (grantable e), ?_⟩
  rw [h, EventQueue.told, List.foldl_map]

end

section
variable {s : State} {c : Cue} {e : Engine}

theorem cueDone_eng :
    (s.cueDone c e).eng = grantHolds (e.reports (.cueDone c.number c.target c.action s.eng.cyc.k)) := by
  simp only [State.cueDone]

theorem cueDone_rest : s.cueDone c e = { s with eng := (s.cueDone c e).eng } := by
  simp only [State.cueDone]

@[simp] theorem cueDone_clk : (s.cueDone c e).eng.clk = e.clk := by rw [cueDone_eng, grantHolds_clk, Engine.reports]
@[simp] theorem cueDone_cyc : (s.cueDone c e).eng.cyc = e.cyc := by rw [cueDone_eng, grantHolds_cyc, Engine.reports]
@[simp] theorem cueDone_fol : (s.cueDone c e).eng.fol = e.fol := by rw [cueDone_eng, grantHolds_fol, Engine.reports]
@[simp] theorem cueDone_cues : (s.cueDone c e).eng.cues = e.cues := by rw [cueDone_eng, grantHolds_cues, Engine.reports]
@[simp] theorem cueDone_slots : (s.cueDone c e).eng.slots = e.slots := by rw [cueDone_eng, grantHolds_slots, Engine.reports]
@[simp] theorem cueDone_mem : (s.cueDone c e).eng.mem = e.mem := by rw [cueDone_eng, grantHolds_mem, Engine.reports]
@[simp] theorem cueDone_voices : (s.cueDone c e).eng.voices = e.voices := by rw [cueDone_eng, grantHolds_voices, Engine.reports]
@[simp] theorem cueDone_mix : (s.cueDone c e).eng.mix = e.mix := by rw [cueDone_eng, grantHolds_mix, Engine.reports]
@[simp] theorem cueDone_ports : (s.cueDone c e).eng.ports = e.ports := by rw [cueDone_eng, grantHolds_ports, Engine.reports]
@[simp] theorem cueDone_lanes : (s.cueDone c e).eng.lanes = e.lanes := by rw [cueDone_eng, grantHolds_lanes, Engine.reports]
@[simp] theorem cueDone_ped : (s.cueDone c e).eng.ped = e.ped := by rw [cueDone_eng, grantHolds_ped, Engine.reports]
@[simp] theorem cueDone_xfer : (s.cueDone c e).eng.xfer = e.xfer := by rw [cueDone_eng, grantHolds_xfer, Engine.reports]

theorem cueDone_layer (l : LayerIx) : ((s.cueDone c e).eng.layers[l]).sameButHold e.layers[l] := by
  rw [cueDone_eng]
  exact grantHolds_sameButHold (e.reports (.cueDone c.number c.target c.action s.eng.cyc.k)) l

theorem cueDone_layer_of {l : LayerIx} {r : Layer} (h : e.layers[l] = r) :
    ((s.cueDone c e).eng.layers[l]).sameButHold r :=
  h ▸ cueDone_layer l

/-- The reports of a cue that succeeded: those of its action, CUE_DONE, and the holds granted. -/
theorem cueDone_tells {events all : List Event} (hk : e.cyc.k = s.eng.cyc.k) (hp : e.cyc.p = s.eng.cyc.p)
    (h : e.evq = s.eng.evq.told s.eng.cyc.k s.eng.cyc.p events)
    (hall : all = events ++ [.cueDone c.number c.target c.action s.eng.cyc.k]) :
    s.tells (s.cueDone c e) s.eng.cyc.k s.eng.cyc.p all := by
  obtain ⟨granted, hg⟩ := grantHolds_evq (e.reports (.cueDone c.number c.target c.action s.eng.cyc.k))
  refine ⟨granted, ?_⟩
  rw [hall, cueDone_eng, hg, List.append_assoc, told_append, ← h]
  simp only [Engine.reports, hk, hp, List.cons_append, List.nil_append, told_cons]

/-- A cue leaves what it does not touch, when its action does. -/
theorem cueDone_frame (hclk : e.clk = s.eng.clk)
    (hmix : e.mix = { s.eng.mix with window := e.mix.window, clipReported := e.mix.clipReported })
    (hcells : e.mem.cells = s.eng.mem.cells) (hports : e.ports = s.eng.ports) (hlanes : e.lanes = s.eng.lanes)
    (hped : e.ped = s.eng.ped) (hxfer : e.xfer = s.eng.xfer) : s.cueFrame (s.cueDone c e) := by
  obtain ⟨t, ht⟩ : ∃ t, t = s.cueDone c e := ⟨_, rfl⟩
  have hs : t = { s with eng := t.eng } := by
    rw [ht]
    exact cueDone_rest
  have h1 : t.eng.clk = s.eng.clk := by rw [ht, cueDone_clk, hclk]
  have h2 : { s.eng.mix with window := t.eng.mix.window, clipReported := t.eng.mix.clipReported } = t.eng.mix := by
    rw [ht, cueDone_mix]
    exact hmix.symm
  have h3 : t.eng.mem.cells = s.eng.mem.cells := by rw [ht, cueDone_mem, hcells]
  have h4 : t.eng.ports = s.eng.ports := by rw [ht, cueDone_ports, hports]
  have h5 : t.eng.lanes = s.eng.lanes := by rw [ht, cueDone_lanes, hlanes]
  have h6 : t.eng.ped = s.eng.ped := by rw [ht, cueDone_ped, hped]
  have h7 : t.eng.xfer = s.eng.xfer := by rw [ht, cueDone_xfer, hxfer]
  rw [← ht]
  unfold State.cueFrame
  simp only [h2, ← h1, ← h3, ← h4, ← h5, ← h6, ← h7]
  exact hs

end

/-! ## A voice that leaves a splice -/

/-- Voice `i` once it has left the splice. -/
def Voice.left (v : Voice) (len : Nat) (i : LayerIx) : Splice → Voice
  | .idle => v
  | .fetching r => if i ∈ r.voices then { v with spl := Run.nil } else v
  | .crossfading r => if i ∈ r.voices then v.leaves len r else v

theorem Voice.left_quits (v : Voice) (len : Nat) (i : LayerIx) (sp : Splice) : (v.left len i sp).quits v i sp := by
  cases sp with
  | idle => rfl
  | fetching r => rfl
  | crossfading r =>
    by_cases hi : i ∈ r.voices
    · simp only [Voice.quits, Voice.left, if_pos hi]
      obtain ⟨hlt, h⟩ | ⟨hge, h⟩ := Voice.leaves_cases len r v
      · rw [h]
        refine ⟨rfl, fun hmain => ?_, fun _ hne h512 => ?_⟩
        · have hnil : v.spl.frames = [] := hmain.resolve_left (by omega)
          simp only [mergeStreams, hnil, List.isEmpty_nil, if_true]
        · have hfull : v.spl.frames.isEmpty = false := List.isEmpty_eq_false_iff.2 hne
          simp only [mergeStreams, hfull, Bool.false_eq_true, if_false, List.take_take, Nat.min_eq_left h512,
            List.take_left', and_self]
      · rw [h]
        exact ⟨rfl, fun _ => rfl, fun hlt => absurd hlt (by omega)⟩
    · simp only [Voice.quits, Voice.left, if_neg hi]

/-- Leaving a splice touches a voice's staging alone. -/
theorem Voice.left_only (v : Voice) (len : Nat) (i : LayerIx) (sp : Splice) :
    ∃ main spl store, v.left len i sp = { v with main := main, spl := spl, store := store } := by
  cases sp with
  | idle => exact ⟨v.main, v.spl, v.store, rfl⟩
  | fetching r =>
    by_cases hi : i ∈ r.voices
    · exact ⟨v.main, Run.nil, v.store, if_pos hi⟩
    · exact ⟨v.main, v.spl, v.store, if_neg hi⟩
  | crossfading r =>
    by_cases hi : i ∈ r.voices
    · simp only [Voice.left, if_pos hi]
      obtain ⟨-, h⟩ | ⟨-, h⟩ := Voice.leaves_cases len r v
      · exact ⟨_, _, _, h⟩
      · exact ⟨_, _, _, h⟩
    · exact ⟨v.main, v.spl, v.store, if_neg hi⟩

theorem filter_ne_self {l : LayerIx} {vs : List LayerIx} (h : l ∉ vs) : vs.filter (fun v => !(v == l)) = vs :=
  List.filter_eq_self.2 fun v hv => by
    have : v ≠ l := fun hl => h (hl ▸ hv)
    simpa using this

theorem upd_id {α : Type} {n : Nat} (v : Vector α n) (i : Fin n) {f : α → α} (h : f v[i] = v[i]) : upd v i f = v := by
  rw [upd, h]
  exact Vector.set_getElem_self _

theorem upd_if_pos {α : Type} {n : Nat} (v : Vector α n) (i : Fin n) {p : α → Prop} [DecidablePred p] {f g : α → α}
    (h : p v[i]) : upd v i (fun a => if p a then f a else g a) = upd v i f :=
  upd_congr _ _ _ _ (if_pos h)

theorem upd_if_neg {α : Type} {n : Nat} (v : Vector α n) (i : Fin n) {p : α → Prop} [DecidablePred p] {f g : α → α}
    (h : ¬p v[i]) : upd v i (fun a => if p a then f a else g a) = upd v i g :=
  upd_congr _ _ _ _ (if_neg h)

/-- A change of one unit keeps in every unit what it keeps in that one. -/
theorem upd_keeps {α β : Type} {n : Nat} (v : Vector α n) (i : Fin n) {f : α → α} (π : α → β)
    (h : π (f v[i]) = π v[i]) (j : Fin n) : π (upd v i f)[j] = π v[j] := by
  by_cases hij : j = i
  · subst hij
    exact (congrArg π (upd_self v j f)).trans h
  · exact congrArg π (upd_other v i j f (Ne.symm hij))

/-- A voice leaves the splice: the splice goes on without it. -/
theorem leaveSplice_eq (l : LayerIx) (e : Engine) :
    leaveSplice l e = { e with
      cyc := { e.cyc with splice := e.cyc.splice.without (· == l) }
      voices := upd e.voices l fun v => v.left (layerLen e l) l e.cyc.splice } := by
  unfold leaveSplice
  cases hsp : e.cyc.splice with
  | idle =>
    simp only [Splice.without, Voice.left, upd_id e.voices l (f := fun v => v) rfl]
    rw [← hsp]
  | fetching r =>
    by_cases hl : l ∈ r.voices
    · simp only [Splice.without, Voice.left, if_pos hl]
      rfl
    · simp only [Splice.without, Voice.left, if_neg hl, filter_ne_self hl, upd_id e.voices l (f := fun v => v) rfl]
      rw [← hsp]
  | crossfading r =>
    by_cases hl : l ∈ r.voices
    · simp only [Splice.without, Voice.left, if_pos hl]
      rfl
    · simp only [Splice.without, Voice.left, if_neg hl, filter_ne_self hl, upd_id e.voices l (f := fun v => v) rfl]
      rw [← hsp]

/-! ## A voice that stops -/

theorem idlesAtStop_eq (v : Voice) : v.idlesAtStop = v.stopsAtOnce := by
  rw [Bool.eq_iff_iff]
  simp [Voice.idlesAtStop, Voice.stopsAtOnce]

theorem left_stopsAtOnce (v : Voice) (len : Nat) (i : LayerIx) (sp : Splice) :
    (v.left len i sp).stopsAtOnce = v.stopsAtOnce := by
  obtain ⟨main, spl, store, h⟩ := v.left_only len i sp
  rw [h]
  rfl

theorem without_none (mem : LoopMem) {gone : LayerIx → Bool} (h : ∀ v, gone v = false) : mem.without gone = mem := by
  unfold LoopMem.without
  cases hgrant : mem.grant with
  | none => rw [Option.map_none, ← hgrant]
  | some g =>
    refine (congrArg (fun x => { mem with grant := some x }) ?_).trans (congrArg (fun x => { mem with grant := x }) hgrant.symm)
    obtain ⟨who, cls, layer, key, write, first, count, left, cancelled⟩ := g
    cases who <;> simp [h]

theorem discardRefill_eq (l : LayerIx) (e : Engine) :
    discardRefill l e = { e with mem := e.mem.without (· == l) } := by
  unfold discardRefill cancelGrant LoopMem.without
  refine congrArg (fun g => { e with mem := { e.mem with grant := g } }) (congrArg (Option.map · e.mem.grant) (funext fun g => ?_))
  obtain ⟨who, cls, layer, key, write, first, count, left, cancelled⟩ := g
  cases who <;> simp

/-- The voice of a layer that stops: it leaves the splice, and goes idle where it makes no sound. -/
theorem stopVoice_eq (l : LayerIx) (e : Engine) :
    stopVoice l e = { e with
      cyc := { e.cyc with splice := e.cyc.splice.without (· == l) }
      voices := upd e.voices l fun v => if v.idlesAtStop then Voice.reset else v.left (layerLen e l) l e.cyc.splice
      mem := e.mem.without fun v => v == l && e.voices[l].idlesAtStop } := by
  have hstop : (leaveSplice l e).voices[l].stopsAtOnce = e.voices[l].idlesAtStop := by
    rw [leaveSplice_eq, idlesAtStop_eq, ← left_stopsAtOnce e.voices[l] (layerLen e l) l e.cyc.splice]
    exact congrArg Voice.stopsAtOnce (upd_self _ _ _)
  unfold stopVoice
  dsimp only
  rw [hstop, leaveSplice_eq]
  cases hi : e.voices[l].idlesAtStop with
  | true =>
    have hidle : (fun v : LayerIx => v == l && true) = (· == l) := funext fun v => Bool.and_true _
    simp only [if_true, idleVoice, discardRefill_eq, modVoice, upd_upd, hidle]
    rw [upd_congr e.voices l (fun v => if v.idlesAtStop = true then Voice.reset else v.left (layerLen e l) l e.cyc.splice)
      (fun _ => Voice.reset) (if_pos hi)]
    rfl
  | false =>
    have hnone : e.mem.without (fun v => v == l && false) = e.mem := without_none e.mem fun _ => Bool.and_false _
    rw [hnone, upd_congr e.voices l (fun v => if v.idlesAtStop = true then Voice.reset else
      v.left (layerLen e l) l e.cyc.splice) (fun v => v.left (layerLen e l) l e.cyc.splice)
      (if_neg (fun hp => Bool.false_ne_true (hi.symm.trans hp)))]
    rfl

/-! ## An overdub that ends -/

/-- The staging of a slot once its gap run is closed. -/
theorem openGap_closeTail {sl : Slot} (h : openGap sl = none) : closeTail sl = sl := by
  unfold openGap at h
  unfold closeTail
  split at h
  · cases h
  · rfl

theorem closeGap_eq (i : SlotIx) (e : Engine) :
    closeGap i e = { e with
      slots := upd e.slots i closeTail, evq := e.evq.told e.cyc.k e.cyc.p (e.gapOf i) } := by
  unfold closeGap Engine.gapOf
  cases hg : openGap e.slots[i] with
  | none => simp only [told_nil, upd_id e.slots i (openGap_closeTail hg)]
  | some n => rfl

theorem closeTail_only (sl : Slot) : ∃ staging, closeTail sl = { sl with staging := staging } := by
  unfold closeTail
  split
  · exact ⟨_, rfl⟩
  · exact ⟨sl.staging, rfl⟩

/-- The slot of a layer closes its gap run and is released. -/
theorem endSlot_eq {e : Engine} {l : LayerIx} {i : SlotIx} (h : e.layers[l].slot = some i) :
    endSlot l e = { e with
      layers := upd e.layers l fun r => { r with slot := none }
      slots := upd e.slots i fun sl => (closeTail sl).released
      evq := e.evq.told e.cyc.k e.cyc.p (e.gapOf i) } := by
  unfold endSlot
  rw [h]
  dsimp only
  rw [closeGap_eq, releaseSlot_eq (s := i) (by exact h)]
  simp only [upd_upd]
  rfl

/-- The job an overdub leaves behind when it ends with positions left to copy. -/
def Engine.copyJobs (e : Engine) (l : LayerIx) : List Job := if e.leavesCopy l then [e.jobOf l .finishCopy] else []

theorem chainKey_bind (chain : Option (List Nat)) : chainKey chain = chain.bind List.head? := by
  cases chain with
  | none => rfl
  | some pages => exact chainKey_eq pages

theorem hasJob_eq (e : Engine) (l : LayerIx) : hasJob e l = !(e.mem.jobs.all fun j => j.layer != l) := by
  simp only [hasJob, List.not_all_eq_any_not, bne, Bool.not_not]

theorem addJob_eq (l : LayerIx) (k : FillKind) (e : Engine) :
    addJob l k e = { e with mem := { e.mem with
      jobs := e.mem.jobs ++ if e.mem.jobs.all fun j => j.layer != l then [e.jobOf l k] else [] } } := by
  unfold addJob Engine.jobOf
  rw [hasJob_eq]
  cases e.mem.jobs.all fun j => j.layer != l with
  | true => simp only [Bool.not_true, Bool.false_eq_true, if_false, if_true, chainKey_bind]
  | false => simp only [Bool.not_false, if_true, Bool.false_eq_true, if_false, List.append_nil]

theorem endOverdub_eq {e : Engine} {l : LayerIx} {i : SlotIx} (h : e.layers[l].slot = some i) :
    endOverdub l e = { e with
      layers := upd e.layers l fun r => { r with slot := none }
      slots := upd e.slots i fun sl => (closeTail sl).released
      mem := { e.mem with jobs := e.mem.jobs ++ e.copyJobs l }
      evq := e.evq.told e.cyc.k e.cyc.p (e.gapOf i) } := by
  have hl : (upd e.layers l fun r => { r with slot := none })[l] = { e.layers[l] with slot := none } := upd_self _ _ _
  unfold endOverdub
  dsimp only
  rw [endSlot_eq h]
  dsimp only
  rw [hl]
  unfold Engine.copyJobs Engine.leavesCopy
  cases hw : e.layers[l].written.isSome with
  | true =>
    simp only [if_true, Bool.true_and, addJob_eq, Engine.jobOf, hl]
  | false => simp only [Bool.false_eq_true, if_false, Bool.false_and, List.append_nil]

/-! ## A layer that plays or stops -/

/-- A layer that goes on with the same multiple stands at the same position of its loop. -/
theorem layerPos_of {e t : Engine} {l : LayerIx} (hmult : t.layers[l].mult = e.layers[l].mult) (hcyc : t.cyc = e.cyc) :
    layerPos t l = layerPos e l := by
  rw [layerPos, layerPos, hmult, hcyc]

theorem layerLen_of {e t : Engine} {l : LayerIx} (hmult : t.layers[l].mult = e.layers[l].mult) (hcyc : t.cyc = e.cyc) :
    layerLen t l = layerLen e l := by
  rw [layerLen, layerLen, hmult, hcyc]

/-- The position a layer's voice primes from (R51, R130). -/
def Engine.primeFrom (e : Engine) (l : LayerIx) : Nat :=
  let i := (layerPos e l).getD 0
  if e.cyc.state = .running then wrapAt (layerLen e l) (i + 256) else i

theorem Engine.primeFrom_of {e t : Engine} {l : LayerIx} (hmult : t.layers[l].mult = e.layers[l].mult)
    (hcyc : t.cyc = e.cyc) : t.primeFrom l = e.primeFrom l := by
  rw [Engine.primeFrom, Engine.primeFrom, layerPos_of hmult hcyc, layerLen_of hmult hcyc, hcyc]

/-- A layer begins to play: a voice that is IDLE primes, any other goes on. -/
theorem playVoice_eq (l : LayerIx) (e : Engine) :
    playVoice l e = { e with voices := upd e.voices l fun v =>
      if v.rs = .idle then v.primed ((layerPos e l).getD 0) (e.primeFrom l) else v } := by
  unfold playVoice
  by_cases h : e.voices[l].rs = .idle
  · rw [if_pos h, upd_if_pos e.voices l (p := fun v => v.rs = .idle) h]
    rfl
  · rw [if_neg h, upd_if_neg e.voices l (p := fun v => v.rs = .idle) h, upd_id e.voices l rfl]

/-- A change of a layer's state keeps its multiple. -/
theorem setLayerState_mult (l : LayerIx) (st : LayerState) (cause : LayerCause) (n : Nat) (e : Engine) :
    (setLayerState l st cause n e).layers[l].mult = e.layers[l].mult :=
  upd_keeps e.layers l Layer.mult rfl l

theorem playLayer_eq (l : LayerIx) (n : Nat) (e : Engine) :
    playLayer l n e = ({ e with
      layers := upd e.layers l fun r => { r with state := .playing, lastChange := e.cyc.k }
      voices := upd e.voices l fun v => if v.rs = .idle then v.primed ((layerPos e l).getD 0) (e.primeFrom l) else v }
      : Engine).reports (.layerState l .playing .cue n) := by
  rw [playLayer, playVoice_eq, layerPos_of (e := e) (setLayerState_mult _ _ _ _ _) rfl,
    Engine.primeFrom_of (e := e) (setLayerState_mult _ _ _ _ _) rfl]
  rfl

/-- What a STOP leaves of the voices and the memory. -/
theorem stopLayer_playing {e : Engine} {l : LayerIx} (h : e.layers[l].state ≠ .overdubbing) (n : Nat) :
    stopLayer l n e = ({ e with
      layers := upd e.layers l fun r => { r with state := .stopped, lastChange := e.cyc.k }
      cyc := { e.cyc with splice := e.cyc.splice.without (· == l) }
      voices := upd e.voices l fun v => if v.idlesAtStop then Voice.reset else v.left (layerLen e l) l e.cyc.splice
      mem := e.mem.without fun v => v == l && e.voices[l].idlesAtStop } : Engine).reports
        (.layerState l .stopped .cue n) := by
  rw [stopLayer, endIfOverdubbing, if_neg h, stopVoice_eq, layerLen_of (e := e) (setLayerState_mult _ _ _ _ _) rfl]
  rfl

theorem stopLayer_overdubbing {e : Engine} {l : LayerIx} {i : SlotIx} (h : e.layers[l].state = .overdubbing)
    (hi : e.layers[l].slot = some i) (n : Nat) :
    stopLayer l n e = { e with
      layers := upd e.layers l fun r => { r with state := .stopped, slot := none, lastChange := e.cyc.k }
      slots := upd e.slots i fun sl => (closeTail sl).released
      cyc := { e.cyc with splice := e.cyc.splice.without (· == l) }
      voices := upd e.voices l fun v => if v.idlesAtStop then Voice.reset else v.left (layerLen e l) l e.cyc.splice
      mem := { e.mem.without fun v => v == l && e.voices[l].idlesAtStop with jobs := e.mem.jobs ++ e.copyJobs l }
      evq := e.evq.told e.cyc.k e.cyc.p (e.gapOf i ++ [.layerState l .stopped .cue n]) } := by
  have hmult : (endOverdub l e).layers[l].mult = e.layers[l].mult := by
    rw [endOverdub_eq hi]
    exact upd_keeps e.layers l Layer.mult rfl l
  have hcyc : (endOverdub l e).cyc = e.cyc := by rw [endOverdub_eq hi]
  rw [stopLayer, endIfOverdubbing, if_pos h, stopVoice_eq,
    layerLen_of (e := e) ((setLayerState_mult _ _ _ _ _).trans hmult) (by exact hcyc), setLayerState_eq, endOverdub_eq hi,
    told_append]
  simp only [modLayer, Engine.reports, upd_upd]
  rfl

/-! ## Undo and redo -/

/-- A job of the layer is a FINISH_COPY, or its copy waits for the zero fill (R55; entry 54). -/
theorem finishing_iff (e : Engine) (l : LayerIx) : finishing e l = true ↔
    (∃ j ∈ e.mem.jobs, j.layer = l ∧ j.kind = .finishCopy)
      ∨ (e.layers[l].written.isSome = true ∧ ∃ j ∈ e.mem.jobs, j.layer = l) := by
  simp only [finishing, hasJob, Bool.or_eq_true, Bool.and_eq_true, List.any_eq_true, beq_iff_eq]

theorem undoLayer_swaps {e : Engine} {l : LayerIx} {chain : List Nat} (h : finishing e l = false)
    (hu : e.layers[l].undo = some chain) :
    undoLayer l e = { e with
      layers := upd e.layers l fun r => { r with cur := some chain, undo := none, redo := r.cur }
      mem := { e.mem with age := e.mem.age.map fun g => if g.1 = l then (l, .redo) else g } } := by
  have hl : upd e.layers l (fun r => { r with cur := r.undo, undo := none, redo := r.cur })
      = upd e.layers l fun r => { r with cur := some chain, undo := none, redo := r.cur } :=
    upd_congr _ _ _ _ (congrArg (fun u => ({ e.layers[l] with cur := u, undo := none, redo := e.layers[l].cur } : Layer)) hu)
  unfold undoLayer
  rw [h, if_neg Bool.false_ne_true, ← hl]
  rfl

theorem redoLayer_swaps {e : Engine} {l : LayerIx} {chain : List Nat} (hr : e.layers[l].redo = some chain) :
    redoLayer l e = { e with
      layers := upd e.layers l fun r => { r with cur := some chain, redo := none, undo := r.cur }
      mem := { e.mem with age := e.mem.age.map fun g => if g.1 = l then (l, .undo) else g } } := by
  have hl : upd e.layers l (fun r => { r with cur := r.redo, redo := none, undo := r.cur })
      = upd e.layers l fun r => { r with cur := some chain, redo := none, undo := r.cur } :=
    upd_congr _ _ _ _ (congrArg (fun u => ({ e.layers[l] with cur := u, redo := none, undo := e.layers[l].cur } : Layer)) hr)
  rw [redoLayer, ← hl]
  rfl

theorem undoCue_done {e : Engine} {l : LayerIx} {chain : List Nat} (hh : e.layers[l].hold = .none)
    (hs : settled e l = true) (hu : e.layers[l].undo = some chain) : undoCue l e = done (undoLayer l e) := by
  rw [undoCue, if_neg (by simp only [hh, ne_eq, not_true_eq_false, not_false_eq_true]),
    if_neg (by simp only [hs, hu, Option.isNone_some, Bool.true_eq_false, Bool.false_eq_true, or_self, not_false_eq_true])]

theorem redoCue_done {e : Engine} {l : LayerIx} {chain : List Nat} (hh : e.layers[l].hold = .none)
    (hs : settled e l = true) (hr : e.layers[l].redo = some chain) : redoCue l e = done (redoLayer l e) := by
  rw [redoCue, if_neg (by simp only [hh, ne_eq, not_true_eq_false, not_false_eq_true]),
    if_neg (by simp only [hs, hr, Option.isNone_some, Bool.true_eq_false, Bool.false_eq_true, or_self, not_false_eq_true])]

/-- A freed chain takes the jobs along that fill it, and no other (R117). -/
theorem freeChain_keeps_jobs (l : LayerIx) (chain : Option (List Nat)) (e : Engine) :
    (freeChain l chain e).mem.jobs
      = e.mem.jobs.filter fun j => j.layer != l || (j.key != chain.bind List.head? || j.key == none) := by
  match chain with
  | none | some [] =>
    refine (List.filter_eq_self.2 fun j _ => ?_).symm
    cases hk : j.key <;> simp
  | some (key :: rest) =>
    rw [freeChain_jobs]
    refine List.filter_congr fun j _ => ?_
    cases hk : j.key <;> simp [bne]

/-- A layer whose age entry goes with a freed chain. -/
theorem dropped_frame (l : LayerIx) (f : Layer → Layer) {e T : Engine}
    (h : T = { e with mem := { e.mem with free := T.mem.free, grant := T.mem.grant, jobs := T.mem.jobs,
                                          work := T.mem.work }, slots := T.slots }) :
    modLayer l f (dropAge l T) = { e with
      layers := upd e.layers l f, slots := T.slots
      mem := { (modLayer l f (dropAge l T)).mem with cells := e.mem.cells } } := by
  have hage : T.mem.age = e.mem.age := by rw [h]
  refine (congrArg (fun T => modLayer l f (dropAge l T)) h).trans ?_
  simp only [modLayer, dropAge, hage]

/-- What an UNDO leaves that abandons a finish copy. -/
theorem undoLayer_abandons {e : Engine} {l : LayerIx} {chain : List Nat} (h : finishing e l = true)
    (hu : e.layers[l].undo = some chain) :
    let t := undoLayer l e
    t = { e with layers := upd e.layers l fun r => { r with cur := some chain, undo := none, written := none }
                 slots := t.slots, mem := { t.mem with cells := e.mem.cells } }
    ∧ t.mem.free = e.mem.free ++ e.layers[l].cur.getD []
    ∧ t.mem.age = e.mem.age.filter (fun g => g.1 != l)
    ∧ t.mem.jobs = e.mem.jobs.filter (fun j =>
        j.layer != l || (j.kind == .zeroFill && (j.key != e.layers[l].cur.bind List.head? || j.key == none))) := by
  intro t
  have ht : t = modLayer l (fun r => { r with cur := r.undo, undo := none, written := none })
      (dropAge l (freeChain l e.layers[l].cur (dropJobs (fun j => j.layer == l && j.kind == .finishCopy) e))) := by
    show undoLayer l e = _
    unfold undoLayer
    rw [h, if_pos rfl]
  clear_value t
  obtain ⟨e0, he0⟩ : ∃ e0, e0 = dropJobs (fun j => j.layer == l && j.kind == .finishCopy) e := ⟨_, rfl⟩
  rw [← he0] at ht
  refine ⟨?_, ?_, ?_, ?_⟩
  · have hl : upd e.layers l (fun r => { r with cur := r.undo, undo := none, written := none })
        = upd e.layers l fun r => { r with cur := some chain, undo := none, written := none } :=
      upd_congr _ _ _ _ (congrArg (fun u => ({ e.layers[l] with cur := u, undo := none, written := none } : Layer)) hu)
    rw [← hl, ht]
    refine (dropped_frame l _ (freeChain_frame l e.layers[l].cur e0)).trans ?_
    rw [he0]
    rfl
  · rw [ht]
    exact (freeChain_free _ _ _).trans (by rw [he0]; rfl)
  · rw [ht]
    show (freeChain l e.layers[l].cur e0).mem.age.filter _ = _
    rw [freeChain_frame, he0]
    rfl
  · rw [ht]
    refine (freeChain_keeps_jobs l e.layers[l].cur e0).trans ?_
    rw [he0, dropJobs_jobs, List.filter_filter]
    refine List.filter_congr fun j _ => ?_
    by_cases hj : j.layer = l
    · cases j.kind <;> simp [hj]
    · have hb : (j.layer != l) = true := bne_iff_ne.2 hj
      simp [hb, hj]

end Sys2Proof.Machine

namespace Sys2Proof.Settled
open Sys2Proof.Machine

/-- Settles O47: each action of the four is its operation on the layer, and CUE_DONE follows. -/
theorem playStopMuteCues : Obligations.PlayStopMuteCues := by
  intro s c before after l h ht e turns said mutes
  have hdone : ∀ {a : Machine.Action} {want i t}, c.action = a → exec i s = cueRow want s → want a = true → a.lane? = none →
      actOn c e = (t, none) → exec i s = .next (s.cueDone c t) := fun ha hi hw hl hr =>
    hi.trans (cueRow_done h (ha ▸ hw) (fun k hk => by rw [ha, hl] at hk; cases hk) hr)
  refine ⟨fun n len ha hst hmult hlen hpos => ?_, fun ha => ?stop, ?mute, ?unmute⟩
  · intro i start voices
    have hi : (layerPos e l).getD 0 = i := by simp only [layerPos, hmult, Cycle.c, hlen]; rfl
    have hstart : e.primeFrom l = start := by
      have hwrap : layerLen e l = n * len := by simp only [layerLen, hmult, Cycle.c, hlen]; rfl
      simp only [Engine.primeFrom, hi, hwrap, wrapAt, if_neg (Nat.pos_iff_ne_zero.1 hpos)]
      rfl
    refine hdone ha rfl rfl rfl (t := playLayer l c.number e) ?_ |>.trans ?_
    · simp only [actOn, ha, ht]
      exact if_pos hst
    · rw [playLayer_eq, hi, hstart]
  case mute => exact fun ha hne => hdone ha rfl rfl rfl (by simp only [actOn, ha, ht]; exact if_neg hne)
  case unmute => exact fun ha hne => hdone ha rfl rfl rfl (by simp only [actOn, ha, ht]; exact if_neg hne)
  case stop =>
    intro mem cyc
    refine ⟨e.voices[l].left (layerLen e l) l e.cyc.splice, Voice.left_quits _ _ _ _, ?_⟩
    intro voices
    have hvoices : voices = upd e.voices l fun v =>
        if v.idlesAtStop then Voice.reset else v.left (layerLen e l) l e.cyc.splice := upd_congr _ _ _ _ rfl
    have hstops : sounding e l = true → exec .stop s = .next (s.cueDone c (stopLayer l c.number e)) := fun hs =>
      hdone ha rfl rfl rfl (by simp only [actOn, ha, ht]; exact if_pos hs)
    refine ⟨fun hst => ?_, fun sl hst hsl => ?_⟩
    · rw [hstops (sounding_iff.2 (.inl hst)), stopLayer_playing (by rw [hst]; decide), hvoices]
    · have heq := stopLayer_overdubbing hst hsl c.number
      obtain ⟨u, hu⟩ : ∃ u, stopLayer l c.number e = u := ⟨_, rfl⟩
      rw [hu] at heq hstops
      have hlayers := congrArg Engine.layers heq
      have hslots := congrArg Engine.slots heq
      have hcyc := congrArg Engine.cyc heq
      refine ⟨_, hstops (sounding_iff.2 (.inr hst)), ?_, fun i hne => ?_, ?_, fun i hne => ?_, ?_, ?_, ?_, ?_, ?_, ?_, ?_⟩
      · exact cueDone_layer_of (by rw [hlayers]; exact upd_self e.layers l _)
      · exact cueDone_layer_of (by rw [hlayers]; exact upd_other e.layers l i _ hne.symm)
      · rw [cueDone_slots, hslots]
        have hsl := upd_self e.slots sl fun x => (closeTail x).released
        exact hsl.trans (congrArg Slot.released hsl).symm
      · rw [cueDone_slots, hslots]
        exact upd_other e.slots sl i _ hne.symm
      · exact cueDone_mem.trans (congrArg Engine.mem heq)
      · exact cueDone_tells (congrArg Cycle.k hcyc :) (congrArg Cycle.p hcyc :) (congrArg Engine.evq heq :)
          (List.append_assoc _ [_] [_]).symm
      · exact cueDone_voices.trans ((congrArg Engine.voices heq).trans hvoices.symm)
      · exact cueDone_cyc.trans hcyc
      · exact cueDone_fol.trans (congrArg Engine.fol heq :)
      · exact cueDone_cues.trans (congrArg Engine.cues heq :)
      · exact cueDone_frame (congrArg Engine.clk heq :) (by rw [heq]; rfl) (congrArg (fun t => t.mem.cells) heq :)
          (congrArg Engine.ports heq :) (congrArg Engine.lanes heq :) (congrArg Engine.ped heq :) (congrArg Engine.xfer heq :)

/-- Settles O48: the exchange of UNDO and REDO, and the UNDO that abandons a copy. -/
theorem undoRedoCues : Obligations.UndoRedoCues := by
  intro s c before after l chain h ht hst hh e age copying
  have hset : settled e l = true := settled_iff.2 hst
  have hdone : ∀ {a : Machine.Action} {want i t}, c.action = a → exec i s = cueRow want s → want a = true → a.lane? = none →
      actOn c e = (t, none) → exec i s = .next (s.cueDone c t) := fun ha hi hw hl hr =>
    hi.trans (cueRow_done h (ha ▸ hw) (fun k hk => by rw [ha, hl] at hk; cases hk) hr)
  have hundo : c.action = .undo → e.layers[l].undo = some chain →
      exec .undo s = .next (s.cueDone c (undoLayer l e)) := fun ha hu =>
    hdone ha rfl rfl rfl (by
      simp only [actOn, ha, ht]
      exact undoCue_done hh hset hu)
  refine ⟨fun ha hu hn => ?_, fun ha hu hc => ?_, fun ha hr => ?_⟩
  · intro layers
    rw [hundo ha hu, undoLayer_swaps (Bool.eq_false_iff.2 fun hf => hn ((finishing_iff e l).1 hf)) hu]
  · obtain ⟨hrest, hfree, hages, hjobs⟩ := undoLayer_abandons ((finishing_iff e l).2 hc) hu
    obtain ⟨u, hueq⟩ : ∃ u, undoLayer l e = u := ⟨_, rfl⟩
    rw [hueq] at hrest hfree hages hjobs
    have hlayers : u.layers = upd e.layers l fun r => { r with cur := some chain, undo := none, written := none } := by
      rw [hrest]
    have hcyc : u.cyc = s.eng.cyc := by rw [hrest]; rfl
    refine ⟨_, hundo ha hu, ?_⟩
    rw [hueq]
    refine ⟨?_, (congrArg LoopMem.free cueDone_mem).trans hfree,
      (congrArg LoopMem.age cueDone_mem).trans hages, (congrArg LoopMem.jobs cueDone_mem).trans hjobs, fun i hne => ?_, ?_, ?_, ?_, ?_⟩
    · exact cueDone_layer_of (by rw [hlayers]; exact upd_self e.layers l _)
    · exact cueDone_layer_of (by rw [hlayers]; exact upd_other e.layers l i _ hne.symm)
    · exact cueDone_tells (events := []) (by rw [hcyc]) (by rw [hcyc]) (by rw [hrest]; rfl) rfl
    · exact cueDone_cyc.trans hcyc
    · exact cueDone_voices.trans (by rw [hrest]; rfl)
    · exact cueDone_frame (by rw [hrest]; rfl) (by rw [hrest]; rfl) (by rw [hrest]; rfl) (by rw [hrest]; rfl)
        (by rw [hrest]; rfl) (by rw [hrest]; rfl) (by rw [hrest]; rfl)
  · intro layers
    rw [hdone (t := redoLayer l e) ha rfl rfl rfl (by
      simp only [actOn, ha, ht]
      exact redoCue_done hh hset hr), redoLayer_swaps hr]

end Sys2Proof.Settled
end

section
/-! What a reclaim of kept chains leaves, entry by entry of the undo age list (R106, R108), and the RECORD that starts a
capture (R45, R46, R73). -/

set_option Elab.async false

namespace Sys2Proof.Machine

/-! ## The walk along the undo age list -/

/-- The entry is one a reclaim passes over: the UNDO chain of a layer with a written range, or a chain of the layer the
pages are for (R108). -/
def Engine.passedOver (g : Engine) (own : Option LayerIx) (a : LayerIx × AgeKind) : Bool :=
  (a.2 == .undo && g.layers[a.1].written.isSome) || own == some a.1

theorem Engine.reclaimed_next (g : Engine) (own : Option LayerIx) {n : Nat} {a : LayerIx × AgeKind}
    (ha : g.mem.age[n]? = some a) :
    g.reclaimed own (n + 1) = g.reclaimed own n ++ if g.passedOver own a then [] else [a] := by
  unfold Engine.reclaimed
  rw [List.take_add_one, ha, List.filter_append]
  refine congrArg _ ?_
  show [a].filter (fun a => !g.passedOver own a) = _
  cases h : g.passedOver own a <;> simp [h]

/-- The free list once the first `n` entries of the age list have been reclaimed. -/
def Engine.pagesAfter (g : Engine) (own : Option LayerIx) (n : Nat) : List Nat :=
  g.mem.free ++ (g.reclaimed own n).flatMap fun a => (g.keptChain a).getD []

/-- The engine `t` is `g` once a reclaim has gone over the first `n` entries of its undo age list (R106, R108). -/
structure Walked (g : Engine) (own : Option LayerIx) (n : Nat) (t : Engine) : Prop where
  reclaims : Reclaims g t
  free : t.mem.free = g.pagesAfter own n
  age : t.mem.age = g.mem.age.filter fun a => decide (a ∉ g.reclaimed own n)
  told : t.evq = (g.reclaimed own n).foldl (fun q a => queueReport (.undoLost a.1) g.cyc.k g.cyc.p q) g.evq
  chains : ∀ i : LayerIx, t.layers[i] =
    if (i, AgeKind.undo) ∈ g.reclaimed own n then { g.layers[i] with undo := none }
    else if (i, AgeKind.redo) ∈ g.reclaimed own n then { g.layers[i] with redo := none } else g.layers[i]

theorem Walked.start (g : Engine) (own : Option LayerIx) : Walked g own 0 g where
  reclaims := .refl g
  free := (List.append_nil _).symm
  age := (List.filter_eq_self.2 fun _ _ => decide_eq_true List.not_mem_nil).symm
  told := rfl
  chains := fun _ => rfl

theorem Walked.skips {g t : Engine} {own : Option LayerIx} {n : Nat} {a : LayerIx × AgeKind} (h : Walked g own n t)
    (ha : g.mem.age[n]? = some a) (hs : g.passedOver own a = true) : Walked g own (n + 1) t := by
  have hsame : g.reclaimed own (n + 1) = g.reclaimed own n := by
    rw [g.reclaimed_next own ha, hs, if_pos rfl, List.append_nil]
  exact ⟨h.reclaims, h.free.trans (by rw [Engine.pagesAfter, Engine.pagesAfter, hsame]), hsame ▸ h.age, hsame ▸ h.told,
    hsame ▸ h.chains⟩

/-- An entry still to come names a layer of which nothing has been reclaimed. -/
theorem Engine.reclaimed_before {g : Engine} (hnodup : (g.mem.age.map Prod.fst).Nodup) (own : Option LayerIx) {n : Nat}
    {a b : LayerIx × AgeKind} (ha : g.mem.age[n]? = some a) (hb : b ∈ g.reclaimed own n) : b.1 ≠ a.1 := by
  intro heq
  obtain ⟨hbn, -⟩ := List.mem_filter.1 hb
  obtain ⟨i, hi, hbi⟩ := List.getElem_of_mem hbn
  rw [List.length_take, lt_min_iff] at hi
  obtain ⟨hn, han⟩ := List.getElem?_eq_some_iff.1 ha
  rw [List.getElem_take] at hbi
  have hsame := (hnodup.getElem_inj_iff (i := i) (hi := by simpa using hi.2) (j := n) (hj := by simpa using hn)).1
    (by simp only [List.getElem_map, hbi, han, heq])
  omega

/-- A layer record without its kept chain of a kind. -/
def Layer.forgets (k : AgeKind) (r : Layer) : Layer :=
  match k with
  | .undo => { r with undo := none }
  | .redo => { r with redo := none }

theorem reclaimOne_eq (l : LayerIx) (k : AgeKind) (e : Engine) :
    reclaimOne l k e
      = post (.undoLost l) (modLayer l (Layer.forgets k) (dropAge l (freeChain l (e.keptChain (l, k)) e))) := by
  cases k <;> rfl

/-- One kept chain is reclaimed. -/
theorem Walked.frees {g t : Engine} (hnodup : (g.mem.age.map Prod.fst).Nodup) {own : Option LayerIx} {n : Nat}
    {l : LayerIx} {k : AgeKind} (h : Walked g own n t) (ha : g.mem.age[n]? = some (l, k))
    (hs : g.passedOver own (l, k) = false) : Walked g own (n + 1) (reclaimOne l k t) := by
  have hnext : g.reclaimed own (n + 1) = g.reclaimed own n ++ [(l, k)] := by
    rw [g.reclaimed_next own ha, hs, if_neg Bool.false_ne_true]
  have hnew : ∀ k', (l, k') ∉ g.reclaimed own n := fun k' hm => Engine.reclaimed_before hnodup own ha hm rfl
  have hl : t.layers[l] = g.layers[l] := by rw [h.chains l, if_neg (hnew _), if_neg (hnew _)]
  have hcyc := h.reclaims.cyc
  have hone := reclaimOne_eq l k t
  have hkept : t.keptChain (l, k) = g.keptChain (l, k) := by
    unfold Engine.keptChain
    dsimp only
    rw [hl]
  rw [hkept] at hone
  generalize hchain : g.keptChain (l, k) = chain at hone
  have hframe := freeChain_frame l chain t
  refine ⟨h.reclaims.trans (reclaimOne_reclaims l k t), ?_, ?_, ?_, fun i => ?_⟩
  · rw [hone]
    refine (freeChain_free l chain t).trans ?_
    rw [h.free, Engine.pagesAfter, Engine.pagesAfter, hnext, List.flatMap_append, ← List.append_assoc]
    simp only [hchain, List.flatMap_cons, List.flatMap_nil, List.append_nil]
  · have hage : (freeChain l chain t).mem.age = t.mem.age := by rw [hframe]
    have hdrop : (reclaimOne l k t).mem.age = t.mem.age.filter fun a => a.1 != l := by
      rw [hone, ← hage]
      rfl
    rw [hdrop, h.age, List.filter_filter, hnext]
    refine List.filter_congr fun b hb => ?_
    have hiff : b.1 = l ↔ b = (l, k) := by
      refine ⟨fun hbl => ?_, fun hbl => by rw [hbl]⟩
      exact List.inj_on_of_nodup_map hnodup hb (List.mem_of_getElem? ha) hbl
    have hne : (b.1 != l) = decide (b ≠ (l, k)) := by
      rw [Bool.eq_iff_iff, bne_iff_ne, ne_eq, hiff, decide_eq_true_eq]
    rw [hne]
    simp [and_comm]
  · have hevq : (freeChain l chain t).evq = t.evq := by rw [hframe]
    have hk : (freeChain l chain t).cyc = g.cyc := by rw [hframe]; exact hcyc
    rw [hone, hnext, List.foldl_append, ← h.told, ← hk, ← hevq]
    rfl
  · have hlayers : (freeChain l chain t).layers = t.layers := by rw [hframe]
    have hupd : (reclaimOne l k t).layers = upd t.layers l (Layer.forgets k) := by
      rw [hone, ← hlayers]
      rfl
    rw [hupd, hnext]
    by_cases hi : i = l
    · subst hi
      rw [Fin.getElem_fin, upd_self]
      have hlast : ∀ k', ((i, k') ∈ g.reclaimed own n ++ [(i, k)] ↔ k' = k) := fun k' => by
        simp [hnew k']
      simp only [hlast]
      rw [← Fin.getElem_fin, hl]
      cases k <;> rfl
    · have hother : ∀ k', ((i, k') ∈ g.reclaimed own n ++ [(l, k)] ↔ (i, k') ∈ g.reclaimed own n) := fun k' => by
        simp [hi]
      simp only [hother]
      rw [← h.chains i]
      exact upd_other t.layers l i _ (Ne.symm hi)

/-- A reclaim goes over the entries of the age list until there are pages enough or no entry is left (R106, R108). -/
theorem reclaimWalk_walked {g : Engine} (hnodup : (g.mem.age.map Prod.fst).Nodup) (need extra : Nat)
    (own : Option LayerIx) {rest : List (LayerIx × AgeKind)} {n : Nat} {t : Engine} (h : Walked g own n t)
    (hrest : g.mem.age.drop n = rest) (hn : n ≤ g.mem.age.length)
    (hshort : ∀ i < n, (g.pagesAfter own i).length + extra < need) :
    ∃ k ≤ g.mem.age.length, Walked g own k (reclaimWalk need extra own rest t)
      ∧ (∀ i < k, (g.pagesAfter own i).length + extra < need)
      ∧ (k = g.mem.age.length ∨ need ≤ (g.pagesAfter own k).length + extra) := by
  induction rest generalizing n t with
  | nil => exact ⟨n, hn, h, hshort, .inl (Nat.le_antisymm hn (List.drop_eq_nil_iff.1 hrest))⟩
  | cons a rest ih =>
    obtain ⟨l, k⟩ := a
    have ha : g.mem.age[n]? = some (l, k) := by
      rw [← List.head?_drop, hrest]
      rfl
    have hn' : n + 1 ≤ g.mem.age.length := (List.getElem?_eq_some_iff.1 ha).1
    have hrest' : g.mem.age.drop (n + 1) = rest := by rw [← List.tail_drop, hrest]; rfl
    by_cases henough : need ≤ t.mem.free.length + extra
    · exact ⟨n, hn, by simpa only [reclaimWalk, if_pos henough] using h, hshort, .inr (h.free ▸ henough)⟩
    · have hshort' : ∀ i < n + 1, (g.pagesAfter own i).length + extra < need := fun i hi => by
        rcases Nat.lt_succ_iff_lt_or_eq.1 hi with hi | rfl
        · exact hshort i hi
        · rw [← h.free]
          omega
      have hpass : ((k = .undo ∧ (t.layers[l].written).isSome) ∨ own = some l) ↔ g.passedOver own (l, k) = true := by
        rw [show t.layers[l].written = g.layers[l].written by rw [h.reclaims.layer l]]
        simp [Engine.passedOver]
      cases hs : g.passedOver own (l, k) with
      | true =>
        have hwalk : reclaimWalk need extra own ((l, k) :: rest) t = reclaimWalk need extra own rest t := by
          rw [reclaimWalk, if_neg henough, if_pos (hpass.2 hs)]
        rw [hwalk]
        exact ih (h.skips ha hs) hrest' hn' hshort'
      | false =>
        have hwalk : reclaimWalk need extra own ((l, k) :: rest) t = reclaimWalk need extra own rest (reclaimOne l k t) := by
          rw [reclaimWalk, if_neg henough, if_neg fun hp => Bool.false_ne_true (hs.symm.trans (hpass.1 hp))]
        rw [hwalk]
        exact ih (h.frees hnodup ha hs) hrest' hn' hshort'

/-! ## A capture that starts -/

theorem freeSlot?_some {e : Engine} {sl : SlotIx} (h : e.firstFree sl) : freeSlot? e = some sl := by
  obtain ⟨hfree, hfirst⟩ := h
  match sl with
  | 0 => exact List.find?_cons_of_pos (beq_iff_eq.2 hfree)
  | 1 =>
    have h0 : ¬(e.slots[(0 : SlotIx)].use == .free) = true := fun h => hfirst 0 (by decide) (beq_iff_eq.1 h)
    show [(0 : SlotIx), 1].find? (fun s => e.slots[s].use == .free) = some 1
    simp only [List.find?_cons, h0, beq_iff_eq.2 hfree]

/-- A splice that is not being fetched outlives a capture's start (R21). -/
theorem captureStops_calm {e : Engine} (h : ∀ r, e.cyc.splice ≠ .fetching r) : captureStops e = e := by
  unfold captureStops
  cases hsp : e.cyc.splice with
  | fetching r => exact absurd hsp (h r)
  | _ => rfl

section
variable {e : Engine} {l : LayerIx} {lane : LaneIx} {n number : Nat} {sl : SlotIx}

/-- The slot a capture or an overdub has taken (R82). -/
def Slot.taken (use : SlotUse) (l : LayerIx) (lane : LaneIx) (start : Option Nat) (old : Slot) : Slot :=
  { use := use, layer := some l, lane := some lane, start := start, last := none, count := 0, first := none,
    staging := old.staging, pendingWrites := [] }

theorem startBase_eq (hc : e.cyc.state = .unset) :
    startBase sl l lane number e = ({ e with
      layers := upd e.layers l fun r =>
        { r with cur := some [], slot := some sl, state := .capturing, lastChange := e.cyc.k }
      slots := upd e.slots sl (Slot.taken .base l lane none)
      cyc := { e.cyc with state := .baseCapture, base := some l, captureThisPass := true }
      mix := { e.mix with window := 0 } } : Engine).reports (.layerState l .capturing .cue number) := by
  unfold startBase setCycleState
  simp only [setLayerState_eq, takeSlot, Engine.reports, modLayer, modSlot, hc, upd_upd, reduceCtorEq, if_false]
  rfl

theorem startFixed_eq (pages : List Nat) (hsp : ∀ r, e.cyc.splice ≠ .fetching r) :
    startFixed sl l n lane pages number e = ({ e with
      layers := upd e.layers l fun r =>
        { r with mult := some n, cur := some pages, slot := some sl, state := .capturing, lastChange := e.cyc.k }
      slots := upd e.slots sl (Slot.taken .fixed l lane (some ((e.cyc.m % n) * e.cyc.c + e.cyc.p)))
      cyc := { e.cyc with captureThisPass := true } } : Engine).reports (.layerState l .capturing .cue number) := by
  have hpos : layerPos (modLayer l (fun r => { r with mult := some n, cur := some pages }) e) l
      = some ((e.cyc.m % n) * e.cyc.c + e.cyc.p) := by
    rw [layerPos, show ((modLayer l (fun r => { r with mult := some n, cur := some pages }) e).layers[l]).mult = some n from
      congrArg Layer.mult (upd_self e.layers l _)]
    rfl
  unfold startFixed
  dsimp only
  rw [hpos, captureStops_calm (by exact hsp)]
  simp only [setLayerState_eq, takeSlot, Engine.reports, modLayer, modSlot, upd_upd]
  rfl

theorem recordCue_base (h : e.layers[l].state = .armed) (hc : e.cyc.state = .unset) (hh : e.layers[l].hold = .none)
    (hs : e.firstFree sl) : recordCue n lane number l e = done (startBase sl l lane number e) := by
  simp only [recordCue, h, hh, hc, ne_eq, not_true_eq_false, if_false, freeSlot?_some hs]

theorem recordCue_fixed (h : e.layers[l].state = .armed) (hc : e.cyc.state = .running) (hh : e.layers[l].hold = .none)
    (hs : e.firstFree sl) : recordCue n lane number l e = match allocChain (pagesFor (n * e.cyc.c)) e with
      | (none, e1) => failed .noSpace e1
      | (some pages, e1) => done (startFixed sl l n lane pages number e1) := by
  simp only [recordCue, h, hh, hc, ne_eq, not_true_eq_false, if_false, freeSlot?_some hs] <;> rfl

end

end Sys2Proof.Machine

namespace Sys2Proof.Settled
open Sys2Proof.Machine

/-- Settles O44: the start of a base capture and of a fixed one, the NO_SPACE of the latter, and the walk of a reclaim. -/
theorem recordCue : Obligations.RecordCue := by
  intro s c before after n lane l sl h ha ht hlock harmed hhold hfree e slot started
  have hlocked : ∀ k, c.action.lane? = some k → s.eng.lockedLane k := fun k hl => by
    obtain rfl := Option.some.inj ((by rw [ha]; rfl : c.action.lane? = some lane).symm.trans hl)
    exact hlock
  have hact : actOn c e = Machine.recordCue n lane c.number l e := by simp only [actOn, ha, ht]
  have hrun : ∀ len, e.cyc.state = .running → e.cyc.len = some len →
      let need := (n * len + 16383) / 16384
      let walk := reclaimWalk need 0 none e.mem.age e
      (walk.mem.free.length < need → exec .record s = .next (s.recordFailed c l .noSpace walk))
      ∧ (need ≤ walk.mem.free.length → (∀ r, e.cyc.splice ≠ .fetching r) →
        exec .record s = .next (s.cueDone c (({ walk with
          layers := upd walk.layers l fun r =>
            { r with mult := some n, cur := some (walk.mem.free.take need), slot := some sl, state := .capturing,
                     lastChange := e.cyc.k }
          slots := upd walk.slots sl (Slot.taken .fixed l lane (some ((e.cyc.m % n) * len + e.cyc.p)))
          cyc := { e.cyc with captureThisPass := true }
          mem := { walk.mem with free := walk.mem.free.drop need } } : Engine).reports started))) := by
    intro len hc hlen need
    have hrec := reclaimWalk_reclaims need 0 none e.mem.age e
    have hshort := allocChain_fails (need := need) (e := e)
    have henough := allocChain_gives (need := need) (e := e)
    generalize reclaimWalk need 0 none e.mem.age e = walk at hrec hshort henough ⊢
    have hc' : e.cyc.c = len := congrArg (Option.getD · 0) hlen
    have hcue := hact.trans (recordCue_fixed harmed hc hhold hfree)
    rw [pagesFor_eq, hc'] at hcue
    refine ⟨fun hfew => ?_, fun hmany hsp => ?_⟩
    · rw [hshort hfew] at hcue
      refine (cueRow_failed h (by rw [ha]) hlocked hcue).trans (congrArg _ (disarmFor_drops ha ht ?_ _))
      rw [hrec.layer l]
      exact harmed
    · rw [henough hmany] at hcue
      refine (cueRow_done h (by rw [ha]) hlocked hcue).trans (congrArg (fun t => Host.Outcome.next (s.cueDone c t)) ?_)
      rw [startFixed_eq _ (by exact hrec.cyc ▸ hsp)]
      simp only [hrec.cyc, hc']
      rfl
  refine ⟨fun hc => ?_, fun len hc hlen hsp => ?_, fun len hc hlen => ?_, fun g need extra own hnodup => ?_⟩
  · intro layers cyc
    refine (cueRow_done h (by rw [ha]) hlocked (hact.trans (recordCue_base harmed hc hhold hfree))).trans ?_
    rw [startBase_eq hc]
    rfl
  · intro need henough layers start
    have hwalk := (hrun len hc hlen).2
    rw [reclaimWalk_enough henough] at hwalk
    exact hwalk henough hsp
  · exact hrun len hc hlen
  · intro walk pages
    obtain ⟨k, hk, hw, hshort, hstop⟩ := reclaimWalk_walked hnodup need extra own (Walked.start g own) rfl (Nat.zero_le _)
      (fun i hi => absurd hi (Nat.not_lt_zero i))
    exact ⟨k, hk, hw.free, hshort, hstop, hw.age, hw.told, hw.chains, hw.reclaims.slot, hw.reclaims.rest⟩

end Sys2Proof.Settled
end

section
/-! How a splice ends for its voices (R20, R21, R23), what a reclaim for an overdub leaves of the layer it is for, and the
cues OVERDUB and OVERDUB_END (R49, R50, R75, R94 to R98, R109). -/

set_option Elab.async false

namespace Sys2Proof.Machine

/-! ## The voices of a splice -/

/-- The voices once those of a list have changed. -/
def voicesIn (vs : List LayerIx) (f : LayerIx → Voice → Voice) (voices : Vector Voice 16) : Vector Voice 16 :=
  Vector.ofFn fun i => if i ∈ vs then f i voices[i] else voices[i]

theorem voicesIn_get (vs : List LayerIx) (f : LayerIx → Voice → Voice) (voices : Vector Voice 16) (i : LayerIx) :
    (voicesIn vs f voices)[i] = if i ∈ vs then f i voices[i] else voices[i] := by
  simp only [voicesIn, Fin.getElem_fin, Vector.getElem_ofFn]

theorem voicesIn_cons (a : LayerIx) (vs : List LayerIx) (f : LayerIx → Voice → Voice) (voices : Vector Voice 16)
    (hf : ∀ v, f a (f a v) = f a v) : voicesIn vs f (upd voices a (f a)) = voicesIn (a :: vs) f voices := by
  refine Vector.ext fun j hj => ?_
  have h1 := voicesIn_get vs f (upd voices a (f a)) ⟨j, hj⟩
  have h2 := voicesIn_get (a :: vs) f voices ⟨j, hj⟩
  refine h1.trans (Eq.trans ?_ h2.symm)
  by_cases hja : (⟨j, hj⟩ : LayerIx) = a
  · subst hja
    have hself := upd_self voices ⟨j, hj⟩ (f ⟨j, hj⟩)
    simp only [Fin.getElem_fin, List.mem_cons, true_or, if_true] at hself ⊢
    rw [hself, hf, ite_self]
  · have hother := upd_other voices a ⟨j, hj⟩ (f a) (Ne.symm hja)
    simp only [Fin.getElem_fin, List.mem_cons, hja, false_or] at hother ⊢
    rw [hother]

theorem voicesIn_nil (f : LayerIx → Voice → Voice) (voices : Vector Voice 16) : voicesIn [] f voices = voices :=
  Vector.ext fun j hj => voicesIn_get [] f voices ⟨j, hj⟩

theorem foldl_modVoice (f : LayerIx → Voice → Voice) (hf : ∀ i v, f i (f i v) = f i v) (vs : List LayerIx) (e : Engine) :
    vs.foldl (fun e i => modVoice i (f i) e) e = { e with voices := voicesIn vs f e.voices } := by
  induction vs generalizing e with
  | nil => rw [voicesIn_nil]; rfl
  | cons a vs ih => rw [List.foldl_cons, ih, ← voicesIn_cons a vs f e.voices (hf a)]; rfl

/-- A voice whose stream of the splice is discarded (R20, R21). -/
def Voice.unstreamed (v : Voice) : Voice := { v with spl := Run.nil }

theorem discardStreams_eq (vs : List LayerIx) (e : Engine) :
    discardStreams vs e = { e with voices := voicesIn vs (fun _ => Voice.unstreamed) e.voices } :=
  foldl_modVoice (fun _ => Voice.unstreamed) (fun _ _ => rfl) vs e

theorem Voice.leaves_leaves (len : Nat) (r : SpliceRec) (v : Voice) : (v.leaves len r).leaves len r = v.leaves len r := by
  by_cases h : r.count < r.x
  · simp only [Voice.leaves, if_pos h]
    rfl
  · simp only [Voice.leaves, if_neg h]
    rfl

/-- The engine once a crossfade has ended: each voice of it goes on with its new stream (R8, R23). -/
theorem endCrossfade_eq {e : Engine} {r : SpliceRec} (h : e.cyc.splice = .crossfading r) :
    endCrossfade e = { e with
      cyc := { e.cyc with splice := .idle }
      voices := voicesIn r.voices (fun i v => v.leaves (layerLen e i) r) e.voices } := by
  have hfold : ∀ (vs : List LayerIx) (t : Engine), t.layers = e.layers → t.cyc.len = e.cyc.len →
      vs.foldl (fun u v => modVoice v (Voice.leaves (layerLen u v) r) u) t
        = vs.foldl (fun u v => modVoice v (Voice.leaves (layerLen e v) r) u) t := by
    intro vs
    induction vs with
    | nil => exact fun _ _ _ => rfl
    | cons a vs ih =>
      intro t hl hc
      have hlen : layerLen t a = layerLen e a := by rw [layerLen, layerLen, Cycle.c, Cycle.c, hl, hc]
      rw [List.foldl_cons, List.foldl_cons, hlen]
      exact ih _ hl hc
  unfold endCrossfade
  rw [h]
  dsimp only
  rw [hfold r.voices { e with cyc := { e.cyc with splice := .idle } } rfl rfl]
  exact foldl_modVoice (fun i v => v.leaves (layerLen e i) r) (fun i v => Voice.leaves_leaves (layerLen e i) r v) r.voices
    { e with cyc := { e.cyc with splice := .idle } }

theorem abandonSplice_fetching {e : Engine} {r : SpliceRec} (h : e.cyc.splice = .fetching r) (reason : SkipReason) :
    abandonSplice reason e = ({ e with
      cyc := { e.cyc with splice := .idle }
      voices := voicesIn r.voices (fun _ => Voice.unstreamed) e.voices } : Engine).reports (.spliceSkipped r.j reason) := by
  unfold abandonSplice
  rw [h]
  dsimp only
  rw [discardStreams_eq]
  rfl

theorem abandonSplice_calm {e : Engine} (h : ∀ r, e.cyc.splice ≠ .fetching r) (reason : SkipReason) :
    abandonSplice reason e = e := by
  unfold abandonSplice
  cases hsp : e.cyc.splice with
  | fetching r => exact absurd hsp (h r)
  | _ => rfl

/-- What a capture or an overdub that takes a slot does to the splice: one in FETCHING ends, reported unless it was asked for
on the same frame (R21; entry 29). -/
theorem captureStops_fetching {e : Engine} {r : SpliceRec} (h : e.cyc.splice = .fetching r) :
    captureStops e = { e with
      cyc := { e.cyc with splice := .idle }
      voices := voicesIn r.voices (fun _ => Voice.unstreamed) e.voices
      evq := e.evq.told e.cyc.k e.cyc.p (if r.count = 0 then [] else [.spliceSkipped r.j .capture]) } := by
  unfold captureStops
  rw [h]
  dsimp only
  by_cases hc : r.count = 0
  · rw [if_pos hc, if_pos hc, discardStreams_eq]
    rfl
  · rw [if_neg hc, if_neg hc, abandonSplice_fetching h]
    rfl

/-! ## The stored sample of an overdub (R95) -/

/-- The stream a voice goes on with once it has left the splice (R20, R23). -/
def Voice.newStream (v : Voice) (i : LayerIx) : Splice → Run
  | .crossfading r => if i ∈ r.voices ∧ r.count < r.x ∧ v.spl.frames ≠ [] then v.spl else v.main
  | _ => v.main

/-- Of the new stream of a crossfade the main staging begins with what the splice buffer held. -/
theorem mergeStreams_main {len : Nat} {v : Voice} (h : v.spl.frames ≠ []) :
    (mergeStreams len v).main.base = v.spl.base
      ∧ ∃ more, (mergeStreams len v).main.frames = (v.spl.frames ++ more).take 512 := by
  have hfull : v.spl.frames.isEmpty = false := List.isEmpty_eq_false_iff.2 h
  simp only [mergeStreams, hfull, Bool.false_eq_true, if_false, true_and]
  exact ⟨_, rfl⟩

theorem mergeStreams_without {len : Nat} {v : Voice} (h : v.spl.frames = []) : (mergeStreams len v).main = v.main := by
  simp only [mergeStreams, h, List.isEmpty_nil, if_true]

/-- A voice that has left the splice holds its new stream from the same position on. -/
theorem Voice.left_main (v : Voice) (len : Nat) (i : LayerIx) (sp : Splice) :
    (v.left len i sp).main = v.newStream i sp
      ∨ (v.left len i sp).main.base = (v.newStream i sp).base ∧ (v.newStream i sp).frames ≠ []
        ∧ ∃ more, (v.left len i sp).main.frames = ((v.newStream i sp).frames ++ more).take 512 := by
  cases sp with
  | idle => exact .inl rfl
  | fetching r =>
    by_cases hi : i ∈ r.voices
    · exact .inl (by simp only [Voice.left, if_pos hi, Voice.newStream])
    · exact .inl (by simp only [Voice.left, if_neg hi, Voice.newStream])
  | crossfading r =>
    by_cases hi : i ∈ r.voices
    · have hleft : v.left len i (.crossfading r) = v.leaves len r := if_pos hi
      rw [hleft]
      obtain ⟨hlt, h⟩ | ⟨hge, h⟩ := Voice.leaves_cases len r v
      · rw [h]
        by_cases hspl : v.spl.frames = []
        · exact .inl ((mergeStreams_without hspl).trans (if_neg fun hn => hn.2.2 hspl).symm)
        · have hnew : v.newStream i (.crossfading r) = v.spl := if_pos ⟨hi, hlt, hspl⟩
          rw [hnew]
          exact .inr ⟨(mergeStreams_main hspl).1, hspl, (mergeStreams_main hspl).2⟩
      · rw [h]
        exact .inl (if_neg fun hn => absurd hn.2.1 (by omega)).symm
    · have hleft : v.left len i (.crossfading r) = v := if_neg hi
      rw [hleft]
      exact .inl (if_neg fun hn => hi hn.1).symm

/-- The stored sample where the voice reads and holds the frame at the position and the one after it (R95). -/
theorem storedSample_reads {e : Engine} {l : LayerIx} {a : Nat} {old next : Sample} {held : List Sample}
    (hcross : e.cyc.splice.crossing = true → e.voices[l].spl.frames = []) (hrs : e.voices[l].rs = .reading)
    (hclear : e.voices[l].clearing = false) (hpos : (layerPos e l).getD 0 = a) (ha : a < layerLen e l)
    (hlen : 1 < layerLen e l) (hbase : e.voices[l].main.base = a) (hframes : e.voices[l].main.frames = old :: next :: held) :
    storedSample e l a = old := by
  have hnew : ∀ q, (if e.cyc.splice.crossing = true then newFrame (layerLen e l) e.voices[l] q
      else runGet (layerLen e l) e.voices[l].main q) = runGet (layerLen e l) e.voices[l].main q := fun q => by
    split
    next hc => simp only [newFrame, runGet, hcross hc, List.getElem?_nil, Option.none_or]
    next => rfl
  obtain ⟨hfirst, hsecond⟩ := runGet_first hbase hframes ha hlen
  unfold storedSample
  simp only [hnew]
  simp only [hpos, hclear, hrs, hfirst, hsecond, Bool.false_eq_true, if_false, Option.isSome_some, and_self, if_true,
    Option.getD_some]

/-- The stored sample of a voice in its clear fade, and of one that does not read and holds no frame (R95; entry 56). -/
theorem storedSample_none {e : Engine} {l : LayerIx} (a : Nat)
    (hcross : e.cyc.splice.crossing = true → e.voices[l].spl.frames = [])
    (h : e.voices[l].clearing = true ∨ (e.voices[l].rs ≠ .reading ∧ e.voices[l].main.frames = [])) :
    storedSample e l a = 0 := by
  unfold storedSample
  rcases h with hclear | ⟨hrs, hframes⟩
  · simp only [hclear, if_true]
  · have hnew : ∀ q, (if e.cyc.splice.crossing = true then newFrame (layerLen e l) e.voices[l] q
        else runGet (layerLen e l) e.voices[l].main q) = none := fun q => by
      split
      next hc => simp only [newFrame, runGet, hcross hc, hframes, List.getElem?_nil, Option.none_or]
      next => simp only [runGet, hframes, List.getElem?_nil]
    dsimp only
    split
    · rfl
    · cases hr : e.voices[l].rs with
      | reading => exact absurd hr hrs
      | priming => simp only [hnew, Option.getD_none]
      | _ => rfl

/-! ## The chains of an overdub (R108, R109) -/

section
variable {e : Engine} {l : LayerIx}

theorem freeChain_cues (chain : Option (List Nat)) (q : CueQueue) :
    freeChain l chain { e with cues := q } = { freeChain l chain e with cues := q } := by
  match chain with
  | none | some [] | some (_ :: _) => rfl

theorem reclaimOne_cues (k : AgeKind) (q : CueQueue) :
    reclaimOne l k { e with cues := q } = { reclaimOne l k e with cues := q } := by
  rw [reclaimOne_eq, reclaimOne_eq]
  exact congrArg (fun t => post (.undoLost l) (modLayer l (Layer.forgets k) (dropAge l t)))
    (freeChain_cues (e.keptChain (l, k)) q)

/-- A reclaim does not look at the cue queue. -/
theorem reclaimWalk_cues (need extra : Nat) (own : Option LayerIx) (list : List (LayerIx × AgeKind)) (e : Engine)
    (q : CueQueue) :
    reclaimWalk need extra own list { e with cues := q } = { reclaimWalk need extra own list e with cues := q } := by
  induction list generalizing e with
  | nil => rfl
  | cons a rest ih =>
    obtain ⟨l, k⟩ := a
    unfold reclaimWalk
    dsimp only
    split_ifs
    · rfl
    · exact ih e
    · rw [reclaimOne_cues]
      exact ih _

/-- A reclaim leaves the chains of the layer that it is for. -/
theorem reclaimWalk_own (need extra : Nat) (list : List (LayerIx × AgeKind)) (e : Engine) :
    (reclaimWalk need extra (some l) list e).layers[l] = e.layers[l] := by
  induction list generalizing e with
  | nil => rfl
  | cons a rest ih =>
    obtain ⟨i, k⟩ := a
    unfold reclaimWalk
    split_ifs with h1 h2
    · rfl
    · exact ih e
    · have hil : i ≠ l := fun hil => h2 (.inr (by rw [hil]))
      refine (ih _).trans ?_
      rw [reclaimOne_eq]
      refine (upd_other _ i l _ hil).trans ?_
      show (freeChain i (e.keptChain (i, k)) e).layers[l] = e.layers[l]
      rw [freeChain_frame]

/-- What a freed chain leaves of the staging of a slot (R102). -/
theorem freeChain_staging (chain : Option (List Nat)) (i : SlotIx) :
    (freeChain l chain e).slots[i] = match chain with
      | some (key :: _) => dropEntries l key e.slots[i]
      | _ => e.slots[i] := by
  match chain with
  | none | some [] => rfl
  | some (key :: rest) =>
    rw [freeChain, eachSlot_modSlot, dropJobs_slots]
    rfl

theorem freeChain_staging_other {i : SlotIx} (h : ∀ en ∈ e.slots[i].staging, en.layer ≠ l) (chain : Option (List Nat)) :
    (freeChain l chain e).slots[i] = e.slots[i] := by
  rw [freeChain_staging]
  split
  next key _ =>
    have hall : e.slots[i].staging.filter (fun en => !(en.layer == l && en.key == key)) = e.slots[i].staging :=
      List.filter_eq_self.2 fun en hen => by simp [h en hen]
    exact congrArg (fun st => { e.slots[i] with staging := st }) hall
  next => rfl

theorem freeChain_staging_mem {chain : Option (List Nat)} {i : SlotIx} {en : Entry}
    (h : en ∈ (freeChain l chain e).slots[i].staging) : en ∈ e.slots[i].staging := by
  rw [freeChain_staging] at h
  split at h
  · exact (List.mem_filter.1 h).1
  · exact h

theorem reclaimWalk_staging_mem {need extra : Nat} {own : Option LayerIx} {list : List (LayerIx × AgeKind)} {e : Engine}
    {i : SlotIx} {en : Entry} (h : en ∈ (reclaimWalk need extra own list e).slots[i].staging) :
    en ∈ e.slots[i].staging := by
  induction list generalizing e with
  | nil => exact h
  | cons a rest ih =>
    obtain ⟨j, k⟩ := a
    unfold reclaimWalk at h
    split_ifs at h
    · exact h
    · exact ih h
    · have hone := ih h
      rw [reclaimOne_eq] at hone
      exact freeChain_staging_mem hone

/-- The free list an overdub takes its chain from: with the older chains of its layer (R109). -/
def Engine.overdubPool (e : Engine) (l : LayerIx) : List Nat :=
  e.mem.free ++ e.layers[l].redo.getD [] ++ e.layers[l].undo.getD []

theorem overdubChains_spec (n : Nat) :
    let t := overdubChains l n e
    t = { e with
        layers := upd e.layers l fun r => { r with cur := some ((e.overdubPool l).take n), undo := r.cur, redo := none }
        slots := t.slots, mem := { t.mem with cells := e.mem.cells } }
      ∧ t.mem.free = (e.overdubPool l).drop n
      ∧ t.mem.age = (e.mem.age.filter fun g => g.1 != l) ++ [(l, .undo)]
      ∧ (∀ i : SlotIx, (t.slots[i]).sameButStaging e.slots[i])
      ∧ ∀ i : SlotIx, (∀ en ∈ e.slots[i].staging, en.layer ≠ l) → t.slots[i] = e.slots[i] := by
  obtain ⟨F, hF⟩ : ∃ F, F = freeChain l e.layers[l].undo (freeChain l e.layers[l].redo e) := ⟨_, rfl⟩
  have hrec : Reclaims e F := hF ▸ (freeChain_reclaims _ _ _).trans (freeChain_reclaims _ _ _)
  have hfree : F.mem.free = e.overdubPool l := by rw [hF, freeChain_free, freeChain_free]; rfl
  have hage : F.mem.age = e.mem.age := by rw [hF, freeChain_frame, freeChain_frame]
  have hlayers : F.layers = e.layers := by rw [hF, freeChain_frame, freeChain_frame]
  have hevq : F.evq = e.evq := by rw [hF, freeChain_frame, freeChain_frame]
  have ht : overdubChains l n e = { F with
      layers := upd F.layers l fun r => { r with cur := some (F.mem.free.take n), undo := r.cur, redo := none }
      mem := { F.mem with free := F.mem.free.drop n, age := (F.mem.age.filter fun g => g.1 != l) ++ [(l, .undo)] } } := by
    rw [hF]
    rfl
  intro t
  have ht' : t = _ := ht
  clear_value t
  refine ⟨?_, ?_, ?_, fun i => ?_, fun i hi => ?_⟩
  · have hcells : F.mem.cells = e.mem.cells := by rw [hrec.rest]
    have hrest := hrec.rest
    rw [hevq] at hrest
    rw [ht', hlayers, hfree]
    refine (congrArg (fun T : Engine => { T with
      layers := upd e.layers l fun r => { r with cur := some ((e.overdubPool l).take n), undo := r.cur, redo := none }
      mem := { F.mem with
        free := (e.overdubPool l).drop n
        age := (F.mem.age.filter fun g : LayerIx × AgeKind => g.1 != l) ++ [(l, AgeKind.undo)] } }) hrest).trans ?_
    rw [hcells.symm]
  · rw [ht', hfree]
  · rw [ht', hage]
  · rw [ht']
    exact hrec.slot i
  · rw [ht', hF]
    have hredo := freeChain_staging_other hi e.layers[l].redo
    exact (freeChain_staging_other (by rw [hredo]; exact hi) _).trans hredo

end

/-! ## The splice as an overdub starts (R20, R21, R23) -/

/-- The splice once an overdub on layer `l` has begun: one in FETCHING is dropped, a crossfade goes on without the layer. -/
def Splice.afterOverdub (l : LayerIx) : Splice → Splice
  | .fetching _ => .idle
  | sp => sp.without (· == l)

/-- What an overdub that begins reports of the splice (R21; entry 29). -/
def Splice.dropped : Splice → List Event
  | .fetching r => if r.count = 0 then [] else [.spliceSkipped r.j .capture]
  | _ => []

/-- The voice of the layer leaves the splice; the others go on, or, with the splice dropped, lose its stream. -/
def Splice.voiceAfter (sp : Splice) (l i : LayerIx) (now v : Voice) : Prop :=
  match sp with
  | .crossfading r => if i = l then now.quits v i (.crossfading r) else now = v
  | sp => now.quits v i sp

theorem leaveSplice_idle {e : Engine} (h : e.cyc.splice = .idle) (l : LayerIx) : leaveSplice l e = e := by
  rw [leaveSplice, h]

theorem leave_captureStops (l : LayerIx) (e : Engine) :
    ∃ voices : Vector Voice 16,
      leaveSplice l (captureStops e) = { e with
        cyc := { e.cyc with splice := e.cyc.splice.afterOverdub l }
        voices := voices, evq := e.evq.told e.cyc.k e.cyc.p e.cyc.splice.dropped }
      ∧ voices[l] = (e.voices[l]).left (layerLen e l) l e.cyc.splice
      ∧ ∀ i : LayerIx, e.cyc.splice.voiceAfter l i voices[i] e.voices[i] := by
  have hcalm : (∀ r, e.cyc.splice ≠ .fetching r) →
      leaveSplice l (captureStops e) = { e with
        cyc := { e.cyc with splice := e.cyc.splice.without (· == l) }
        voices := upd e.voices l fun v => v.left (layerLen e l) l e.cyc.splice } := fun h => by
    rw [captureStops_calm h, leaveSplice_eq]
  cases hsp : e.cyc.splice with
  | idle =>
    refine ⟨upd e.voices l fun v => v.left (layerLen e l) l e.cyc.splice,
      (hcalm fun r h => by rw [hsp] at h; cases h).trans ?_, (upd_self e.voices l _).trans
      (congrArg (fun sp => e.voices[l].left (layerLen e l) l sp) hsp), fun i => ?_⟩
    · rw [hsp]
      rfl
    · refine upd_keeps e.voices l (fun v => v) ?_ i
      rw [hsp]
      rfl
  | fetching r =>
    refine ⟨voicesIn r.voices (fun _ => Voice.unstreamed) e.voices, ?_, voicesIn_get _ _ _ _,
      fun i => voicesIn_get _ _ _ _⟩
    rw [captureStops_fetching hsp, leaveSplice_idle (by rfl)]
    rfl
  | crossfading r =>
    refine ⟨upd e.voices l fun v => v.left (layerLen e l) l e.cyc.splice,
      (hcalm fun r h => by rw [hsp] at h; cases h).trans ?_, (upd_self e.voices l _).trans
      (congrArg (fun sp => e.voices[l].left (layerLen e l) l sp) hsp), fun i => ?_⟩
    · rw [hsp]
      rfl
    · unfold Splice.voiceAfter
      by_cases hi : i = l
      · subst hi
        simp only [if_true]
        have hself := upd_self e.voices i fun v => v.left (layerLen e i) i e.cyc.splice
        rw [Fin.getElem_fin, hself, hsp]
        exact Voice.left_quits _ _ _ _
      · simp only [hi, if_false]
        exact upd_other e.voices l i _ (Ne.symm hi)

/-! ## OVERDUB and OVERDUB_END (R49, R50, R75) -/

/-- A layer is as long as another with the same multiple in a cycle of the same length. -/
theorem layerLen_congr {e t : Engine} {l : LayerIx} (hmult : t.layers[l].mult = e.layers[l].mult)
    (hlen : t.cyc.len = e.cyc.len) : layerLen t l = layerLen e l := by
  rw [layerLen, layerLen, Cycle.c, Cycle.c, hmult, hlen]

/-- The engine once an overdub has begun, but for its first write. -/
theorem startOverdub_spec {e : Engine} {l : LayerIx} {sl : SlotIx} {lane : LaneIx} {level feedback number : Nat}
    (hsl : ∀ en ∈ e.slots[sl].staging, en.layer ≠ l) :
    let t := startOverdub sl l lane level feedback number e
    let a := (layerPos e l).getD 0
    let need := pagesFor (layerLen e l)
    t = { e with
        layers := upd e.layers l fun r =>
          { r with state := .overdubbing, cur := some ((e.overdubPool l).take need), undo := r.cur, redo := none,
                   written := some (a, 0), slot := some sl, level := level, feedback := feedback, lastChange := e.cyc.k }
        slots := t.slots, mem := { t.mem with cells := e.mem.cells }, voices := t.voices
        cyc := { e.cyc with captureThisPass := true, splice := e.cyc.splice.afterOverdub l }
        evq := e.evq.told e.cyc.k e.cyc.p ([.layerState l .overdubbing .cue number] ++ e.cyc.splice.dropped) }
      ∧ t.mem.free = (e.overdubPool l).drop need
      ∧ t.mem.age = (e.mem.age.filter fun g => g.1 != l) ++ [(l, .undo)]
      ∧ (∀ i : SlotIx, i ≠ sl → (t.slots[i]).sameButStaging e.slots[i])
      ∧ (∃ E : Engine, t.slots[sl] = { Slot.taken .overdub l lane none e.slots[sl] with
            pendingWrites := [overdubWrite E l e.lanes[lane].x a false] }
          ∧ E.cyc = t.cyc ∧ E.voices = t.voices ∧ E.layers = t.layers)
      ∧ t.voices[l] = (e.voices[l]).left (layerLen e l) l e.cyc.splice
      ∧ ∀ i : LayerIx, e.cyc.splice.voiceAfter l i t.voices[i] e.voices[i] := by
  intro t a need
  obtain ⟨hT, hfree, hage, hslots, hsame⟩ := overdubChains_spec (e := e) (l := l) need
  generalize hTdef : overdubChains l need e = T at hT hfree hage hslots hsame
  obtain ⟨S, hS⟩ : ∃ S, S = setLayerState l .overdubbing .cue number (takeSlot sl .overdub l lane none
      (modLayer l (fun r => { r with written := some (a, 0), level := level, feedback := feedback }) T)) := ⟨_, rfl⟩
  have hlayers : S.layers = upd e.layers l fun r =>
      { r with state := .overdubbing, cur := some ((e.overdubPool l).take need), undo := r.cur, redo := none,
               written := some (a, 0), slot := some sl, level := level, feedback := feedback, lastChange := e.cyc.k } := by
    rw [hS]
    simp only [setLayerState_eq, takeSlot, Engine.reports, modLayer, modSlot, upd_upd]
    rw [hT]
    simp only [upd_upd]
    rfl
  have hrest : S = { e with
      layers := S.layers, slots := upd T.slots sl (Slot.taken .overdub l lane none)
      mem := { T.mem with cells := e.mem.cells }, cyc := { e.cyc with captureThisPass := true }
      evq := e.evq.told e.cyc.k e.cyc.p [.layerState l .overdubbing .cue number] } := by
    rw [hlayers, hS]
    refine (congrArg (fun T => setLayerState l .overdubbing .cue number (takeSlot sl .overdub l lane none
      (modLayer l (fun r => { r with written := some (a, 0), level := level, feedback := feedback }) T))) hT).trans ?_
    simp only [setLayerState_eq, takeSlot, Engine.reports, modLayer, modSlot, upd_upd]
    rfl
  have hsp : S.cyc.splice = e.cyc.splice := by rw [hrest]
  have hvoices : S.voices = e.voices := by rw [hrest]
  have hlen : layerLen S l = layerLen e l := layerLen_congr (by
    rw [hlayers]
    exact upd_keeps e.layers l Layer.mult rfl l) (by rw [hrest])
  obtain ⟨V, hV, hVl, hVi⟩ := leave_captureStops l S
  have ht : t = modSlot sl (fun x => { x with pendingWrites :=
      [overdubWrite (leaveSplice l (captureStops S)) l (leaveSplice l (captureStops S)).lanes[lane].x a false] })
      (leaveSplice l (captureStops S)) := by
    rw [hS, ← hTdef]
    rfl
  obtain ⟨E, hE⟩ : ∃ E, E = leaveSplice l (captureStops S) := ⟨_, rfl⟩
  rw [← hE] at ht
  rw [← hE, hsp] at hV
  rw [hvoices, hlen, hsp] at hVl
  rw [hvoices, hsp] at hVi
  have hEslots : E.slots = upd T.slots sl (Slot.taken .overdub l lane none) := by rw [hV, hrest]
  have hElanes : E.lanes = e.lanes := by rw [hV, hrest]
  have hEvoices : E.voices = V := by rw [hV]
  have hEmem : E.mem = { T.mem with cells := e.mem.cells } := by rw [hV, hrest]
  have hEq : E = { e with
      layers := S.layers, slots := E.slots, mem := { T.mem with cells := e.mem.cells }, voices := V
      cyc := { e.cyc with captureThisPass := true, splice := e.cyc.splice.afterOverdub l }
      evq := e.evq.told e.cyc.k e.cyc.p ([.layerState l .overdubbing .cue number] ++ e.cyc.splice.dropped) } := by
    rw [told_append, hEslots, hV, hrest]
  have htslots : t.slots = upd E.slots sl fun x =>
      { x with pendingWrites := [overdubWrite E l e.lanes[lane].x a false] } := by rw [ht, hElanes]; rfl
  have htE : t = { E with slots := t.slots } := by rw [ht]; rfl
  clear_value t
  refine ⟨?_, ?_, ?_, fun i hi => ?_, ⟨E, ?_, ?_, ?_, ?_⟩, ?_, fun i => ?_⟩
  · rw [← hlayers, htE]
    refine (congrArg (fun E : Engine => { E with slots := t.slots }) hEq).trans ?_
    rw [hEvoices, hEmem]
  · rw [htE, hEmem]
    exact hfree
  · rw [htE, hEmem]
    exact hage
  · rw [htslots, hEslots, upd_upd]
    exact (congrArg (fun x : Slot => x.sameButStaging e.slots[i]) (upd_other T.slots sl i _ (Ne.symm hi))).mpr (hslots i)
  · rw [htslots, hEslots, upd_upd]
    refine (upd_self T.slots sl _).trans ?_
    rw [← Fin.getElem_fin, hsame sl hsl]
    rfl
  · rw [htE]
  · rw [htE]
  · rw [htE]
  · rw [htE, hEvoices]
    exact hVl
  · rw [htE, hEvoices]
    exact hVi i

/-- What an overdub reclaims before it begins (R108). -/
def Engine.overdubWalk (e : Engine) (l : LayerIx) : Engine :=
  reclaimWalk (pagesFor (layerLen e l)) ((e.layers[l].redo.getD []).length + (e.layers[l].undo.getD []).length) (some l)
    e.mem.age e

theorem overdubCue_ready {e : Engine} {l : LayerIx} {sl : SlotIx} {lane : LaneIx} {level feedback number : Nat}
    (hc : e.cyc.state = .running) (hst : e.layers[l].state = .playing) (hw : e.layers[l].written = none)
    (hh : e.layers[l].hold = .none) (hs : e.firstFree sl) :
    overdubCue lane level feedback number l e
      = if (e.overdubWalk l).mem.free.length + ((e.layers[l].redo.getD []).length + (e.layers[l].undo.getD []).length)
          < pagesFor (layerLen e l) then failed .noSpace (e.overdubWalk l)
        else done (startOverdub sl l lane level feedback number (e.overdubWalk l)) := by
  unfold overdubCue
  simp only [hc, hst, hw, hh, freeSlot?_some hs, ne_eq, not_true_eq_false, if_false, Option.isSome_none,
    Bool.false_eq_true, or_self]
  rfl

theorem finishOverdub_eq {e : Engine} {l : LayerIx} {i : SlotIx} (hi : e.layers[l].slot = some i) (n : Nat) :
    finishOverdub l n e = { e with
      layers := upd e.layers l fun r => { r with state := .playing, slot := none, lastChange := e.cyc.k }
      slots := upd e.slots i fun sl => (closeTail sl).released
      mem := { e.mem with jobs := e.mem.jobs ++ e.copyJobs l }
      evq := e.evq.told e.cyc.k e.cyc.p (e.gapOf i ++ [.layerState l .playing .cue n]) } := by
  rw [finishOverdub, setLayerState_eq, endOverdub_eq hi, told_append]
  simp only [modLayer, Engine.reports, upd_upd]
  rfl

theorem copyJobs_eq (e : Engine) (l : LayerIx) : e.copyJobs l =
    if e.layers[l].written.isSome = true ∧ ∀ j ∈ e.mem.jobs, j.layer ≠ l then [e.jobOf l .finishCopy] else [] := by
  unfold Engine.copyJobs Engine.leavesCopy
  simp only [Bool.and_eq_true, List.all_eq_true, bne_iff_ne]

theorem Slot.sameButStaging.trans {a b c : Slot} (h : a.sameButStaging b) (h' : b.sameButStaging c) :
    a.sameButStaging c := by
  unfold Slot.sameButStaging at *
  rw [← h', ← h]

/-- The event queue after a cue that succeeded, from the queue its action's reports joined. -/
theorem cueDone_evq {s : State} {c : Cue} {e : Engine} {q : EventQueue} {k p : Nat} {events all : List Event}
    (hk : e.cyc.k = k) (hp : e.cyc.p = p) (h : e.evq = q.told k p events)
    (hall : all = events ++ [.cueDone c.number c.target c.action s.eng.cyc.k]) :
    ∃ granted : List LayerIx, (s.cueDone c e).eng.evq = q.told k p (all ++ granted.map Event.holdGranted) := by
  obtain ⟨granted, hg⟩ := grantHolds_evq (e.reports (.cueDone c.number c.target c.action s.eng.cyc.k))
  refine ⟨granted, ?_⟩
  rw [hall, cueDone_eng, hg, List.append_assoc, told_append, ← h]
  simp only [Engine.reports, hk, hp, List.cons_append, List.nil_append, told_cons]

/-- While an overdub crossfades on, the voice of its layer holds no stream but the one it goes on with. -/
theorem Voice.left_spl {v : Voice} {len : Nat} {l : LayerIx} {sp : Splice}
    (hout : ∀ r, sp = .crossfading r → l ∉ r.voices → v.spl.frames = [])
    (h : (sp.afterOverdub l).crossing = true) : (v.left len l sp).spl.frames = [] := by
  cases sp with
  | idle => cases h
  | fetching r => cases h
  | crossfading r =>
    by_cases hl : l ∈ r.voices
    · have hleft : v.left len l (.crossfading r) = v.leaves len r := if_pos hl
      rw [hleft]
      obtain ⟨-, hv⟩ | ⟨-, hv⟩ := Voice.leaves_cases len r v
      all_goals
        rw [hv]
        rfl
    · have hleft : v.left len l (.crossfading r) = v := if_neg hl
      rw [hleft]
      exact hout r rfl hl

/-- The stored sample of the first write of an overdub: of the frames its layer's voice goes on with. -/
theorem storedSample_left {E : Engine} {l : LayerIx} {v : Voice} {len a : Nat} {sp : Splice} {old : Sample}
    (hv : E.voices[l] = v.left len l sp) (hcross : E.cyc.splice.crossing = true → (v.left len l sp).spl.frames = [])
    (hpos : (layerPos E l).getD 0 = a) (ha : a < layerLen E l) (hlen : 1 < layerLen E l)
    (hheld : (v.rs = .reading ∧ v.clearing = false ∧ (v.newStream l sp).base = a
        ∧ ∃ next held, (v.newStream l sp).frames = old :: next :: held)
      ∨ ((v.clearing = true ∨ (v.rs ≠ .reading ∧ (v.newStream l sp).frames = [])) ∧ old = 0)) :
    storedSample E l a = old := by
  obtain ⟨main, spl, store, honly⟩ := v.left_only len l sp
  have hrs : (v.left len l sp).rs = v.rs := by rw [honly]
  have hclear : (v.left len l sp).clearing = v.clearing := by rw [honly]
  rw [← hv] at hcross hrs hclear
  have hmain := v.left_main len l sp
  rw [← hv] at hmain
  rcases hheld with ⟨hread, hfade, hbase, next, held, hframes⟩ | ⟨hnone, rfl⟩
  · have hbase' : E.voices[l].main.base = a := hmain.elim (fun h => h ▸ hbase) fun h => h.1.trans hbase
    have hframes' : ∃ held', E.voices[l].main.frames = old :: next :: held' := by
      rcases hmain with h | ⟨-, -, more, h⟩
      · exact ⟨held, h ▸ hframes⟩
      · rw [h, hframes]
        exact ⟨_, rfl⟩
    obtain ⟨held', hframes'⟩ := hframes'
    exact storedSample_reads hcross (hrs.trans hread) (hclear.trans hfade) hpos ha hlen hbase' hframes'
  · refine storedSample_none a hcross (hnone.imp (fun h => hclear.trans h) fun ⟨hnot, hnil⟩ => ⟨hrs ▸ hnot, ?_⟩)
    rcases hmain with h | ⟨-, hne, -⟩
    · exact h ▸ hnil
    · exact absurd hnil hne

end Sys2Proof.Machine

namespace Sys2Proof.Settled
open Sys2Proof.Machine

/-- Settles O46: the walk for an overdub, its chains, its splice and its first write; its NO_SPACE; OVERDUB_END. -/
theorem overdubCues : Obligations.OverdubCues := by
  intro s c before after l sl h ht r rests
  have hact : ∀ {lane level feedback}, c.action = .overdub lane level feedback →
      actOn c (s.dequeued before after) = overdubCue lane level feedback c.number l (s.dequeued before after) := fun ha => by
    simp only [actOn, ha, ht]
  have hlocked : ∀ {lane level feedback}, c.action = .overdub lane level feedback → s.eng.lockedLane lane →
      ∀ k, c.action.lane? = some k → s.eng.lockedLane k := fun {lane _ _} ha hlock k hl => by
    obtain rfl := Option.some.inj ((by rw [ha]; rfl : c.action.lane? = some lane).symm.trans hl)
    exact hlock
  have hneed : pagesFor (layerLen (s.dequeued before after) l) = (s.eng.len l + 16383) / 16384 := pagesFor_eq _
  refine ⟨?starts, ?short, ?ends⟩
  case short =>
    intro lane level feedback ha hlock hc hst hh hw hs e need own walk hshort
    have hready := overdubCue_ready (e := s.dequeued before after) (lane := lane) (level := level) (feedback := feedback)
      (number := c.number) hc hst hw hh hs
    have hwalk : (s.dequeued before after).overdubWalk l = walk := by
      unfold Engine.overdubWalk
      rw [hneed]
      rfl
    rw [hwalk, hneed, if_pos (by exact hshort)] at hready
    refine (cueRow_failed h (by rw [ha]) (hlocked ha hlock) ((hact ha).trans hready)).trans ?_
    rw [disarmFor_other (by rw [ha]; rfl)]
    rfl
  case ends =>
    intro ha hst hsl jobs
    have heq := finishOverdub_eq (e := s.dequeued before after) (i := sl) (by exact hsl) c.number
    obtain ⟨u, hu⟩ : ∃ u, finishOverdub l c.number (s.dequeued before after) = u := ⟨_, rfl⟩
    rw [hu] at heq
    have hcue : actOn c (s.dequeued before after) = (u, none) := by
      simp only [actOn, ha, ht]
      exact (if_pos hst).trans (by rw [hu]; rfl)
    have hlayers := congrArg Engine.layers heq
    have hslots := congrArg Engine.slots heq
    have hcyc : u.cyc = s.eng.cyc := by rw [heq]; rfl
    refine ⟨_, cueRow_done h (by rw [ha]; rfl) (fun k hk => by rw [ha] at hk; cases hk) hcue, ?_, ?_, ?_, ?_, ?_, fun i hi => ?_,
      fun i hi => ?_, ?_, ?_⟩
    · exact cueDone_layer_of (by rw [hlayers]; exact upd_self s.eng.layers l _)
    · rw [cueDone_mem, heq, copyJobs_eq]
      rfl
    · exact cueDone_cyc.trans hcyc
    · rw [cueDone_slots, hslots]
      have hself := upd_self s.eng.slots sl fun x => (closeTail x).released
      exact hself.trans (congrArg Slot.released hself).symm
    · exact cueDone_tells (by rw [hcyc]) (by rw [hcyc]) (congrArg Engine.evq heq :) (List.append_assoc _ [_] [_]).symm
    · exact cueDone_layer_of (by rw [hlayers]; exact upd_other s.eng.layers l i _ hi.symm)
    · rw [cueDone_slots, hslots]
      exact (congrArg (fun x : Slot => x.sameButStaging s.eng.slots[i]) (upd_other s.eng.slots sl i _ hi.symm)).mpr rfl
    · exact cueDone_frame (congrArg Engine.clk heq :) (by rw [heq]; rfl) (congrArg (fun t => t.mem.cells) heq :)
        (congrArg Engine.ports heq :) (congrArg Engine.lanes heq :) (congrArg Engine.ped heq :) (congrArg Engine.xfer heq :)
    · exact cueDone_cues.trans (congrArg Engine.cues heq :)
  case starts =>
    intro lane level feedback n len key more old ha hlock hc hst hh hw hs hstage hmult hlen hpos hp hn need own walk pool
      htake henough a v from' hout hheld x w
    obtain ⟨W, hWdef⟩ : ∃ W, W = (s.dequeued before after).overdubWalk l := ⟨_, rfl⟩
    have hWwalk : W = { walk with cues := { s.eng.cues with list := before ++ after } } := by
      rw [hWdef]
      unfold Engine.overdubWalk
      rw [hneed, show (s.eng.len l + 16383) / 16384 = need by
        simp only [need, Engine.len, show s.eng.layers[l].mult = some n from hmult, hlen, Option.getD_some]]
      exact reclaimWalk_cues need own (some l) s.eng.mem.age s.eng _
    have hown : walk.layers[l] = s.eng.layers[l] := reclaimWalk_own need own s.eng.mem.age s.eng
    have hrec : Reclaims s.eng walk := reclaimWalk_reclaims need own (some l) s.eng.mem.age s.eng
    have hstaged : ∀ en ∈ walk.slots[sl].staging, en.layer ≠ l := fun en hen => hstage en (reclaimWalk_staging_mem hen)
    clear_value walk
    have hWlayer : W.layers[l] = s.eng.layers[l] := by rw [hWwalk]; exact hown
    have hWcyc : W.cyc = s.eng.cyc := by rw [hWwalk]; exact hrec.cyc
    have hWlen : layerLen W l = n * len := by
      rw [layerLen, hWlayer, hWcyc, Cycle.c, hlen, show s.eng.layers[l].mult = some n from hmult]
      rfl
    have hWneed : pagesFor (layerLen W l) = need := by rw [hWlen, pagesFor_eq]
    have hWpos : (layerPos W l).getD 0 = a := by
      rw [layerPos, hWlayer, hWcyc, Cycle.c, hlen, show s.eng.layers[l].mult = some n from hmult]
      rfl
    have hWpool : W.overdubPool l = pool := by
      rw [Engine.overdubPool, hWlayer, hWwalk]
    have hready := overdubCue_ready (e := s.dequeued before after) (lane := lane) (level := level) (feedback := feedback)
      (number := c.number) hc hst hw hh hs
    have hpool : pool.length = W.mem.free.length + ((r.redo.getD []).length + (r.undo.getD []).length) := by
      simp only [pool, List.length_append, hWwalk]
      omega
    have hlenl : s.eng.len l = n * len := by
      simp only [Engine.len, show s.eng.layers[l].mult = some n from hmult, hlen, Option.getD_some]
    rw [← hWdef, hneed, hlenl, if_neg (by
      show ¬W.mem.free.length + ((r.redo.getD []).length + (r.undo.getD []).length) < need
      omega)] at hready
    obtain ⟨hU, hfree, hage, hslots, ⟨E, hslot, hEcyc, hEvoices, hElayers⟩, hvl, hvi⟩ :=
      startOverdub_spec (e := W) (l := l) (sl := sl) (lane := lane) (level := level) (feedback := feedback)
        (number := c.number) (by rw [hWwalk]; exact hstaged)
    generalize startOverdub sl l lane level feedback c.number W = U at hready hU hfree hage hslots hslot hEcyc hEvoices hElayers hvl hvi
    have hWrest : W = { s.eng with
        layers := W.layers, slots := W.slots, evq := W.evq, mem := { W.mem with cells := s.eng.mem.cells }
        cues := { s.eng.cues with list := before ++ after } } := by
      rw [hWwalk]
      exact congrArg (fun g : Engine => { g with cues := { s.eng.cues with list := before ++ after } }) hrec.rest
    have hWvoices : W.voices = s.eng.voices := by rw [hWrest]
    rw [hWpos, hWneed, hWpool, htake] at hU
    rw [hWpool, hWneed] at hfree
    rw [hWpos] at hslot
    rw [hWvoices, hWlen, hWcyc] at hvl
    rw [hWvoices, hWcyc] at hvi
    have hUlayer : U.layers[l] = { r with
        state := .overdubbing, cur := some (key :: more), undo := r.cur, redo := none, written := some (a, 0)
        slot := some sl, level := level, feedback := feedback, lastChange := s.eng.cyc.k } := by
      rw [hU, hWcyc]
      refine (upd_self W.layers l _).trans ?_
      rw [← Fin.getElem_fin, hWlayer]
    have hUcyc : U.cyc = { s.eng.cyc with captureThisPass := true, splice := s.eng.cyc.splice.afterOverdub l } := by
      rw [hU, hWcyc]
    have hfrom : from' = v.newStream l s.eng.cyc.splice := by
      simp only [from', Voice.newStream] <;> (cases s.eng.cyc.splice <;> rfl)
    have hEl : E.layers[l] = U.layers[l] := by rw [hElayers]
    have hold : storedSample E l a = old := by
      have hElen : layerLen E l = n * len := by
        rw [layerLen, hEl, hUlayer, hEcyc, hUcyc, Cycle.c, hlen, show r.mult = some n from hmult]
        rfl
      have hEpos : (layerPos E l).getD 0 = a := by
        rw [layerPos, hEl, hUlayer, hEcyc, hUcyc, Cycle.c, hlen, show r.mult = some n from hmult]
        rfl
      have hvE : E.voices[l] = v.left (n * len) l s.eng.cyc.splice := by rw [hEvoices]; exact hvl
      have ha' : a < n * len := by
        have hm : s.eng.cyc.m % n + 1 ≤ n := Nat.mod_lt _ hn
        calc a < (s.eng.cyc.m % n + 1) * len := by rw [Nat.add_mul, Nat.one_mul]; exact Nat.add_lt_add_left hp _
          _ ≤ n * len := Nat.mul_le_mul_right len hm
      refine storedSample_left hvE (fun hcross => ?_) hEpos (hElen ▸ ha') (hElen ▸ hpos) (hfrom ▸ hheld)
      refine Voice.left_spl hout ?_
      rw [hEcyc, hUcyc] at hcross
      exact hcross
    refine ⟨_, cueRow_done h (by rw [ha]) (hlocked ha hlock) ((hact ha).trans hready), ?_, ?_, ?_, ?_, rfl, ?_, ?_, ?_, ?_⟩
    · exact cueDone_layer_of hUlayer
    · rw [cueDone_mem, hfree]
    · rw [cueDone_mem, hage, hWwalk]
    · rw [cueDone_slots, hslot, overdubWrite, hold, hEl, hUlayer, hWwalk, hrec.rest]
      rfl
    · rw [cueDone_cyc, hUcyc]
      cases s.eng.cyc.splice <;> rfl
    · intro i
      rw [cueDone_voices]
      have hi := hvi i
      unfold Splice.voiceAfter at hi
      cases hsp : s.eng.cyc.splice <;> (rw [hsp] at hi; exact hi)
    · refine cueDone_evq (s := s) (c := c) (e := U) (q := walk.evq) (k := s.eng.cyc.k) (p := s.eng.cyc.p)
        (events := [.layerState l .overdubbing .cue c.number] ++ s.eng.cyc.splice.dropped) (by rw [hUcyc]) (by rw [hUcyc]) ?_ ?_
      · rw [hU, hWcyc, hWwalk]
      · unfold Splice.dropped
        cases s.eng.cyc.splice <;> rfl
    · refine ⟨fun i hi => cueDone_layer_of ?_, fun i hi => ?_, ?_, ?_⟩
      · rw [hU, hWwalk]
        exact upd_other walk.layers l i _ hi.symm
      · rw [cueDone_slots]
        refine (hslots i hi).trans ?_
        rw [hWwalk]
        exact hrec.slot i
      · have hUrest := hU
        rw [hWrest] at hUrest
        exact cueDone_frame (by rw [hUrest]) (by rw [hUrest]) (by rw [hUrest]) (by rw [hUrest]) (by rw [hUrest])
          (by rw [hUrest]) (by rw [hUrest])
      · rw [cueDone_cues, hU, hWwalk]

end Sys2Proof.Settled
end

section
/-! The close and the discard of the base capture (R5, R6, R87, R88), the early close of a fixed capture (R92), and what the
follower makes of a cycle that ends or pauses (R33). -/

set_option Elab.async false

namespace Sys2Proof.Machine

/-! ## The follower and a cycle that ends (R33) -/

theorem clearDecision_eq (e : Engine) : ∃ heard,
    clearDecision e = { e with fol := { e.fol with decisionMade := false }, heard := heard } :=
  onFollower_only _ e

/-- A TRACKING follower goes to WAITING (R33). -/
def Follower.resting (f : Follower) : Follower :=
  if f.state = .tracking then { f with state := .waiting, err := 0, delta := 0, beatCount := 0, coastDue := false } else f

theorem followLapse_eq (cause : FollowCause) (e : Engine) : ∃ heard,
    followLapse cause e = { e with
      fol := e.fol.resting, evq := e.evq.told e.cyc.k e.cyc.p (e.fol.rests cause), heard := heard } := by
  obtain ⟨heard, h⟩ := onFollower_only
    (fun e => if e.fol.state = .tracking then setFollowState .waiting cause e else e) e
  refine ⟨heard, h.trans ?_⟩
  unfold Follower.resting Follower.rests
  by_cases ht : e.fol.state = .tracking
  · simp only [ht, if_true, setFollowState, reduceCtorEq, if_false]
    rfl
  · simp only [ht, if_false, told_nil]

theorem Follower.resting_undecided (f : Follower) : { f.resting with decisionMade := false } = f.lapsed := by
  unfold Follower.resting Follower.lapsed
  split <;> rfl

/-- The mixer once the cycle has taken a state (R139). -/
theorem setCycleState_eq (st : CycleState) (e : Engine) : ∃ window,
    setCycleState st e = { e with cyc := { e.cyc with state := st }, mix := { e.mix with window := window } } :=
  ⟨_, rfl⟩

theorem leaveBase_eq (e : Engine) : ∃ window heard,
    leaveBase e = { e with
      cyc := { e.cyc with state := .unset, base := none }, mix := { e.mix with window := window }
      fol := e.fol.lapsed, evq := e.evq.told e.cyc.k e.cyc.p (e.fol.rests .cleared), heard := heard } := by
  obtain ⟨window, hstate⟩ := setCycleState_eq .unset { e with cyc := { e.cyc with base := none } }
  obtain ⟨h1, hlapse⟩ := followLapse_eq .cleared (setCycleState .unset { e with cyc := { e.cyc with base := none } })
  obtain ⟨h2, hclear⟩ := clearDecision_eq
    (followLapse .cleared (setCycleState .unset { e with cyc := { e.cyc with base := none } }))
  refine ⟨window, h2, hclear.trans ?_⟩
  rw [hlapse, hstate]
  simp only [Follower.resting_undecided]

/-! ## A close of the base capture (R5, R87) -/

theorem countList_length (b : Boundary) (wave : Nat) (list : List Cue) : (countList b wave list).length = list.length := by
  induction list generalizing wave with
  | nil => rfl
  | cons c rest ih => simp only [countList, List.length_cons, ih]

theorem followBeat_state (e : Engine) : (followBeat e).fol.state = e.fol.state := by
  unfold followBeat
  rw [onFollower_fol]
  dsimp only
  split <;> rfl

theorem cycleBoundary_state (wave : Nat) (e : Engine) : (cycleBoundary wave e).fol.state = e.fol.state := by
  have hbare : (bareBoundary wave e).fol.state = e.fol.state := followBeat_state _
  unfold cycleBoundary
  refine eachLayer_induct (I := fun t => t.fol.state = e.fol.state) (fun l t ht => ?_) hbare
  split
  · exact ht
  · exact ht

theorem cycleBoundary_cues_length (wave : Nat) (e : Engine) :
    (cycleBoundary wave e).cues.list.length = e.cues.list.length := by
  have hbare : (bareBoundary wave e).cues.list.length = e.cues.list.length := by
    obtain ⟨fol, heard, h⟩ := bareBoundary_only wave e
    rw [h]
    simp only [countList_length]
  unfold cycleBoundary
  refine eachLayer_induct (I := fun t => t.cues.list.length = e.cues.list.length) (fun l t ht => ?_) hbare
  split
  · exact (countList_length _ _ _).trans ht
  · exact ht

/-- The cycle clock of a cycle that a close of the base capture has given its length (R5). -/
def Cycle.closed (c : Cycle) (state : CycleState) (count : Nat) : Cycle :=
  { c with state := state, len := some count, p := 0, frac := 0, k := 0, m := 0, beat := 0, base := none,
           captureThisPass := false, spliceDone := false }

/-- What a close of the base capture of layer `l` reports once the cycle has its length (R5, R7). -/
def Engine.closeTold (e : Engine) (l : LayerIx) (count : Nat) (cause : LayerCause) (number : Nat) : List Event :=
  [.layerState l .playing cause number, .beat 0]
    ++ (layerIxs.filter fun i => i == l || e.layers[i].mult.isSome).map Event.wrap ++ [.cycleSet count e.cyc.beats]

theorem startCycle_eq (count : Nat) (e : Engine) : ∃ window heard,
    startCycle count e = { e with
      cyc := e.cyc.closed .running count, mix := { e.mix with window := window }
      fol := { e.fol with decisionMade := false }, heard := heard } := by
  obtain ⟨window, hstate⟩ := setCycleState_eq .running { e with cyc := e.cyc.start count }
  obtain ⟨heard, h⟩ := clearDecision_eq (setCycleState .running { e with cyc := e.cyc.start count })
  refine ⟨window, heard, h.trans ?_⟩
  rw [hstate]
  rfl

theorem closeBase_spec {e : Engine} {l : LayerIx} {sl : SlotIx} {count : Nat} (hsl : e.layers[l].slot = some sl)
    (hcount : 0 < count) (cause : LayerCause) (number wave : Nat) : ∃ window heard fol list,
    closeBase l count cause number wave e = { e with
      cyc := e.cyc.closed .running count, fol := fol, heard := heard
      layers := upd e.layers l fun r => { r with state := .playing, mult := some 1, slot := none, lastChange := 0 }
      slots := upd e.slots sl fun x => (closeTail x).released
      voices := upd e.voices l fun v => if v.rs = .idle then v.primed 0 (256 % count) else v
      mix := { e.mix with window := window, clipReported := false }, cues := { e.cues with list := list }
      evq := (e.evq.told e.cyc.k e.cyc.p (e.gapOf sl)).told 0 0 (e.closeTold l count cause number) }
      ∧ fol.state = e.fol.state ∧ list.length = e.cues.list.length := by
  obtain ⟨window, h0, hstart⟩ := startCycle_eq count (endSlot l e)
  rw [endSlot_eq hsl] at hstart
  dsimp only at hstart
  obtain ⟨B, hB⟩ : ∃ B, B = playVoice l (setLayerState l .playing cause number
    (modLayer l (fun r => { r with mult := some 1 }) (startCycle count (endSlot l e)))) := ⟨_, rfl⟩
  have hBeq : B = { e with
      cyc := e.cyc.closed .running count, fol := { e.fol with decisionMade := false }, heard := h0
      layers := upd e.layers l fun r => { r with state := .playing, mult := some 1, slot := none, lastChange := 0 }
      slots := upd e.slots sl fun x => (closeTail x).released
      voices := upd e.voices l fun v => if v.rs = .idle then v.primed 0 (256 % count) else v
      mix := { e.mix with window := window }
      evq := (e.evq.told e.cyc.k e.cyc.p (e.gapOf sl)).told 0 0 [.layerState l .playing cause number] } := by
    obtain ⟨X, hX⟩ : ∃ X, X = setLayerState l .playing cause number
        (modLayer l (fun r => { r with mult := some 1 }) (startCycle count (endSlot l e))) := ⟨_, rfl⟩
    have hXeq : X = { e with
        cyc := e.cyc.closed .running count, fol := { e.fol with decisionMade := false }, heard := h0
        layers := upd e.layers l fun r => { r with state := .playing, mult := some 1, slot := none, lastChange := 0 }
        slots := upd e.slots sl fun x => (closeTail x).released
        mix := { e.mix with window := window }
        evq := (e.evq.told e.cyc.k e.cyc.p (e.gapOf sl)).told 0 0 [.layerState l .playing cause number] } := by
      rw [hX, endSlot_eq hsl, hstart]
      simp only [setLayerState_eq, Engine.reports, modLayer, upd_upd]
      rfl
    have hmult : X.layers[l].mult = some 1 := by
      rw [hXeq]
      exact congrArg Layer.mult (upd_self e.layers l _)
    have hcyc : X.cyc = e.cyc.closed .running count := by rw [hXeq]
    have hpos : (layerPos X l).getD 0 = 0 := by
      rw [layerPos, hmult, hcyc]
      simp [Cycle.closed]
    have hprime : X.primeFrom l = 256 % count := by
      rw [Engine.primeFrom, hpos, layerLen, hmult, hcyc, Option.getD_some, Nat.one_mul]
      show wrapAt count (0 + 256) = _
      rw [wrapAt, if_neg (Nat.pos_iff_ne_zero.1 hcount), Nat.zero_add]
    rw [hB, ← hX, playVoice_eq, hpos, hprime, hXeq]
  obtain ⟨fol, heard, hbound⟩ := cycleBoundary_only wave B
  have hfol := cycleBoundary_state wave B
  have hlist := cycleBoundary_cues_length wave B
  rw [hbound] at hfol hlist
  refine ⟨window, heard, fol, _, ?_, hfol.trans (by rw [hBeq]), hlist.trans (by rw [hBeq])⟩
  have hwraps : layerIxs.filter (wrapsNow B) = layerIxs.filter fun i => i == l || e.layers[i].mult.isSome := by
    refine List.filter_congr fun i _ => ?_
    have hm : B.cyc.m = 0 := by rw [hBeq]; rfl
    unfold wrapsNow
    rw [hm, hBeq]
    by_cases hi : i = l
    · subst hi
      rw [show ((upd e.layers i fun r => { r with state := .playing, mult := some 1, slot := none, lastChange := 0 })[i]).mult
        = some 1 from congrArg Layer.mult (upd_self e.layers i _)]
      simp
    · rw [show ((upd e.layers l fun r => { r with state := .playing, mult := some 1, slot := none, lastChange := 0 })[i]).mult
        = e.layers[i].mult from congrArg Layer.mult (upd_other e.layers l i _ (Ne.symm hi))]
      cases e.layers[i].mult <;> simp [hi]
  have hclose : closeBase l count cause number wave e = post (.cycleSet count e.cyc.beats) (cycleBoundary wave B) := by
    rw [hB]
    rfl
  rw [hclose, hbound, hwraps, hBeq]
  unfold Engine.closeTold
  simp only [EventQueue.told, List.foldl_append, List.foldl_map, List.foldl_cons, List.foldl_nil, Cycle.closed]
  rfl

/-! ## A layer that is emptied (R56, R88, R107) -/

theorem releaseSlot_rest (l : LayerIx) (e : Engine) :
    releaseSlot l e = { e with
      layers := upd e.layers l fun r => { r with slot := none }, slots := (releaseSlot l e).slots } := by
  cases h : e.layers[l].slot with
  | none =>
    have hid : (upd e.layers l fun r => { r with slot := none }) = e.layers :=
      upd_id _ _ (congrArg (fun x => { e.layers[l] with slot := x }) h.symm)
    rw [hid, releaseSlot_none h]
  | some i => rw [releaseSlot_eq h]

theorem releaseSlot_slot_eq (l : LayerIx) (e : Engine) (i : SlotIx) :
    (releaseSlot l e).slots[i] = if e.layers[l].slot = some i then (e.slots[i]).released else e.slots[i] := by
  cases h : e.layers[l].slot with
  | none => rw [releaseSlot_none h, if_neg (by simp)]
  | some j =>
    rw [releaseSlot_eq h]
    by_cases hij : j = i
    · subst hij
      rw [if_pos rfl]
      exact upd_self e.slots j _
    · rw [if_neg (fun hj => hij (Option.some.inj hj))]
      exact upd_other e.slots j i _ hij

/-- A slot once a chain has been freed: its staged entries of that chain are dropped (R102). -/
theorem freeChain_slot (l : LayerIx) (chain : Option (List Nat)) (e : Engine) (i : SlotIx) :
    (freeChain l chain e).slots[i] = { e.slots[i] with
      staging := e.slots[i].staging.filter fun en => !(en.layer == l && some en.key == chainKey chain) } := by
  match chain with
  | none =>
    rw [freeChain_staging, List.filter_eq_self.2 fun en _ => by simp [chainKey]]
  | some [] =>
    rw [freeChain_staging, List.filter_eq_self.2 fun en _ => by simp [chainKey]]
  | some (key :: rest) =>
    rw [freeChain_staging]
    unfold dropEntries
    simp [chainKey]

/-- A voice that is cleared: one that reads plays out its fade, any other goes idle (R56, R135). -/
def Voice.cleared (v : Voice) : Voice :=
  if v.rs = .reading then { v with clearing := true, dir := .falling, flag := false } else Voice.reset

/-- A staged entry of one of the three chains of layer `l`. -/
def Engine.goneEntry (e : Engine) (l : LayerIx) (en : Entry) : Bool :=
  en.layer == l && (some en.key == chainKey e.layers[l].cur || some en.key == chainKey e.layers[l].undo
    || some en.key == chainKey e.layers[l].redo)

theorem clearVoice_eq (l : LayerIx) (e : Engine) :
    clearVoice l e = { e with
      cyc := { e.cyc with splice := e.cyc.splice.without (· == l) }
      voices := upd e.voices l fun v => (v.left (layerLen e l) l e.cyc.splice).cleared } := by
  unfold clearVoice
  rw [leaveSplice_eq]
  simp only [modVoice, upd_upd]
  rfl

theorem releaseLayer_spec (l : LayerIx) (e : Engine) :
    let t := releaseLayer l e
    t = { e with
        layers := upd e.layers l clearedRecord, slots := t.slots, mem := { t.mem with cells := e.mem.cells }
        cyc := { e.cyc with splice := e.cyc.splice.without (· == l) }
        voices := upd e.voices l fun v => (v.left (layerLen e l) l e.cyc.splice).cleared }
      ∧ t.mem.free = e.mem.free ++ e.layers[l].cur.getD [] ++ e.layers[l].undo.getD [] ++ e.layers[l].redo.getD []
      ∧ t.mem.age = e.mem.age.filter (fun g => g.1 != l)
      ∧ t.mem.jobs = e.mem.jobs.filter (fun j => j.layer != l)
      ∧ ∀ i : SlotIx, t.slots[i] =
          { (if e.layers[l].slot = some i then (e.slots[i]).released else e.slots[i]) with
            staging := e.slots[i].staging.filter fun en => !e.goneEntry l en } := by
  obtain ⟨R, hR⟩ : ∃ R, R = dropJob l (releaseSlot l e) := ⟨_, rfl⟩
  obtain ⟨F, hF⟩ : ∃ F, F = freeChain l e.layers[l].redo (freeChain l e.layers[l].undo (freeChain l e.layers[l].cur R)) :=
    ⟨_, rfl⟩
  have hRrest : R = { e with
      layers := upd e.layers l fun r => { r with slot := none }, slots := (releaseSlot l e).slots, mem := R.mem } := by
    rw [hR, releaseSlot_rest]
    rfl
  have hRmem : R.mem.cells = e.mem.cells ∧ R.mem.free = e.mem.free ∧ R.mem.age = e.mem.age
      ∧ R.mem.jobs = e.mem.jobs.filter (fun j => j.layer != l) := by
    rw [hR, releaseSlot_rest]
    exact ⟨rfl, rfl, rfl, rfl⟩
  obtain ⟨hcells, hfree, hage, hjobs⟩ := hRmem
  have hrec : Reclaims R F :=
    hF ▸ ((freeChain_reclaims _ _ _).trans (freeChain_reclaims _ _ _)).trans (freeChain_reclaims _ _ _)
  have hFlayers : F.layers = R.layers := by rw [hF, freeChain_frame, freeChain_frame, freeChain_frame]
  have hFevq : F.evq = R.evq := by rw [hF, freeChain_frame, freeChain_frame, freeChain_frame]
  have hFage : F.mem.age = R.mem.age := by rw [hF, freeChain_frame, freeChain_frame, freeChain_frame]
  have hFfree : F.mem.free = R.mem.free ++ e.layers[l].cur.getD [] ++ e.layers[l].undo.getD [] ++ e.layers[l].redo.getD [] := by
    rw [hF, freeChain_free, freeChain_free, freeChain_free]
  have hFjobs : F.mem.jobs = R.mem.jobs := by
    have hkeep : ∀ (chain : Option (List Nat)) (X : Engine), X.mem.jobs = R.mem.jobs →
        (freeChain l chain X).mem.jobs = R.mem.jobs := fun chain X hX => by
      rw [freeChain_keeps_jobs, hX]
      refine List.filter_eq_self.2 fun j hj => ?_
      rw [hjobs] at hj
      rw [(List.mem_filter.1 hj).2, Bool.true_or]
    rw [hF]
    exact hkeep _ _ (hkeep _ _ (hkeep _ _ rfl))
  have ht : releaseLayer l e = modLayer l clearedRecord (clearVoice l (dropAge l F)) := by
    rw [hF, hR]
    rfl
  have hFcells : F.mem.cells = R.mem.cells := by rw [hrec.rest]
  have hFrest : F = { e with
      layers := upd e.layers l fun r => { r with slot := none }, slots := F.slots, mem := F.mem } := by
    refine hrec.rest.trans ?_
    rw [hFlayers, hFevq, ← hFcells]
    exact (congrArg (fun R : Engine => { R with slots := F.slots, mem := F.mem }) hRrest).trans rfl
  have hFlen : layerLen (dropAge l F) l = layerLen e l := layerLen_congr (by
    show F.layers[l].mult = _
    rw [hFrest]
    exact upd_keeps e.layers l Layer.mult rfl l) (by
    show F.cyc.len = _
    rw [hFrest])
  rw [clearVoice_eq, hFlen] at ht
  intro t
  have ht' : t = _ := ht
  clear_value t
  refine ⟨?_, ?_, ?_, ?_, fun i => ?_⟩
  · have hslots : t.slots = F.slots := by rw [ht']; rfl
    have hmem : { t.mem with cells := e.mem.cells } = (dropAge l F).mem := by
      rw [ht', ← hcells, ← hFcells]
      rfl
    rw [hslots, hmem, ht']
    refine (congrArg (fun F : Engine => modLayer l clearedRecord { dropAge l F with
      cyc := { F.cyc with splice := F.cyc.splice.without (· == l) }
      voices := upd F.voices l fun v => (v.left (layerLen e l) l F.cyc.splice).cleared }) hFrest).trans ?_
    simp only [modLayer, dropAge, upd_upd]
    rfl
  · rw [ht']
    exact hFfree.trans (by rw [hfree])
  · rw [ht']
    show F.mem.age.filter _ = _
    rw [hFage, hage]
  · rw [ht']
    exact hFjobs.trans hjobs
  · rw [ht']
    show F.slots[i] = _
    have hslot : R.slots[i] = if e.layers[l].slot = some i then (e.slots[i]).released else e.slots[i] := by
      rw [hRrest]
      exact releaseSlot_slot_eq l e i
    have hstaging : R.slots[i].staging = e.slots[i].staging := by
      rw [hslot]
      split <;> rfl
    have hfilter : (fun en : Entry => !e.goneEntry l en) = fun en =>
        (!(en.layer == l && some en.key == chainKey e.layers[l].redo) &&
          !(en.layer == l && some en.key == chainKey e.layers[l].undo)) &&
          !(en.layer == l && some en.key == chainKey e.layers[l].cur) := by
      funext en
      unfold Engine.goneEntry
      cases en.layer == l <;> cases some en.key == chainKey e.layers[l].cur <;>
        cases some en.key == chainKey e.layers[l].undo <;> cases some en.key == chainKey e.layers[l].redo <;> rfl
    rw [hF, freeChain_slot, freeChain_slot, freeChain_slot]
    dsimp only
    rw [List.filter_filter, List.filter_filter, hfilter, ← hslot, hstaging]

theorem emptyLayer_spec (l : LayerIx) (cause : LayerCause) (number : Nat) (e : Engine) :
    let t := emptyLayer l cause number e
    t = { e with
        layers := upd e.layers l fun r => r.emptied e.cyc.k, slots := t.slots, mem := { t.mem with cells := e.mem.cells }
        cyc := { e.cyc with splice := e.cyc.splice.without (· == l) }
        voices := upd e.voices l fun v => (v.left (layerLen e l) l e.cyc.splice).cleared
        evq := e.evq.told e.cyc.k e.cyc.p [.layerState l .empty cause number] }
      ∧ t.mem.free = e.mem.free ++ e.layers[l].cur.getD [] ++ e.layers[l].undo.getD [] ++ e.layers[l].redo.getD []
      ∧ t.mem.age = e.mem.age.filter (fun g => g.1 != l)
      ∧ t.mem.jobs = e.mem.jobs.filter (fun j => j.layer != l)
      ∧ ∀ i : SlotIx, t.slots[i] =
          { (if e.layers[l].slot = some i then (e.slots[i]).released else e.slots[i]) with
            staging := e.slots[i].staging.filter fun en => !e.goneEntry l en } := by
  obtain ⟨hrest, hfree, hage, hjobs, hslots⟩ := releaseLayer_spec l e
  generalize hT : releaseLayer l e = T at hrest hfree hage hjobs hslots
  have ht : emptyLayer l cause number e = setLayerState l .empty cause number T := by rw [← hT]; rfl
  intro t
  have ht' : t = _ := ht
  clear_value t
  refine ⟨?_, ht' ▸ hfree, ht' ▸ hage, ht' ▸ hjobs, ht' ▸ hslots⟩
  have hslots' : t.slots = T.slots := by rw [ht']; rfl
  have hmem : t.mem = T.mem := by rw [ht']; rfl
  rw [hslots', hmem, ht']
  refine (congrArg (setLayerState l .empty cause number) hrest).trans ?_
  simp only [setLayerState_eq, modLayer, Engine.reports, upd_upd]
  rfl

/-! ## A fixed capture that is closed early (R92) -/

/-- The first position an early close takes for written (R92). -/
def Engine.firstWritten (e : Engine) (l : LayerIx) (i : SlotIx) : Nat :=
  e.slots[i].first.getD (wrapAt (layerLen e l) (e.slots[i].start.getD 0 + 1))

theorem firstWritten_of {e : Engine} {l : LayerIx} {i : SlotIx} {a : Nat}
    (h : e.slots[i].first = some a ∨ ∃ q, e.slots[i].first = none ∧ e.slots[i].start = some q ∧ 0 < e.len l
      ∧ a = (q + 1) % e.len l) : e.firstWritten l i = a := by
  unfold Engine.firstWritten
  rcases h with h | ⟨q, hnone, hstart, hlen, rfl⟩
  · rw [h, Option.getD_some]
  · rw [hnone, hstart, Option.getD_none, Option.getD_some, wrapAt, if_neg (Nat.pos_iff_ne_zero.1 (by exact hlen))]
    rfl

theorem closeEarly_eq {e : Engine} {l : LayerIx} {i : SlotIx} (h : e.layers[l].slot = some i) (number : Nat) :
    closeEarly l number e = { e with
      layers := upd e.layers l fun r =>
        { r with state := .playing, written := some (e.firstWritten l i, e.slots[i].count), slot := none,
                 lastChange := e.cyc.k }
      slots := upd e.slots i fun x => (closeTail x).released
      mem := { e.mem with
        jobs := e.mem.jobs ++ if e.mem.jobs.all fun j => j.layer != l then [e.jobOf l .finishCopy] else [] }
      voices := upd e.voices l fun v => if v.rs = .idle then v.primed ((layerPos e l).getD 0) (e.primeFrom l) else v
      evq := e.evq.told e.cyc.k e.cyc.p (e.gapOf i ++ [.layerState l .playing .cue number]) } := by
  obtain ⟨X, hX⟩ : ∃ X, X = setLayerState l .playing .cue number (addJob l .finishCopy
      (modLayer l (fun r => { r with written := some (e.firstWritten l i, e.slots[i].count) }) (endSlot l e))) := ⟨_, rfl⟩
  have hkey : ∀ f : Layer → Layer, (∀ r, (f r).cur = r.cur) → (upd e.layers l f)[l].cur = e.layers[l].cur := fun f hf =>
    upd_keeps e.layers l Layer.cur (hf _) l
  have hXeq : X = { e with
      layers := upd e.layers l fun r =>
        { r with state := .playing, written := some (e.firstWritten l i, e.slots[i].count), slot := none,
                 lastChange := e.cyc.k }
      slots := upd e.slots i fun x => (closeTail x).released
      mem := { e.mem with
        jobs := e.mem.jobs ++ if e.mem.jobs.all fun j => j.layer != l then [e.jobOf l .finishCopy] else [] }
      evq := e.evq.told e.cyc.k e.cyc.p (e.gapOf i ++ [.layerState l .playing .cue number]) } := by
    rw [hX, endSlot_eq h, addJob_eq, setLayerState_eq, told_append]
    simp only [modLayer, Engine.reports, upd_upd, Engine.jobOf]
    rw [hkey]
    · rfl
    · exact fun _ => rfl
  have hclose : closeEarly l number e = playVoice l X := by
    unfold closeEarly
    rw [h, hX]
    rfl
  have hmult : X.layers[l].mult = e.layers[l].mult := by
    rw [hXeq]
    exact upd_keeps e.layers l Layer.mult rfl l
  have hcyc : X.cyc = e.cyc := by rw [hXeq]
  rw [hclose, playVoice_eq, layerPos_of hmult hcyc, Engine.primeFrom_of hmult hcyc, hXeq]

/-! ## The splice and the follower as the cycle pauses (R8, R33) -/

/-- The voices once the splice has ended for all of them. -/
def Engine.voicesLeft (e : Engine) : Vector Voice 16 :=
  Vector.ofFn fun i => (e.voices[i]).left (layerLen e i) i e.cyc.splice

theorem Engine.voicesLeft_get (e : Engine) (i : LayerIx) :
    e.voicesLeft[i] = (e.voices[i]).left (layerLen e i) i e.cyc.splice := by
  simp only [Engine.voicesLeft, Fin.getElem_fin, Vector.getElem_ofFn]

/-- However far a splice has come, its end leaves each voice its new stream, if any, and no splice. -/
theorem endSplice_eq (reason : SkipReason) (e : Engine) :
    endCrossfade (abandonSplice reason e) = { e with
      cyc := { e.cyc with splice := .idle }, voices := e.voicesLeft
      evq := e.evq.told e.cyc.k e.cyc.p (e.cyc.splice.skips reason) } := by
  cases hsp : e.cyc.splice with
  | idle =>
    have hv : e.voicesLeft = e.voices := Vector.ext fun j hj => by
      refine (e.voicesLeft_get ⟨j, hj⟩).trans ?_
      rw [hsp]
      rfl
    obtain ⟨habandon, hend, -⟩ := splice_idle hsp
    rw [habandon, hend, hv, show Splice.idle.skips reason = [] from rfl, told_nil, ← hsp]
  | fetching r =>
    have hv : e.voicesLeft = voicesIn r.voices (fun _ => Voice.unstreamed) e.voices := Vector.ext fun j hj => by
      refine (e.voicesLeft_get ⟨j, hj⟩).trans (Eq.trans ?_ (voicesIn_get r.voices _ e.voices ⟨j, hj⟩).symm)
      rw [hsp]
      rfl
    rw [abandonSplice_fetching hsp, hv]
    rfl
  | crossfading r =>
    have hv : e.voicesLeft = voicesIn r.voices (fun i v => v.leaves (layerLen e i) r) e.voices := Vector.ext fun j hj => by
      refine (e.voicesLeft_get ⟨j, hj⟩).trans (Eq.trans ?_ (voicesIn_get r.voices _ e.voices ⟨j, hj⟩).symm)
      rw [hsp]
      rfl
    rw [abandonSplice_calm (fun r h => by rw [hsp] at h; cases h), endCrossfade_eq hsp, hv]
    rfl

theorem enterPaused_eq (e : Engine) : ∃ heard,
    enterPaused e = { e with
      cyc := { e.cyc with state := .paused, splice := .idle }
      mix := { e.mix with window := if e.cyc.state = .paused then e.mix.window else 0 }
      voices := e.voicesLeft, fol := e.fol.resting, heard := heard
      evq := e.evq.told e.cyc.k e.cyc.p (e.cyc.splice.skips .paused ++ e.fol.rests .paused) } := by
  obtain ⟨heard, h⟩ := followLapse_eq .paused (endCrossfade (abandonSplice .paused (setCycleState .paused e)))
  refine ⟨heard, h.trans ?_⟩
  rw [endSplice_eq, told_append]
  rfl

/-! ## What a row that grants holds leaves alone -/

theorem grantHolds_frame {s : State} {e : Engine} (hclk : e.clk = s.eng.clk)
    (hmix : e.mix = { s.eng.mix with window := e.mix.window, clipReported := e.mix.clipReported })
    (hcells : e.mem.cells = s.eng.mem.cells) (hports : e.ports = s.eng.ports) (hlanes : e.lanes = s.eng.lanes)
    (hped : e.ped = s.eng.ped) (hxfer : e.xfer = s.eng.xfer) : s.cueFrame { s with eng := grantHolds e } := by
  obtain ⟨T, hT⟩ : ∃ T, T = grantHolds e := ⟨_, rfl⟩
  have h1 : T.clk = s.eng.clk := by rw [hT, grantHolds_clk, hclk]
  have h2 : { s.eng.mix with window := T.mix.window, clipReported := T.mix.clipReported } = T.mix := by
    rw [hT, grantHolds_mix]
    exact hmix.symm
  have h3 : T.mem.cells = s.eng.mem.cells := by rw [hT, grantHolds_mem, hcells]
  have h4 : T.ports = s.eng.ports := by rw [hT, grantHolds_ports, hports]
  have h5 : T.lanes = s.eng.lanes := by rw [hT, grantHolds_lanes, hlanes]
  have h6 : T.ped = s.eng.ped := by rw [hT, grantHolds_ped, hped]
  have h7 : T.xfer = s.eng.xfer := by rw [hT, grantHolds_xfer, hxfer]
  rw [← hT]
  unfold State.cueFrame
  simp only [h2, ← h1, ← h3, ← h4, ← h5, ← h6, ← h7]

theorem grantHolds_layer_kept {e : Engine} {l : LayerIx} (h : e.layers[l].hold ≠ .pending) :
    (grantHolds e).layers[l] = e.layers[l] := by
  obtain ⟨layers, hlayers, heq⟩ := grantHolds_spec e
  rw [heq]
  exact (hlayers l).trans (if_neg fun hg => h ((grantable_iff e l).1 hg).1)

theorem Layer.sameButHold.of_eq {a b c : Layer} (h : a.sameButHold b) (hb : b = c) : a.sameButHold c := hb ▸ h

/-! ## The cues that close (R74, R78) -/

section
variable {e : Engine} {l : LayerIx} {count number wave : Nat}

theorem closeCue_base (hst : e.layers[l].state = .capturing) (hb : baseCapture e = some (l, count)) :
    closeCue number wave l e = closeBaseCue l count number wave e := by
  unfold closeCue
  rw [if_neg (fun h => h hst), hb]
  exact if_pos rfl

theorem closeCue_fixed (hst : e.layers[l].state = .capturing) (hb : e.cyc.base = none) :
    closeCue number wave l e = done (closeEarly l number e) := by
  have hnone : baseCapture e = none := by rw [baseCapture, hb]
  unfold closeCue
  rw [if_neg (fun h => h hst), hnone]

theorem closeBaseCue_long (h : 4800 ≤ count) :
    closeBaseCue l count number wave e = done (closeBase l count .cue number wave e) :=
  if_neg (Nat.not_lt.2 h)

theorem closeBaseCue_short (h : count < 4800) :
    closeBaseCue l count number wave e = failed .tooShort (leaveBase (emptyLayer l .discard number e)) :=
  if_pos h

theorem pauseCue_long (hc : e.cyc.state = .baseCapture) (hb : baseCapture e = some (l, count)) (h : 4800 ≤ count) :
    pauseCue number wave e = done (enterPaused (closeBase l count .cue number wave e)) := by
  unfold pauseCue
  rw [hc]
  dsimp only
  rw [hb]
  dsimp only
  rw [closeBaseCue_long h]
  rfl

theorem pauseCue_short (hc : e.cyc.state = .baseCapture) (hb : baseCapture e = some (l, count)) (h : count < 4800) :
    pauseCue number wave e = failed .tooShort (leaveBase (emptyLayer l .discard number e)) := by
  unfold pauseCue
  rw [hc]
  dsimp only
  rw [hb]
  dsimp only
  rw [closeBaseCue_short h]
  rfl

theorem autoClose_closes (hc : e.cyc.state = .baseCapture) (hb : baseCapture e = some (l, count)) (h : 2880000 ≤ count) :
    autoClose e = grantHolds (noteGrid (closeBase l count .autoClose 0 0 e)) := by
  have hdue : autoCloseDue e = true := by
    unfold autoCloseDue
    rw [hb]
    dsimp only
    rw [hc]
    exact decide_eq_true h
  unfold autoClose
  rw [hdue, hb]
  rfl

end

section
variable {s : State} {c : Cue} {r : FailReason} {e : Engine}

theorem cueFailed_eng :
    (s.cueFailed c r e).eng = grantHolds (e.reports (.cueFailed c.number c.target c.action r)) := by
  simp only [State.cueFailed]

theorem cueFailed_cyc : (s.cueFailed c r e).eng.cyc = e.cyc := by rw [cueFailed_eng, grantHolds_cyc, Engine.reports]
theorem cueFailed_fol : (s.cueFailed c r e).eng.fol = e.fol := by rw [cueFailed_eng, grantHolds_fol, Engine.reports]
theorem cueFailed_slots : (s.cueFailed c r e).eng.slots = e.slots := by rw [cueFailed_eng, grantHolds_slots, Engine.reports]
theorem cueFailed_mem : (s.cueFailed c r e).eng.mem = e.mem := by rw [cueFailed_eng, grantHolds_mem, Engine.reports]

theorem cueFailed_layer (l : LayerIx) : ((s.cueFailed c r e).eng.layers[l]).sameButHold e.layers[l] := by
  rw [cueFailed_eng]
  exact grantHolds_sameButHold (e.reports (.cueFailed c.number c.target c.action r)) l

theorem cueFailed_layer_kept {l : LayerIx} (h : e.layers[l].hold ≠ .pending) :
    (s.cueFailed c r e).eng.layers[l] = e.layers[l] := by
  rw [cueFailed_eng]
  exact grantHolds_layer_kept (e := e.reports (.cueFailed c.number c.target c.action r)) h

theorem cueFailed_tells {k p : Nat} {events all : List Event} (hk : e.cyc.k = k) (hp : e.cyc.p = p)
    (h : e.evq = s.eng.evq.told k p events) (hall : all = events ++ [.cueFailed c.number c.target c.action r]) :
    s.tells (s.cueFailed c r e) k p all := by
  obtain ⟨granted, hg⟩ := grantHolds_evq (e.reports (.cueFailed c.number c.target c.action r))
  refine ⟨granted, ?_⟩
  rw [hall, cueFailed_eng, hg, List.append_assoc, told_append, ← h]
  simp only [Engine.reports, hk, hp, List.cons_append, List.nil_append, told_cons]

theorem cueFailed_frame (hclk : e.clk = s.eng.clk)
    (hmix : e.mix = { s.eng.mix with window := e.mix.window, clipReported := e.mix.clipReported })
    (hcells : e.mem.cells = s.eng.mem.cells) (hports : e.ports = s.eng.ports) (hlanes : e.lanes = s.eng.lanes)
    (hped : e.ped = s.eng.ped) (hxfer : e.xfer = s.eng.xfer) : s.cueFrame (s.cueFailed c r e) :=
  grantHolds_frame (e := e.reports (.cueFailed c.number c.target c.action r)) hclk hmix hcells hports hlanes hped hxfer

end

end Sys2Proof.Machine

namespace Sys2Proof.Settled
open Sys2Proof.Machine

/-- Settles O45: the close of the base capture by CLOSE, PAUSE and AUTO_CLOSE, its discard, and the early close of a fixed
capture. -/
theorem closeCues : Obligations.CloseCues := by
  intro s l sl hst hsl r count rests gap waits told closed discarded
  have hdone : ∀ {c before after} {a : Machine.Action} {want i t}, s.Turn c before after → c.action = a →
      exec i s = cueRow want s → want a = true → a.lane? = none →
      actOn c (s.dequeued before after) = (t, none) → exec i s = .next (s.cueDone c t) := fun h ha hi hw hl hr =>
    hi.trans (cueRow_done h (ha ▸ hw) (fun k hk => by rw [ha, hl] at hk; cases hk) hr)
  have hfails : ∀ {c before after} {a : Machine.Action} {want i t reason}, s.Turn c before after → c.action = a →
      exec i s = cueRow want s → want a = true → a.lane? = none → a.records = false →
      actOn c (s.dequeued before after) = (t, some reason) → exec i s = .next (s.cueFailed c reason t) :=
    fun h ha hi hw hl hrec hr => by
      refine hi.trans ((cueRow_failed h (ha ▸ hw) (fun k hk => by rw [ha, hl] at hk; cases hk) hr).trans ?_)
      rw [disarmFor_other (ha ▸ hrec)]
      rfl
  have hbase : ∀ {before after}, s.eng.cyc.base = some l → baseCapture (s.dequeued before after) = some (l, count) :=
    fun {_ _} hb => by
      simp only [baseCapture, State.dequeued, hb, show s.eng.layers[l].slot = some sl from hsl]
      rfl
  -- what stands after a close of the base capture, whatever row makes it
  have hclosed : ∀ {t : State} {T : Engine} {state onset},
      T.layers = (upd s.eng.layers l fun r => { r with state := .playing, mult := some 1, slot := none, lastChange := 0 }) →
      T.slots = (upd s.eng.slots sl fun x => (closeTail x).released) → T.mem = s.eng.mem →
      (s.eng.voices[l].rs = .idle → T.voices[l] = (s.eng.voices[l]).primed 0 (256 % count)) →
      T.cyc = { s.eng.cyc.closed state count with onset := onset } →
      t.eng.cyc = T.cyc → (∀ i : LayerIx, (t.eng.layers[i]).sameButHold T.layers[i]) → t.eng.slots = T.slots →
      t.eng.mem = T.mem → t.eng.voices = T.voices → s.cueFrame t → closed t state onset := by
    intro t T state onset hlayers hslots hmem hvoice hcyc hc hl hs hm hv hframe
    refine ⟨hc.trans hcyc, ?_, by rw [hm, hmem], ⟨fun i hi => ?_, fun i hi => ?_, hframe, ?_⟩, fun hidle => by rw [hv, hvoice hidle]⟩
    · exact (hl l).of_eq (by rw [hlayers]; exact upd_self s.eng.layers l _)
    · exact (hl i).of_eq (by rw [hlayers]; exact upd_other s.eng.layers l i _ (Ne.symm hi))
    · rw [hs, hslots]
      exact (congrArg (fun x : Slot => x.sameButStaging s.eng.slots[i]) (upd_other s.eng.slots sl i _ (Ne.symm hi))).mpr rfl
    · rw [hs, hslots]
      have hself := upd_self s.eng.slots sl fun x => (closeTail x).released
      exact hself.trans (congrArg Slot.released hself).symm
  have hdiscarded : ∀ {c before after}, s.eng.cyc.splice = .idle →
      discarded (s.cueFailed c .tooShort (leaveBase (emptyLayer l .discard c.number (s.dequeued before after)))) c := by
    intro c before after hsp
    obtain ⟨hrest, hfree, hage, hjobs, hslots⟩ := emptyLayer_spec l .discard c.number (s.dequeued before after)
    generalize emptyLayer l .discard c.number (s.dequeued before after) = E at hrest hfree hage hjobs hslots ⊢
    obtain ⟨window, heard, hleave⟩ := leaveBase_eq E
    generalize leaveBase E = T at hleave ⊢
    have hEcyc : E.cyc = s.eng.cyc := by
      rw [hrest]
      refine (congrArg (fun sp : Splice => { s.eng.cyc with splice := sp.without (· == l) }) hsp).trans ?_
      exact congrArg (fun sp => { s.eng.cyc with splice := sp }) hsp.symm
    have hTcyc : T.cyc = { s.eng.cyc with state := .unset, base := none } := by rw [hleave, hEcyc]
    have hTslots : T.slots = E.slots := by rw [hleave]
    have hTlayers : T.layers = upd s.eng.layers l fun r => r.emptied s.eng.cyc.k := by rw [hleave, hrest]; rfl
    have hTl : T.layers[l] = r.emptied s.eng.cyc.k := by rw [hTlayers]; exact upd_self s.eng.layers l _
    refine ⟨?_, cueFailed_cyc.trans hTcyc, (cueFailed_layer_kept (by rw [hTl]; nofun)).trans hTl, ?_, ?_,
      fun i hi => ?_, fun i hi => ?_, ?_, ?_⟩
    · refine cueFailed_tells (by rw [hTcyc]) (by rw [hTcyc])
        (events := [.layerState l .empty .discard c.number] ++ waits .cleared) ?_ rfl
      have hfol : E.fol = s.eng.fol := by rw [hrest]; rfl
      rw [hleave, hEcyc, hfol, told_append, hrest]
      rfl
    · rw [cueFailed_mem, hleave]
      exact hfree
    · rw [cueFailed_fol, hleave, hrest]
      rfl
    · exact (cueFailed_layer i).of_eq (by rw [hTlayers]; exact upd_other s.eng.layers l i _ (Ne.symm hi))
    · rw [cueFailed_slots, hTslots, hslots i, if_neg (fun h => hi (Option.some.inj (h.symm.trans hsl)))]
      rfl
    · exact cueFailed_frame (by rw [hleave, hrest]; rfl) (by rw [hleave, hrest]; rfl) (by rw [hleave, hrest]; rfl)
        (by rw [hleave, hrest]; rfl) (by rw [hleave, hrest]; rfl) (by rw [hleave, hrest]; rfl) (by rw [hleave, hrest]; rfl)
    · rw [cueFailed_slots, hTslots, hslots sl, if_pos (by exact hsl)]
      rfl
  have hlong : ∀ {before after wave number cause}, 4800 ≤ count → ∃ window heard fol list,
      closeBase l count cause number wave (s.dequeued before after) = { s.dequeued before after with
        cyc := s.eng.cyc.closed .running count, fol := fol, heard := heard
        layers := upd s.eng.layers l fun r => { r with state := .playing, mult := some 1, slot := none, lastChange := 0 }
        slots := upd s.eng.slots sl fun x => (closeTail x).released
        voices := upd s.eng.voices l fun v => if v.rs = .idle then v.primed 0 (256 % count) else v
        mix := { s.eng.mix with window := window, clipReported := false }, cues := { s.eng.cues with list := list }
        evq := (s.eng.evq.told s.eng.cyc.k s.eng.cyc.p gap).told 0 0 (s.eng.closeTold l count cause number) }
      ∧ fol.state = s.eng.fol.state := fun {before after wave number cause} hcount => by
    obtain ⟨window, heard, fol, list, h, hfol, -⟩ :=
      closeBase_spec (e := s.dequeued before after) hsl (show 0 < count by omega) cause number wave
    exact ⟨window, heard, fol, list, h, hfol⟩
  have hvoice : s.eng.voices[l].rs = .idle →
      (upd s.eng.voices l fun v => if v.rs = .idle then v.primed 0 (256 % count) else v)[l]
        = (s.eng.voices[l]).primed 0 (256 % count) := fun hidle =>
    (upd_self s.eng.voices l _).trans (if_pos hidle)
  refine ⟨fun c before after h ha ht => ⟨fun hc hb hcount => ?_, fun hc hb hcount hsp => ?_, fun a hb hjobs ha' => ?_⟩,
    fun c before after h ha hc hb hsp => ⟨fun hcount => ?_, fun hcount => ?_⟩, fun hpow hc hb hcount => ?_⟩
  · obtain ⟨window, heard, fol, list, heq, -⟩ :=
      hlong (before := before) (after := after) (wave := c.wave + 1) (number := c.number) (cause := .cue) hcount
    generalize hT : closeBase l count .cue c.number (c.wave + 1) (s.dequeued before after) = T at heq
    have hcue : actOn c (s.dequeued before after) = (T, none) := by
      simp only [actOn, ha, ht]
      exact (closeCue_base (e := s.dequeued before after) hst (hbase hb)).trans ((closeBaseCue_long hcount).trans (by rw [hT]; rfl))
    refine ⟨_, hdone h ha rfl rfl rfl hcue, ?_, ?_⟩
    · exact hclosed (T := T) (by rw [heq]) (by rw [heq]) (by rw [heq]; rfl) (fun hidle => by rw [heq]; exact hvoice hidle)
        (by rw [heq]; rfl) cueDone_cyc (fun i => cueDone_layer i) cueDone_slots cueDone_mem cueDone_voices
        (cueDone_frame (by rw [heq]; rfl) (by rw [heq]) (by rw [heq]; rfl) (by rw [heq]; rfl) (by rw [heq]; rfl)
          (by rw [heq]; rfl) (by rw [heq]; rfl))
    · exact cueDone_evq (k := 0) (p := 0) (by rw [heq]; rfl) (by rw [heq]; rfl) (by rw [heq]; rfl) rfl
  · refine ⟨_, hfails h ha rfl rfl rfl rfl ?_, hdiscarded (before := before) (after := after) hsp⟩
    simp only [actOn, ha, ht]
    exact (closeCue_base (e := s.dequeued before after) hst (hbase hb)).trans (closeBaseCue_short hcount)
  · have heq := closeEarly_eq (e := s.dequeued before after) (i := sl) (by exact hsl) c.number
    rw [show (s.dequeued before after).firstWritten l sl = a from firstWritten_of ha'] at heq
    obtain ⟨u, hu⟩ : ∃ u, closeEarly l c.number (s.dequeued before after) = u := ⟨_, rfl⟩
    rw [hu] at heq
    have hcue : actOn c (s.dequeued before after) = (u, none) := by
      simp only [actOn, ha, ht]
      exact (closeCue_fixed (e := s.dequeued before after) hst hb).trans (by rw [hu]; rfl)
    have hlayers := congrArg Engine.layers heq
    have hslots := congrArg Engine.slots heq
    have hcyc : u.cyc = s.eng.cyc := by rw [heq]; rfl
    have hall : ((s.dequeued before after).mem.jobs.all fun j => j.layer != l) = true :=
      List.all_eq_true.2 fun j hj => bne_iff_ne.2 (hjobs j hj)
    refine ⟨_, hdone h ha rfl rfl rfl hcue, cueDone_cyc.trans hcyc, ?_, ?_, ?_, fun i hi => ?_, fun i hi => ?_, ?_, ?_⟩
    · exact cueDone_layer_of (by rw [hlayers]; exact upd_self s.eng.layers l _)
    · rw [cueDone_mem, heq, hall]
      rfl
    · exact cueDone_tells (by rw [hcyc]) (by rw [hcyc]) (congrArg Engine.evq heq :) (List.append_assoc _ [_] [_]).symm
    · exact cueDone_layer_of (by rw [hlayers]; exact upd_other s.eng.layers l i _ hi.symm)
    · rw [cueDone_slots, hslots]
      exact (congrArg (fun x : Slot => x.sameButStaging s.eng.slots[i]) (upd_other s.eng.slots sl i _ hi.symm)).mpr rfl
    · exact cueDone_frame (congrArg Engine.clk heq :) (by rw [heq]; rfl) (congrArg (fun t => t.mem.cells) heq :)
        (congrArg Engine.ports heq :) (congrArg Engine.lanes heq :) (congrArg Engine.ped heq :) (congrArg Engine.xfer heq :)
    · rw [cueDone_slots, hslots]
      have hself := upd_self s.eng.slots sl fun x => (closeTail x).released
      exact hself.trans (congrArg Slot.released hself).symm
  · obtain ⟨window, heard, fol, list, heq, hfol⟩ :=
      hlong (before := before) (after := after) (wave := c.wave + 1) (number := c.number) (cause := .cue) hcount
    generalize hC : closeBase l count .cue c.number (c.wave + 1) (s.dequeued before after) = C at heq
    obtain ⟨heard', hpause⟩ := enterPaused_eq C
    have hCsp : C.cyc.splice = .idle := by rw [heq]; exact hsp
    have hvl : C.voicesLeft[l] = C.voices[l] := by rw [C.voicesLeft_get, hCsp]; rfl
    have hrests : C.fol.rests .paused = waits .paused := by
      unfold Follower.rests
      rw [show C.fol.state = s.eng.fol.state by rw [heq]; exact hfol]
      rfl
    rw [hCsp, hrests, show Splice.idle.skips .paused = [] from rfl, List.nil_append] at hpause
    generalize hT : enterPaused C = T at hpause
    have hcue : actOn c (s.dequeued before after) = (T, none) := by
      simp only [actOn, ha]
      exact (pauseCue_long (e := s.dequeued before after) hc (hbase hb) hcount).trans (by rw [hC, hT]; rfl)
    have hTcyc : T.cyc = s.eng.cyc.closed .paused count := by
      rw [hpause, heq, ← hsp]
      rfl
    refine ⟨_, hdone h ha rfl rfl rfl hcue, ?_, ?_⟩
    · refine hclosed (T := T) (by rw [hpause, heq]) (by rw [hpause, heq]) (by rw [hpause, heq]; rfl) (fun hidle => ?_)
        (by rw [hTcyc]; rfl) cueDone_cyc (fun i => cueDone_layer i) cueDone_slots cueDone_mem cueDone_voices
        (cueDone_frame (by rw [hpause, heq]; rfl) (by rw [hpause, heq]) (by rw [hpause, heq]; rfl)
          (by rw [hpause, heq]; rfl) (by rw [hpause, heq]; rfl) (by rw [hpause, heq]; rfl) (by rw [hpause, heq]; rfl))
      rw [show T.voices = C.voicesLeft by rw [hpause], hvl, heq]
      exact hvoice hidle
    · refine cueDone_evq (k := 0) (p := 0) (by rw [hTcyc]; rfl) (by rw [hTcyc]; rfl)
        (events := s.eng.closeTold l count .cue c.number ++ waits .paused) ?_ ?_
      · rw [hpause, told_append, heq]
        rfl
      · simp only [Engine.closeTold, List.append_assoc]
  · refine ⟨_, hfails h ha rfl rfl rfl rfl ?_, hdiscarded (before := before) (after := after) hsp⟩
    simp only [actOn, ha]
    exact pauseCue_short (e := s.dequeued before after) hc (hbase hb) hcount
  · obtain ⟨window, heard, fol, list, heq, -, hlist⟩ :=
      closeBase_spec (e := s.eng) hsl (show 0 < count by omega) .autoClose 0 0
    have hbase' : baseCapture s.eng = some (l, count) := by
      simp only [baseCapture, hb, show s.eng.layers[l].slot = some sl from hsl]
      rfl
    have hauto := autoClose_closes hc hbase' hcount
    generalize closeBase l count .autoClose 0 0 s.eng = C at heq hauto
    obtain ⟨T, hT⟩ : ∃ T, noteGrid C = T := ⟨_, rfl⟩
    rw [hT] at hauto
    have hgrid : T = { C with cyc := { C.cyc with onset := some { p := 0, len := count, beats := s.eng.cyc.beats } } } := by
      rw [← hT, heq]
      rfl
    refine ⟨{ s with eng := Machine.grantHolds T }, ?_, ?_, ?_, ?_⟩
    · exact (engineRow_on hpow _).trans (by rw [hauto]; rfl)
    · refine hclosed (T := T) (by rw [hgrid, heq]) (by rw [hgrid, heq]) (by rw [hgrid, heq])
        (fun hidle => by rw [hgrid, heq]; exact hvoice hidle) (by rw [hgrid, heq]) (grantHolds_cyc T)
        (fun i => grantHolds_sameButHold T i) (grantHolds_slots T) (grantHolds_mem T) (grantHolds_voices T)
        (grantHolds_frame (by rw [hgrid, heq]) (by rw [hgrid, heq]) (by rw [hgrid, heq]) (by rw [hgrid, heq])
          (by rw [hgrid, heq]) (by rw [hgrid, heq]) (by rw [hgrid, heq]))
    · obtain ⟨granted, hg⟩ := grantHolds_evq T
      refine ⟨granted, hg.trans ?_⟩
      rw [hgrid, heq, List.append_nil, told_append]
      rfl
    · have hcues : (Machine.grantHolds T).cues = { s.eng.cues with list := list } := by rw [grantHolds_cues, hgrid, heq]
      dsimp only
      rw [hcues]
      exact hlist

end Sys2Proof.Settled
end

section
/-! CLEAR and CLEAR_ALL: what emptying layers leaves, one after another, and the return to UNSET (R10, R56, R57, R79). -/

set_option Elab.async false

namespace Sys2Proof.Machine

/-! ## The return to UNSET (R10) -/

/-- The cycle clock back in UNSET, the splice ended with it. -/
def Cycle.unset (c : Cycle) : Cycle :=
  { c with
    state := .unset, len := none, p := 0, frac := 0, k := 0, m := 0, beat := 0, base := none, splice := .idle,
    beats := c.pendingBeats.getD c.beats, pendingBeats := none, spliceDone := false, captureThisPass := false
    owedBoundary := false }

theorem returnToUnset_eq (e : Engine) : ∃ window heard voices,
    returnToUnset e = { e with
      cyc := e.cyc.unset, mix := { e.mix with window := window }, voices := voices, fol := e.fol.lapsed, heard := heard
      evq := e.evq.told 0 0 (e.cyc.splice.skips .cleared ++ e.fol.rests .cleared ++ [.cycleCleared]) }
    ∧ ∀ i : LayerIx, ∃ len, voices[i] = (e.voices[i]).left len i e.cyc.splice := by
  obtain ⟨window, hstate⟩ := setCycleState_eq .unset { e with cyc := e.cyc.cleared }
  obtain ⟨E, hE⟩ : ∃ E, E = setCycleState .unset { e with cyc := e.cyc.cleared } := ⟨_, rfl⟩
  rw [← hE] at hstate
  obtain ⟨h1, hlapse⟩ := followLapse_eq .cleared (endCrossfade (abandonSplice .cleared E))
  obtain ⟨h2, hclear⟩ := clearDecision_eq (followLapse .cleared (endCrossfade (abandonSplice .cleared E)))
  have hreturn : returnToUnset e
      = post .cycleCleared (clearDecision (followLapse .cleared (endCrossfade (abandonSplice .cleared E)))) := by
    rw [hE]
    rfl
  refine ⟨window, h2, E.voicesLeft, ?_, fun i => ⟨layerLen E i, ?_⟩⟩
  · rw [hreturn, hclear, hlapse, endSplice_eq, told_append, told_append, ← Follower.resting_undecided, hstate]
    rfl
  · rw [E.voicesLeft_get, hstate]
    rfl

theorem Splice.skips_without (sp : Splice) (gone : LayerIx → Bool) (reason : SkipReason) :
    (sp.without gone).skips reason = sp.skips reason := by
  cases sp <;> rfl

theorem Splice.without_idle (gone : LayerIx → Bool) : Splice.idle.without gone = .idle := rfl

/-- A voice that stays in the splice leaves it later as it would have done before. -/
theorem Voice.left_without {gone : LayerIx → Bool} {i : LayerIx} (h : gone i = false) (v : Voice) (len : Nat) (sp : Splice) :
    v.left len i (sp.without gone) = v.left len i sp := by
  have hmem : ∀ vs : List LayerIx, (i ∈ vs.filter fun v => !gone v) ↔ i ∈ vs := fun vs => by
    rw [List.mem_filter, h]
    exact and_iff_left rfl
  cases sp with
  | idle => rfl
  | fetching r => exact if_congr (hmem r.voices) rfl rfl
  | crossfading r => exact if_congr (hmem r.voices) rfl rfl

/-- A voice that has left the splice has nothing more to leave. -/
theorem Voice.left_gone {gone : LayerIx → Bool} {i : LayerIx} (h : gone i = true) (v : Voice) (len : Nat) (sp : Splice) :
    v.left len i (sp.without gone) = v := by
  have hmem : ∀ vs : List LayerIx, i ∉ vs.filter fun v => !gone v := fun vs hm => by
    have := (List.mem_filter.1 hm).2
    rw [h] at this
    cases this
  cases sp with
  | idle => rfl
  | fetching r => exact if_neg (hmem r.voices)
  | crossfading r => exact if_neg (hmem r.voices)

theorem Splice.without_without (sp : Splice) (g h : LayerIx → Bool) :
    (sp.without g).without h = sp.without fun v => g v || h v := by
  have hf : ∀ vs : List LayerIx, (vs.filter fun v => !g v).filter (fun v => !h v) = vs.filter fun v => !(g v || h v) :=
    fun vs => by
      rw [List.filter_filter]
      exact List.filter_congr fun v _ => by rw [Bool.not_or, Bool.and_comm]
  cases sp with
  | idle => rfl
  | fetching r => exact congrArg (fun vs => Splice.fetching { r with voices := vs }) (hf r.voices)
  | crossfading r => exact congrArg (fun vs => Splice.crossfading { r with voices := vs }) (hf r.voices)

theorem grantHolds_none_granted {e : Engine} (h : ∀ l : LayerIx, e.layers[l].hold ≠ .pending ∨ e.layers[l].state = .empty) :
    grantHolds e = e := by
  have hnone : ∀ l, grantable e l = false := fun l => Bool.eq_false_iff.2 fun hg => by
    obtain ⟨hp, hc⟩ := (grantable_iff e l).1 hg
    obtain ⟨hst, -⟩ := (holdConditions_iff e l).1 hc
    rcases h l with h | h
    · exact h hp
    · rw [h] at hst
      rcases hst with hst | hst <;> cases hst
  obtain ⟨layers, hlayers, heq⟩ := grantHolds_spec e
  have hl : layers = e.layers := Vector.ext fun j hj => (hlayers ⟨j, hj⟩).trans (if_neg (by rw [hnone]; decide))
  rw [heq, hl, List.filter_eq_nil_iff.2 fun l _ => by rw [hnone]; decide]
  rfl

/-! ## Layers emptied one after another (R57, R79) -/

/-- A layer is emptied by a cue, and takes the state. -/
def clearTo (st : LayerState) (number : Nat) (l : LayerIx) (e : Engine) : Engine :=
  setLayerState l st .cue number (releaseLayer l e)

theorem clearTo_empty (number : Nat) (l : LayerIx) (e : Engine) :
    clearTo .empty number l e = emptyLayer l .cue number e := rfl

theorem clearTo_spec (st : LayerState) (number : Nat) (l : LayerIx) (e : Engine) :
    let t := clearTo st number l e
    t = { e with
        layers := upd e.layers l fun r => { r.emptied e.cyc.k with state := st }
        slots := t.slots, mem := { t.mem with cells := e.mem.cells }
        cyc := { e.cyc with splice := e.cyc.splice.without (· == l) }
        voices := upd e.voices l fun v => (v.left (layerLen e l) l e.cyc.splice).cleared
        evq := e.evq.told e.cyc.k e.cyc.p [.layerState l st .cue number] }
      ∧ t.mem = (releaseLayer l e).mem ∧ t.slots = (releaseLayer l e).slots := by
  obtain ⟨hrest, -⟩ := releaseLayer_spec l e
  generalize hT : releaseLayer l e = T at hrest
  have ht : clearTo st number l e = setLayerState l st .cue number T := by rw [← hT]; rfl
  intro t
  have ht' : t = _ := ht
  clear_value t
  refine ⟨?_, by rw [ht', setLayerState_eq]; rfl, by rw [ht', setLayerState_eq]; rfl⟩
  have hslots' : t.slots = T.slots := by rw [ht']; rfl
  have hmem : t.mem = T.mem := by rw [ht']; rfl
  rw [hslots', hmem, ht']
  refine (congrArg (setLayerState l st .cue number) hrest).trans ?_
  simp only [setLayerState_eq, modLayer, Engine.reports, upd_upd]
  rfl

/-- The engine `t` is `e` once cues have emptied the layers of a list, each taking its state (R57, R79). -/
structure Emptied (e : Engine) (st : LayerIx → LayerState) (number : Nat) (seen : List LayerIx) (t : Engine) : Prop where
  rest : t = { e with
    layers := t.layers, slots := t.slots, mem := { t.mem with cells := e.mem.cells }, voices := t.voices
    cyc := { e.cyc with splice := e.cyc.splice.without fun v => decide (v ∈ seen) }
    evq := e.evq.told e.cyc.k e.cyc.p (seen.map fun i => .layerState i (st i) .cue number) }
  layer : ∀ i : LayerIx, t.layers[i] =
    if i ∈ seen then { (e.layers[i]).emptied e.cyc.k with state := st i } else e.layers[i]
  voice : ∀ i : LayerIx, t.voices[i] =
    if i ∈ seen then ((e.voices[i]).left (layerLen e i) i e.cyc.splice).cleared else e.voices[i]
  free : ∀ pg : Nat, t.mem.free.count pg = e.mem.free.count pg + (seen.map fun i => (e.layers[i]).pageUses pg).sum
  age : t.mem.age = e.mem.age.filter fun g => decide (g.1 ∉ seen)
  jobs : t.mem.jobs = e.mem.jobs.filter fun j => decide (j.layer ∉ seen)
  released : ∀ (i : SlotIx) (l : LayerIx), l ∈ seen → e.layers[l].slot = some i → t.slots[i] = (t.slots[i]).released
  kept : ∀ i : SlotIx, (∀ l ∈ seen, e.layers[l].slot ≠ some i) → (t.slots[i]).sameButStaging e.slots[i]
  staged : ∀ (i : SlotIx), ∀ en ∈ t.slots[i].staging, en ∈ e.slots[i].staging

theorem Emptied.start (e : Engine) (st : LayerIx → LayerState) (number : Nat) : Emptied e st number [] e where
  rest := by
    have hsp : e.cyc.splice.without (fun v => decide (v ∈ ([] : List LayerIx))) = e.cyc.splice := by
      cases e.cyc.splice <;> simp [Splice.without]
    rw [hsp]
    rfl
  layer := fun i => (if_neg List.not_mem_nil).symm
  voice := fun i => (if_neg List.not_mem_nil).symm
  free := fun pg => rfl
  age := (List.filter_eq_self.2 fun _ _ => by simp).symm
  jobs := (List.filter_eq_self.2 fun _ _ => by simp).symm
  released := fun i l hl => absurd hl List.not_mem_nil
  kept := fun i _ => rfl
  staged := fun i en h => h

/-- A slot that holds nothing but what is staged stays so when other entries are staged. -/
theorem Slot.released_staging {x : Slot} (h : x = x.released) (st : List Entry) :
    { x with staging := st } = ({ x with staging := st } : Slot).released := by
  rw [h]
  rfl

theorem Emptied.next {e t : Engine} {st : LayerIx → LayerState} {number : Nat} {seen : List LayerIx} {l : LayerIx}
    (h : Emptied e st number seen t) (hl : l ∉ seen) :
    Emptied e st number (seen ++ [l]) (clearTo (st l) number l t) := by
  obtain ⟨hrest, hmem, hslot⟩ := clearTo_spec (st l) number l t
  obtain ⟨-, hfree, hage, hjobs, hslots⟩ := releaseLayer_spec l t
  generalize clearTo (st l) number l t = u at hrest hmem hslot
  have htl : t.layers[l] = e.layers[l] := (h.layer l).trans (if_neg hl)
  have htv : t.voices[l] = e.voices[l] := (h.voice l).trans (if_neg hl)
  have hcyc : t.cyc = { e.cyc with splice := e.cyc.splice.without fun v => decide (v ∈ seen) } := by rw [h.rest]
  have hlen : layerLen t l = layerLen e l := layerLen_congr (by rw [htl]) (by rw [hcyc])
  have hul : u.layers = upd t.layers l fun r => { r.emptied t.cyc.k with state := st l } := by rw [hrest]
  have huv : u.voices = upd t.voices l fun v => (v.left (layerLen t l) l t.cyc.splice).cleared := by rw [hrest]
  have hmemseen : ∀ i, i ∈ seen ++ [l] ↔ i ∈ seen ∨ i = l := fun i => by simp
  have hslotsu : ∀ i : SlotIx, u.slots[i] =
      { (if e.layers[l].slot = some i then (t.slots[i]).released else t.slots[i]) with
        staging := t.slots[i].staging.filter fun en => !t.goneEntry l en } := fun i => by
    rw [hslot, hslots i, htl]
  refine ⟨?_, fun i => ?_, fun i => ?_, fun pg => ?_, ?_, ?_, fun i k hk hs => ?_, fun i hs => ?_, fun i en hen => ?_⟩
  · have hsp : (e.cyc.splice.without fun v => decide (v ∈ seen)).without (· == l)
        = e.cyc.splice.without fun v => decide (v ∈ seen ++ [l]) := by
      rw [Splice.without_without]
      refine congrArg (Splice.without · e.cyc.splice) (funext fun v => ?_)
      simp [hmemseen, Bool.decide_or, beq_eq_decide]
    rw [← hul, ← huv] at hrest
    refine hrest.trans ((congrArg (fun T : Engine => { T with
      layers := u.layers, slots := u.slots, mem := { u.mem with cells := T.mem.cells }, voices := u.voices
      cyc := { T.cyc with splice := T.cyc.splice.without (· == l) }
      evq := T.evq.told T.cyc.k T.cyc.p [.layerState l (st l) .cue number] }) h.rest).trans ?_)
    rw [← hsp, List.map_append, told_append]
    rfl
  · rw [hul]
    by_cases hi : i = l
    · subst hi
      rw [if_pos ((hmemseen i).2 (.inr rfl))]
      refine (upd_self t.layers i _).trans ?_
      rw [← Fin.getElem_fin, htl, hcyc]
    · rw [if_congr ((hmemseen i).trans (or_iff_left hi)) rfl rfl]
      exact (upd_other t.layers l i _ (Ne.symm hi)).trans (h.layer i)
  · rw [huv]
    by_cases hi : i = l
    · subst hi
      rw [if_pos ((hmemseen i).2 (.inr rfl))]
      refine (upd_self t.voices i _).trans ?_
      rw [← Fin.getElem_fin, htv, hlen, hcyc]
      exact congrArg Voice.cleared (Voice.left_without (decide_eq_false hl) _ _ _)
    · rw [if_congr ((hmemseen i).trans (or_iff_left hi)) rfl rfl]
      exact (upd_other t.voices l i _ (Ne.symm hi)).trans (h.voice i)
  · rw [hmem, hfree, htl, List.map_append, List.sum_append]
    simp only [List.count_append, h.free pg, List.map_cons, List.map_nil, List.sum_cons, List.sum_nil, Layer.pageUses, chainCount]
    omega
  · rw [hmem, hage, h.age, List.filter_filter]
    refine List.filter_congr fun g _ => ?_
    rw [Bool.eq_iff_iff, Bool.and_eq_true, bne_iff_ne, decide_eq_true_eq, decide_eq_true_eq, hmemseen]
    tauto
  · rw [hmem, hjobs, h.jobs, List.filter_filter]
    refine List.filter_congr fun j _ => ?_
    rw [Bool.eq_iff_iff, Bool.and_eq_true, bne_iff_ne, decide_eq_true_eq, decide_eq_true_eq, hmemseen]
    tauto
  · rw [hslotsu]
    split
    next => rfl
    next hother =>
      rcases (hmemseen k).1 hk with hk | rfl
      · exact Slot.released_staging (h.released i k hk hs) _
      · exact absurd hs hother
  · rw [hslotsu, if_neg (hs l ((hmemseen l).2 (.inr rfl)))]
    exact Slot.sameButStaging.trans (b := t.slots[i]) (by rfl) (h.kept i fun k hk => hs k ((hmemseen k).2 (.inl hk)))
  · rw [hslotsu] at hen
    exact h.staged i en (List.mem_filter.1 hen).1

/-- The state a CLEAR_ALL leaves a layer in: ARMED where a RECORD waits for it (R79). -/
def Engine.clearedState (e : Engine) (l : LayerIx) : LayerState := if recordPending e l then .armed else .empty

theorem clearAllLayer_eq (number : Nat) (l : LayerIx) (e : Engine) :
    clearAllLayer number l e = if e.layers[l].state = .empty then e else clearTo (e.clearedState l) number l e := by
  unfold clearAllLayer Engine.clearedState
  cases recordPending e l <;> rfl

theorem clearAllLayers_emptied {e : Engine} {number : Nat} (ls : List LayerIx) {seen : List LayerIx} {t : Engine}
    (hn : (seen ++ ls).Nodup) (h : Emptied e e.clearedState number seen t) :
    Emptied e e.clearedState number (seen ++ ls.filter fun i => e.layers[i].state != .empty)
      (ls.foldl (fun t l => clearAllLayer number l t) t) := by
  induction ls generalizing seen t with
  | nil => rwa [List.filter_nil, List.append_nil]
  | cons l rest ih =>
    have hl : l ∉ seen := fun hm => (List.nodup_append.1 hn).2.2 l hm l List.mem_cons_self rfl
    have hrest : (seen ++ [l] ++ rest).Nodup := by rwa [List.append_assoc]
    have htl : t.layers[l] = e.layers[l] := (h.layer l).trans (if_neg hl)
    have hst : t.clearedState l = e.clearedState l := by
      have hc : t.cues = e.cues := by rw [h.rest]
      unfold Engine.clearedState recordPending
      rw [hc]
    rw [List.foldl_cons, clearAllLayer_eq, htl, hst]
    by_cases hempty : e.layers[l].state = .empty
    · rw [if_pos hempty, List.filter_cons_of_neg (by rw [bne_iff_ne]; exact fun h => h hempty)]
      exact ih (hrest.sublist (by simp)) h
    · rw [if_neg hempty, List.filter_cons_of_pos (by simpa using hempty)]
      have := ih hrest (h.next hl)
      rwa [List.append_assoc] at this

/-- The layers that a CLEAR_ALL empties, in ascending order. -/
def Engine.occupied (e : Engine) : List LayerIx := layerIxs.filter fun i => e.layers[i].state != .empty

theorem Engine.mem_occupied (e : Engine) (i : LayerIx) : i ∈ e.occupied ↔ e.layers[i].state ≠ .empty := by
  simp [Engine.occupied, mem_layerIxs]

theorem clearAll_emptied (e : Engine) (number : Nat) :
    Emptied e e.clearedState number e.occupied (eachLayer (clearAllLayer number) e) :=
  clearAllLayers_emptied (seen := []) layerIxs layerIxs_nodup (Emptied.start e e.clearedState number)

theorem allEmpty_iff (e : Engine) : allEmpty e = true ↔ ∀ i : LayerIx, e.layers[i].state = .empty := by
  simp [allEmpty, mem_layerIxs]

theorem unsetIfEmpty_stays {e : Engine}
    (h : (∃ i : LayerIx, e.layers[i].state ≠ .empty) ∨ ¬(e.cyc.state = .running ∨ e.cyc.state = .paused)) :
    unsetIfEmpty e = e := by
  unfold unsetIfEmpty
  refine if_neg fun hn => ?_
  obtain ⟨hran, hall⟩ := hn
  rcases h with ⟨i, hi⟩ | h
  · exact hi ((allEmpty_iff e).1 hall i)
  · exact h hran

theorem unsetIfEmpty_returns {e : Engine} (hran : e.cyc.state = .running ∨ e.cyc.state = .paused)
    (h : ∀ i : LayerIx, e.layers[i].state = .empty) : unsetIfEmpty e = returnToUnset e :=
  if_pos ⟨hran, (allEmpty_iff e).2 h⟩

section
variable {e : Engine} {l : LayerIx} {number : Nat}

theorem clearLayer_base (hne : e.layers[l].state ≠ .empty) (hb : e.cyc.base = some l) :
    clearLayer number l e = leaveBase (emptyLayer l .cue number e) := by
  unfold clearLayer
  rw [if_neg hne]
  dsimp only
  rw [if_pos hb]
  refine unsetIfEmpty_stays (.inr ?_)
  obtain ⟨_, _, h⟩ := leaveBase_eq (emptyLayer l .cue number e)
  rw [h]
  rintro (h | h) <;> cases h

theorem clearLayer_other (hne : e.layers[l].state ≠ .empty) (hb : e.cyc.base ≠ some l) :
    clearLayer number l e = unsetIfEmpty (emptyLayer l .cue number e) := by
  unfold clearLayer
  rw [if_neg hne]
  dsimp only
  rw [if_neg hb]

theorem clearLayer_empty (hem : e.layers[l].state = .empty) (hb : e.cyc.base ≠ some l) :
    clearLayer number l e = unsetIfEmpty e := by
  unfold clearLayer
  rw [if_pos hem]
  dsimp only
  rw [if_neg hb]

end

/-- A cue after which no hold can be granted. -/
theorem cueDone_ungranted {s : State} {c : Cue} {e : Engine}
    (h : ∀ l : LayerIx, e.layers[l].hold ≠ .pending ∨ e.layers[l].state = .empty) :
    (s.cueDone c e).eng = e.reports (.cueDone c.number c.target c.action s.eng.cyc.k) := by
  rw [cueDone_eng]
  exact grantHolds_none_granted (e := e.reports (.cueDone c.number c.target c.action s.eng.cyc.k)) h

theorem cueDone_layer_kept {s : State} {c : Cue} {e : Engine} {l : LayerIx} (h : e.layers[l].hold ≠ .pending) :
    (s.cueDone c e).eng.layers[l] = e.layers[l] := by
  rw [cueDone_eng]
  exact grantHolds_layer_kept (e := e.reports (.cueDone c.number c.target c.action s.eng.cyc.k)) h

theorem recordPending_eq (e : Engine) (l : LayerIx) :
    recordPending e l = e.cues.list.any fun d => d.target == .layer l && d.action.records := by
  unfold recordPending
  refine congrArg e.cues.list.any (funext fun d => congrArg (d.target == .layer l && ·) ?_)
  cases d.action <;> rfl

/-- The engine a CLEAR_ALL leaves, the layers having been emptied (R79). -/
theorem clearAllCue_eq {e : Engine} (number : Nat) (h : ∀ i : LayerIx, e.layers[i].hold = .none) :
    ∃ t, clearAllCue number e = done t
      ∧ (e.cyc.state = .running ∨ e.cyc.state = .paused → t = returnToUnset (eachLayer (clearAllLayer number) e))
      ∧ (e.cyc.state = .baseCapture → t = leaveBase (eachLayer (clearAllLayer number) e))
      ∧ (e.cyc.state = .unset → t = eachLayer (clearAllLayer number) e) := by
  have hheld : anyHeld e = false := Bool.eq_false_iff.2 fun hn => by
    obtain ⟨i, hi⟩ := (anyHeld_iff e).1 hn
    exact hi (h i)
  unfold clearAllCue
  rw [hheld, if_neg Bool.false_ne_true]
  generalize eachLayer (clearAllLayer number) e = E
  cases hc : e.cyc.state <;> exact ⟨_, rfl, by simp, by simp, by simp⟩

/-- A voice that leaves a crossfade and is cleared holds its new stream alone. -/
theorem Voice.cleared_leaves (v : Voice) (len : Nat) (sp : SpliceRec) :
    ((v.leaves len sp).cleared).spl = Run.nil ∧ ((v.leaves len sp).cleared).store = Run.nil
      ∧ (v.spl.frames = [] → v.rs = .reading → ((v.leaves len sp).cleared).main = v.main) := by
  have hleft : (v.leaves len sp).spl = Run.nil ∧ (v.leaves len sp).store = Run.nil ∧ (v.leaves len sp).rs = v.rs
      ∧ (v.spl.frames = [] → (v.leaves len sp).main = v.main) := by
    obtain ⟨-, h⟩ | ⟨-, h⟩ := Voice.leaves_cases len sp v
    · rw [h]
      exact ⟨rfl, rfl, rfl, mergeStreams_without⟩
    · rw [h]
      exact ⟨rfl, rfl, rfl, fun _ => rfl⟩
  obtain ⟨hspl, hstore, hrs, hmain⟩ := hleft
  unfold Voice.cleared
  rw [hrs]
  by_cases hr : v.rs = .reading
  · rw [if_pos hr]
    exact ⟨hspl, hstore, fun hnil _ => hmain hnil⟩
  · rw [if_neg hr]
    exact ⟨rfl, rfl, fun _ hread => absurd hread hr⟩

theorem Voice.cleared_spl {v : Voice} (h : v.spl = Run.nil) : v.cleared.spl = Run.nil := by
  unfold Voice.cleared
  split
  · exact h
  · rfl

/-- A sum over the layers of a list that is in ascending order, those that a predicate takes. -/
theorem layerIxs_sum_filter (p : LayerIx → Bool) (f : LayerIx → Nat) :
    ((layerIxs.filter p).map f).sum = ∑ i : LayerIx, if p i then f i else 0 := by
  have hlist : ∀ ls : List LayerIx, ((ls.filter p).map f).sum = (ls.map fun i => if p i then f i else 0).sum := fun ls => by
    induction ls with
    | nil => rfl
    | cons i rest ih => cases hi : p i <;> simp [hi, ih]
  rw [hlist, Fin.sum_univ_def]
  rfl

theorem layerIx_decide_mem (e : Engine) :
    (fun v : LayerIx => decide (v ∈ e.occupied)) = fun v => decide ¬e.layers[v].state = .empty := by
  funext v
  rw [Bool.eq_iff_iff, decide_eq_true_eq, decide_eq_true_eq, e.mem_occupied]

end Sys2Proof.Machine

namespace Sys2Proof.Settled
open Sys2Proof.Machine

/-- Settles O49: the emptied layer, the return to UNSET when none is left, and CLEAR_ALL layer by layer. -/
theorem clearCues : Obligations.ClearCues := by
  intro s c before after h unset fades released ran did rests unsets
  have hdone : ∀ {a : Machine.Action} {want i t}, c.action = a → exec i s = cueRow want s → want a = true → a.lane? = none →
      actOn c (s.dequeued before after) = (t, none) → exec i s = .next (s.cueDone c t) := fun ha hi hw hl hr =>
    hi.trans (cueRow_done h (ha ▸ hw) (fun k hk => by rw [ha, hl] at hk; cases hk) hr)
  have hunset : unset = s.eng.cyc.unset := rfl
  have hfades : fades = Voice.cleared := rfl
  clear_value unset fades
  refine ⟨fun l ha ht hh hne => ?clear, fun l ha ht hh hem hb hstay => ?stays, fun l ha ht hh hb hall hran => ?returns,
    fun ha hh => ?all⟩
  case stays =>
    refine hdone ha rfl rfl rfl ?_
    simp only [actOn, ha, ht]
    refine (if_neg (fun hn => hn hh)).trans (congrArg done ?_)
    refine (clearLayer_empty (e := s.dequeued before after) hem hb).trans (unsetIfEmpty_stays (e := s.dequeued before after) ?_)
    exact hstay.imp (fun h => h) (fun hu hr => by rcases hr with hr | hr <;> exact absurd (hu.symm.trans hr) (by decide))
  case returns =>
    have hcue : actOn c (s.dequeued before after) = (returnToUnset (s.dequeued before after), none) := by
      simp only [actOn, ha, ht]
      refine (if_neg (fun hn => hn hh)).trans (congrArg done ?_)
      exact (clearLayer_empty (e := s.dequeued before after) (hall l) hb).trans
        (unsetIfEmpty_returns (e := s.dequeued before after) hran hall)
    obtain ⟨window, heard, voices, hret, hvoices⟩ := returnToUnset_eq (s.dequeued before after)
    generalize returnToUnset (s.dequeued before after) = T at hcue hret
    have hlayers : T.layers = s.eng.layers := by rw [hret]; rfl
    have heng : (s.cueDone c T).eng = T.reports did := cueDone_ungranted fun l => .inr (by rw [hlayers]; exact hall l)
    refine ⟨_, hdone ha rfl rfl rfl hcue, cueDone_cyc.trans (by rw [hret, hunset]; rfl), cueDone_fol.trans (by rw [hret]; rfl),
      ?_, cueDone_slots.trans (by rw [hret]; rfl), cueDone_mem.trans (by rw [hret]; rfl), fun i => ?_, ?_, ?_, ?_⟩
    · rw [heng]
      exact hlayers
    · obtain ⟨len, hi⟩ := hvoices i
      rw [cueDone_voices, show T.voices = voices by rw [hret], hi]
      exact Voice.left_quits _ _ _ _
    · rw [heng, hret]
      simp only [unsets, Engine.reports, Cycle.unset]
      refine (told_append _ 0 0 _ [did]).symm.trans ?_
      rw [List.append_assoc]
      rfl
    · rw [cueDone_cues, hret]
      rfl
    · exact cueDone_frame (by rw [hret]; rfl) (by rw [hret]; rfl) (by rw [hret]; rfl) (by rw [hret]; rfl)
        (by rw [hret]; rfl) (by rw [hret]; rfl) (by rw [hret]; rfl)
  case clear =>
    intro r other others gone
    obtain ⟨hrest, hfree, hage, hjobs, hslots⟩ := emptyLayer_spec l .cue c.number (s.dequeued before after)
    have hbase := clearLayer_base (e := s.dequeued before after) (number := c.number) hne
    have hother := clearLayer_other (e := s.dequeued before after) (number := c.number) hne
    have hcue : actOn c (s.dequeued before after) = (clearLayer c.number l (s.dequeued before after), none) := by
      simp only [actOn, ha, ht]
      exact if_neg (fun hn => hn hh)
    generalize clearLayer c.number l (s.dequeued before after) = T at hbase hother hcue
    generalize emptyLayer l .cue c.number (s.dequeued before after) = E at hrest hfree hage hjobs hslots hbase hother
    have hElayers : E.layers = upd s.eng.layers l fun r => r.emptied s.eng.cyc.k := by rw [hrest]; rfl
    have hEl : E.layers[l] = r.emptied s.eng.cyc.k := by rw [hElayers]; exact upd_self s.eng.layers l _
    have hEi : ∀ i : LayerIx, i ≠ l → E.layers[i] = s.eng.layers[i] := fun i hi => by
      rw [hElayers]
      exact upd_other s.eng.layers l i _ (Ne.symm hi)
    have hEcyc : E.cyc = { s.eng.cyc with splice := s.eng.cyc.splice.without (· == l) } := by rw [hrest]; rfl
    have hEvoices : E.voices = upd s.eng.voices l fun v =>
        (v.left (layerLen (s.dequeued before after) l) l s.eng.cyc.splice).cleared := by rw [hrest]; rfl
    have hEfol : E.fol = s.eng.fol := by rw [hrest]; rfl
    have hEevq : E.evq = s.eng.evq.told s.eng.cyc.k s.eng.cyc.p [.layerState l .empty .cue c.number] := by rw [hrest]; rfl
    have hstays : other → others ∨ ¬ran → T = E := fun ho hs => by
      refine (hother ho).trans (unsetIfEmpty_stays ?_)
      refine hs.imp (fun ⟨i, hi, hst⟩ => ⟨i, by rw [hEi i hi]; exact hst⟩) fun hn => ?_
      rw [hEcyc]
      exact hn
    have hallE : ¬others → ∀ i : LayerIx, E.layers[i].state = .empty := fun hn i => by
      by_cases hi : i = l
      · rw [hi, hEl]
        rfl
      · rw [hEi i hi]
        exact not_not.1 fun hst => hn ⟨i, hi, hst⟩
    have hreturns : other → ¬others → ran → T = returnToUnset E := fun ho hn hr =>
      (hother ho).trans (unsetIfEmpty_returns (by rw [hEcyc]; exact hr) (hallE hn))
    obtain ⟨w1, h1, hleave⟩ := leaveBase_eq E
    obtain ⟨w2, h2, voices, hret, hvoices⟩ := returnToUnset_eq E
    have hcommon : T = { E with
        cyc := T.cyc, fol := T.fol, mix := { E.mix with window := T.mix.window }, voices := T.voices, evq := T.evq
        heard := T.heard } := by
      by_cases ho : other
      · by_cases hs : others ∨ ¬ran
        · rw [hstays ho hs]
        · obtain ⟨hno, hran⟩ := not_or.1 hs
          rw [hreturns ho hno (not_not.1 hran), hret]
      · rw [hbase (not_not.1 ho), hleave]
    have hTlayers : T.layers = E.layers := by rw [hcommon]
    have hTslots : T.slots = E.slots := by rw [hcommon]
    have hTmem : T.mem = E.mem := by rw [hcommon]
    have hTl : T.layers[l] = r.emptied s.eng.cyc.k := by rw [hTlayers, hEl]
    refine ⟨_, hdone ha rfl rfl rfl hcue, ?_, ?_, ?_, ?_, fun i hi => ?_, fun i => ?_, fun i hi => ?_, fun i hi => ?_, ?_, ?_,
      ?_, ?_, ?_, ?_, ?_, ?_, ⟨?_, ?_, ?_⟩, ?_, ?_⟩
    · exact (cueDone_layer_kept (by rw [hTl]; nofun)).trans hTl
    · rw [cueDone_mem, hTmem]
      exact hfree
    · rw [cueDone_mem, hTmem]
      exact hage
    · rw [cueDone_mem, hTmem]
      exact hjobs
    · exact cueDone_layer_of (by rw [hTlayers, hEi i hi])
    · rw [cueDone_slots, hTslots, hslots i]
      rfl
    · show (s.cueDone c T).eng.slots[i] = (s.cueDone c T).eng.slots[i].released
      rw [cueDone_slots, hTslots, hslots i, if_pos (by exact hi)]
      rfl
    · rw [cueDone_slots, hTslots, hslots i, if_neg (by exact hi)]
      rfl
    · intro hsp
      have hEsp : E.cyc.splice = .idle := by rw [hEcyc, hsp]; rfl
      have hTE : T.voices = E.voices := by
        by_cases ho : other
        · by_cases hs : others ∨ ¬ran
          · rw [hstays ho hs]
          · obtain ⟨hno, hran⟩ := not_or.1 hs
            rw [hreturns ho hno (not_not.1 hran), hret]
            refine Vector.ext fun j hj => ?_
            obtain ⟨len, hi⟩ := hvoices ⟨j, hj⟩
            refine hi.trans ?_
            rw [hEsp]
            rfl
        · rw [hbase (not_not.1 ho), hleave]
      rw [cueDone_voices, hTE, hEvoices, hsp, hfades]
      rfl
    · intro hsp ho hs
      rw [cueDone_cyc, hstays ho hs, hEcyc, hsp, Splice.without_idle, ← hsp]
    · intro ho hn hr
      rw [cueDone_cyc, cueDone_fol, hreturns ho hn hr, hret, hEcyc, hEfol, hunset]
      exact ⟨rfl, rfl⟩
    · intro ho hs
      rw [cueDone_fol, hstays ho hs, hEfol]
    · intro hb hc hsp
      rw [cueDone_cyc, cueDone_fol, hbase hb, hleave, hEcyc, hEfol, hsp, Splice.without_idle, ← hsp]
      exact ⟨rfl, rfl⟩
    · intro sp ho hs hsp hl
      rw [cueDone_cyc, cueDone_voices, hstays ho (.inl hs), hEcyc, hEvoices, hsp, hfades]
      refine ⟨rfl, ?_⟩
      refine congrArg (upd s.eng.voices l) (funext fun v => congrArg Voice.cleared ?_)
      exact if_pos hl
    · intro sp ho hs hsp hl
      have hVl : E.voices[l] = ((s.eng.voices[l]).leaves (layerLen (s.dequeued before after) l) sp).cleared := by
        rw [hEvoices, hsp]
        refine (upd_self s.eng.voices l _).trans (congrArg Voice.cleared ?_)
        exact if_pos hl
      rw [cueDone_cyc, cueDone_voices, hstays ho (.inl hs), hVl]
      refine ⟨?_, fun i hi => ?_, ?_⟩
      · rw [hEcyc, hsp]
        rfl
      · rw [hEvoices]
        exact upd_other s.eng.voices l i _ (Ne.symm hi)
      · exact Voice.cleared_leaves _ _ _
    · intro sp ho hn hr hsp v hv
      rw [cueDone_voices, hreturns ho hn hr, hret]
      obtain ⟨len, hi⟩ := hvoices v
      dsimp only
      rw [hi, hEcyc, hsp]
      by_cases hvl : v = l
      · subst hvl
        refine (congrArg Voice.spl (Voice.left_gone (gone := fun x => x == v) (beq_self_eq_true v) E.voices[v] len (.fetching sp))).trans ?_
        rw [hEvoices, hsp]
        rw [show (upd s.eng.voices v fun x =>
            (x.left (layerLen (s.dequeued before after) v) v (.fetching sp)).cleared)[v] = _ from upd_self s.eng.voices v _]
        exact Voice.cleared_spl (congrArg Voice.spl (if_pos hv))
      · refine (congrArg Voice.spl (Voice.left_without (gone := fun x => x == l) (beq_eq_false_iff_ne.2 hvl) E.voices[v] len (.fetching sp))).trans ?_
        exact congrArg Voice.spl (if_pos hv)
    · intro ho hs
      refine cueDone_tells (by rw [hstays ho hs, hEcyc]) (by rw [hstays ho hs, hEcyc])
        (events := [.layerState l .empty .cue c.number]) (by rw [hstays ho hs, hEevq]) rfl
    · intro ho hn hr
      have hT := hreturns ho hn hr
      have heng : (s.cueDone c T).eng = T.reports did :=
        cueDone_ungranted fun i => .inr (by rw [hTlayers]; exact hallE hn i)
      rw [heng, hT, hret]
      simp only [unsets, Engine.reports, Cycle.unset]
      refine (told_append _ 0 0 _ [did]).symm.trans ?_
      rw [hEevq, hEcyc, Splice.skips_without, hEfol, List.append_assoc]
      rfl
    · intro hb hc
      refine cueDone_tells (by rw [hbase hb, hleave, hEcyc]) (by rw [hbase hb, hleave, hEcyc])
        (events := [.layerState l .empty .cue c.number] ++ rests) ?_ rfl
      rw [hbase hb, hleave, hEevq, hEcyc, hEfol, told_append]
    · rw [cueDone_cues, hcommon, hrest]
      rfl
    · exact cueDone_frame (by rw [hcommon, hrest]; rfl) (by rw [hcommon, hrest]; rfl) (by rw [hTmem, hrest]; rfl)
        (by rw [hcommon, hrest]; rfl) (by rw [hcommon, hrest]; rfl) (by rw [hcommon, hrest]; rfl) (by rw [hcommon, hrest]; rfl)
  case all =>
    intro empty sp waits told
    obtain ⟨T, hcue', hran', hbase', hunset'⟩ := clearAllCue_eq (e := s.dequeued before after) c.number hh
    have hcue : actOn c (s.dequeued before after) = (T, none) := by
      simp only [actOn, ha]
      exact hcue'
    have hE := clearAll_emptied (s.dequeued before after) c.number
    generalize eachLayer (clearAllLayer c.number) (s.dequeued before after) = E at hE hran' hbase' hunset'
    obtain ⟨w1, h1, hleave⟩ := leaveBase_eq E
    obtain ⟨w2, h2, voices, hret, hvoices⟩ := returnToUnset_eq E
    have hmem : ∀ i, i ∈ (s.dequeued before after).occupied ↔ ¬empty i := (s.dequeued before after).mem_occupied
    have hcommon : T = { E with
        cyc := T.cyc, fol := T.fol, mix := { E.mix with window := T.mix.window }, voices := T.voices, evq := T.evq
        heard := T.heard } := by
      cases hc : s.eng.cyc.state with
      | unset => rw [hunset' hc]
      | baseCapture => rw [hbase' hc, hleave]
      | running => rw [hran' (.inl hc), hret]
      | paused => rw [hran' (.inr hc), hret]
    have hTlayers : T.layers = E.layers := by rw [hcommon]
    have hTslots : T.slots = E.slots := by rw [hcommon]
    have hTmem : T.mem = E.mem := by rw [hcommon]
    have hEempty : ∀ i, empty i → E.layers[i] = s.eng.layers[i] := fun i hi =>
      (hE.layer i).trans (if_neg fun hm => (hmem i).1 hm hi)
    have hEfull : ∀ i, ¬empty i → E.layers[i]
        = { (s.eng.layers[i]).emptied s.eng.cyc.k with state := (s.dequeued before after).clearedState i } := fun i hi =>
      (hE.layer i).trans (if_pos ((hmem i).2 hi))
    have hheld : ∀ i : LayerIx, T.layers[i].hold ≠ .pending := fun i => by
      rw [hTlayers]
      by_cases hi : empty i
      · rw [hEempty i hi, hh i]
        nofun
      · rw [hEfull i hi]
        nofun
    have heng : (s.cueDone c T).eng = T.reports did := cueDone_ungranted fun i => .inl (hheld i)
    have hlayer : ∀ i : LayerIx, (s.cueDone c T).eng.layers[i] = E.layers[i] := fun i => by rw [heng, ← hTlayers]; rfl
    have hwaits : ∀ i, (s.dequeued before after).clearedState i = if waits i then .armed else .empty := fun i => by
      unfold Engine.clearedState
      rw [recordPending_eq]
      rfl
    have hsplice : E.cyc = { s.eng.cyc with splice := sp.without fun i => decide ¬empty i } := by
      rw [hE.rest, layerIx_decide_mem]
      rfl
    have hEevq : E.evq = s.eng.evq.told s.eng.cyc.k s.eng.cyc.p told := by
      rw [hE.rest]
      exact congrArg (EventQueue.told s.eng.evq s.eng.cyc.k s.eng.cyc.p)
        (List.map_congr_left fun i _ => congrArg (Event.layerState i · .cue c.number) (hwaits i))
    have hEfol : E.fol = s.eng.fol := by rw [hE.rest]; rfl
    have hEvoice : ∀ i, empty i → E.voices[i] = s.eng.voices[i] := fun i hi =>
      (hE.voice i).trans (if_neg fun hm => (hmem i).1 hm hi)
    have hEfaded : ∀ i, ¬empty i → E.voices[i] = ((s.eng.voices[i]).left (layerLen (s.dequeued before after) i) i sp).cleared :=
      fun i hi => (hE.voice i).trans (if_pos ((hmem i).2 hi))
    have hTquiet : ¬ran → T.voices = E.voices := fun hn => by
      cases hc : s.eng.cyc.state with
      | unset => rw [hunset' hc]
      | baseCapture => rw [hbase' hc, hleave]
      | running => exact absurd (.inl hc) hn
      | paused => exact absurd (.inr hc) hn
    have hTran : ran → ∀ i : LayerIx, ∃ len,
        T.voices[i] = (E.voices[i]).left len i (sp.without fun i => decide ¬empty i) := fun hr i => by
      obtain ⟨len, hi⟩ := hvoices i
      refine ⟨len, ?_⟩
      rw [hran' hr, hret]
      refine hi.trans ?_
      rw [hsplice]
    refine ⟨_, hdone ha rfl rfl rfl hcue, fun i hi => ⟨?_, fun hr => ?_, fun hn => ?_⟩, fun i hi => ⟨fun hw => ?_, fun hw => ?_, ?_⟩,
      fun pg => ?_, ?_, ?_, fun i hi => ?_, fun i hi => ?_, fun i en hen => ?_, fun hr => ⟨?_, ?_, ?_⟩, ⟨fun hc => ⟨?_, ?_, ?_⟩,
      fun hc => ⟨?_, ?_, ?_⟩⟩, ?_, ?_⟩
    · rw [hlayer, hEempty i hi]
    · obtain ⟨len, hlen⟩ := hTran hr i
      rw [cueDone_voices, hlen, hEvoice i hi]
      refine (congrArg (Voice.quits · s.eng.voices[i] i sp)
        (Voice.left_without (gone := fun i => decide ¬empty i) (decide_eq_false fun hn => hn hi) _ _ _)).mpr ?_
      exact Voice.left_quits _ _ _ _
    · rw [cueDone_voices, hTquiet hn, hEvoice i hi]
    · rw [hlayer, hEfull i hi, hwaits, hw]
      rfl
    · rw [hlayer, hEfull i hi, hwaits, hw]
      rfl
    · refine ⟨_, Voice.left_quits (s.eng.voices[i]) (layerLen (s.dequeued before after) i) i sp, ?_⟩
      rw [cueDone_voices, hfades, ← hEfaded i hi]
      by_cases hr : ran
      · obtain ⟨len, hlen⟩ := hTran hr i
        rw [hlen]
        exact Voice.left_gone (gone := fun i => decide ¬empty i) (decide_eq_true hi) _ _ _
      · rw [hTquiet hr]
    · rw [cueDone_mem, hTmem, hE.free pg]
      refine congrArg (s.eng.mem.free.count pg + ·) ((layerIxs_sum_filter _ _).trans (Finset.sum_congr rfl fun i _ => ?_))
      by_cases hi : empty i
      · rw [if_pos hi]
        exact if_neg fun hb => (bne_iff_ne.1 hb) hi
      · rw [if_neg hi]
        exact if_pos (bne_iff_ne.2 hi)
    · rw [cueDone_mem, hTmem, hE.age]
      exact List.filter_congr fun g _ => decide_eq_decide.2 (not_iff_comm.1 (hmem g.1).symm)
    · rw [cueDone_mem, hTmem, hE.jobs]
      exact List.filter_congr fun j _ => decide_eq_decide.2 (not_iff_comm.1 (hmem j.layer).symm)
    · obtain ⟨l, hl, hsl⟩ := hi
      show (s.cueDone c T).eng.slots[i] = (s.cueDone c T).eng.slots[i].released
      rw [cueDone_slots, hTslots]
      exact hE.released i l ((hmem l).2 hl) hsl
    · rw [cueDone_slots, hTslots]
      exact hE.kept i fun l hl => hi l ((hmem l).1 hl)
    · rw [cueDone_slots, hTslots] at hen
      exact hE.staged i en hen
    · rw [cueDone_cyc, hran' hr, hret, hsplice, hunset]
      rfl
    · rw [cueDone_fol, hran' hr, hret, hEfol]
    · rw [heng, hran' hr, hret]
      simp only [unsets, Engine.reports, Cycle.unset]
      refine (told_append _ 0 0 _ [did]).symm.trans ?_
      rw [hEevq, hsplice, Splice.skips_without, hEfol, List.append_assoc]
      rfl
    · rw [cueDone_fol, hbase' hc, hleave, hEfol]
    · rw [cueDone_cyc, hbase' hc, hleave, hsplice]
    · rw [heng, hbase' hc, hleave]
      simp only [Engine.reports]
      rw [hEevq, hsplice, hEfol, ← told_append]
      exact (told_append _ _ _ (told ++ rests) [did]).symm
    · rw [cueDone_fol, hunset' hc, hEfol]
    · rw [cueDone_cyc, hunset' hc, hsplice]
    · rw [heng, hunset' hc]
      simp only [Engine.reports]
      rw [hEevq, hsplice]
      exact (told_append _ _ _ told [did]).symm
    · rw [cueDone_cues, hcommon, hE.rest]
      rfl
    · exact cueDone_frame (by rw [hcommon, hE.rest]; rfl) (by rw [hcommon, hE.rest]; rfl) (by rw [hTmem, hE.rest]; rfl)
        (by rw [hcommon, hE.rest]; rfl) (by rw [hcommon, hE.rest]; rfl) (by rw [hcommon, hE.rest]; rfl)
        (by rw [hcommon, hE.rest]; rfl)

end Sys2Proof.Settled
end

section
/-! STOP_ALL, PLAY_ALL, PAUSE and RESUME: what a cue does to every layer in turn (R50 to R52, R78, R92). -/

set_option Elab.async false

namespace Sys2Proof.Machine

/-! ## A cue that acts on the layers one after another -/

/-- The slots once the slot of a layer has closed its gap run and is released. -/
def Engine.endedSlots (e : Engine) (l : LayerIx) : Vector Slot 2 :=
  match e.layers[l].slot with
  | some i => upd e.slots i fun sl => (closeTail sl).released
  | none => e.slots

theorem Engine.endedSlots_some {e : Engine} {l : LayerIx} {i : SlotIx} (h : e.layers[l].slot = some i) :
    e.endedSlots l = upd e.slots i fun sl => (closeTail sl).released := by
  rw [Engine.endedSlots, h]

theorem Engine.endedSlots_none {e : Engine} {l : LayerIx} (h : e.layers[l].slot = none) : e.endedSlots l = e.slots := by
  rw [Engine.endedSlots, h]

/-- What a cue for all layers leaves of each layer it takes, and of what belongs to that layer. -/
structure LayerEnd where
  state : LayerState
  layer : LayerIx → Layer
  voice : LayerIx → Voice
  frees : LayerIx → Bool
  idles : LayerIx → Bool
  jobs : LayerIx → List Job
  leaves : LayerIx → Bool

/-- The engine `t` as the cue leaves it when it has taken the layer `l` of it. -/
def LayerEnd.acts (p : LayerEnd) (number : Nat) (l : LayerIx) (t : Engine) : Engine :=
  { t with
    layers := upd t.layers l fun _ => p.layer l
    slots := if p.frees l then t.endedSlots l else t.slots
    cyc := { t.cyc with splice := t.cyc.splice.without fun v => v == l && p.leaves l }
    voices := upd t.voices l fun _ => p.voice l
    mem := { t.mem.without fun v => v == l && p.idles l with jobs := t.mem.jobs ++ p.jobs l }
    evq := t.evq.told t.cyc.k t.cyc.p (t.layerEnds number p.state l) }

/-- Each layer that holds a slot holds one that no other layer names. -/
def Engine.slotsApart (e : Engine) : Prop :=
  ∀ i j : LayerIx, i ≠ j → e.layers[i].slot ≠ none → e.layers[i].slot ≠ e.layers[j].slot

/-- The engine `t` is `e` once a cue has taken the layers of a list. -/
structure Ended (e : Engine) (p : LayerEnd) (number : Nat) (seen : List LayerIx) (t : Engine) : Prop where
  rest : t = { e with
    layers := t.layers, slots := t.slots, voices := t.voices, evq := t.evq
    cyc := { e.cyc with splice := e.cyc.splice.without fun v => decide (v ∈ seen) && p.leaves v }
    mem := { e.mem.without fun v => decide (v ∈ seen) && p.idles v with jobs := e.mem.jobs ++ seen.flatMap p.jobs } }
  layer : ∀ i : LayerIx, t.layers[i] = if i ∈ seen then p.layer i else e.layers[i]
  voice : ∀ i : LayerIx, t.voices[i] = if i ∈ seen then p.voice i else e.voices[i]
  released : ∀ i ∈ seen, ∀ sl : SlotIx, p.frees i = true → e.layers[i].slot = some sl → t.slots[sl] = (t.slots[sl]).released
  kept : ∀ sl : SlotIx, (∀ i ∈ seen, p.frees i = true → e.layers[i].slot ≠ some sl) → t.slots[sl] = e.slots[sl]
  told : (e.slotsApart ∨ ∀ i, p.frees i = false) → t.evq = e.evq.told e.cyc.k e.cyc.p (seen.flatMap (e.layerEnds number p.state))

theorem Splice.without_nobody {gone : LayerIx → Bool} (h : ∀ v, gone v = false) (sp : Splice) : sp.without gone = sp := by
  have hf : ∀ vs : List LayerIx, vs.filter (fun v => !gone v) = vs := fun vs =>
    List.filter_eq_self.2 fun v _ => by rw [h v]; rfl
  cases sp with
  | idle => rfl
  | fetching r => rw [Splice.without, hf]
  | crossfading r => rw [Splice.without, hf]

theorem without_twice (mem : LoopMem) (g h : LayerIx → Bool) :
    (mem.without g).without h = mem.without fun v => g v || h v := by
  unfold LoopMem.without
  rw [Option.map_map]
  refine congrArg (fun g => { mem with grant := g }) (congrArg (Option.map · mem.grant) (funext fun gr => ?_))
  obtain ⟨who, cls, layer, key, write, first, count, left, cancelled⟩ := gr
  cases who with
  | voice v => by_cases hg : g v <;> by_cases hh : h v <;> simp [hg, hh]
  | _ => rfl

/-- The jobs of a memory play no part in what a withdrawn refill leaves of it. -/
theorem without_jobs (mem : LoopMem) (g : LayerIx → Bool) (jobs : List Job) :
    ({ mem with jobs := jobs } : LoopMem).without g = { mem.without g with jobs := jobs } := rfl

theorem decide_mem_append_singleton {seen : List LayerIx} {l : LayerIx} (f : LayerIx → Bool) :
    (fun v => decide (v ∈ seen ++ [l]) && f v) = fun v => decide (v ∈ seen) && f v || v == l && f l := by
  funext v
  by_cases hv : v = l
  · subst hv
    by_cases hs : v ∈ seen <;> simp [hs]
  · simp [hv]

theorem Ended.start (e : Engine) (p : LayerEnd) (number : Nat) : Ended e p number [] e where
  rest := by
    rw [Splice.without_nobody fun v => by simp, without_none e.mem fun v => by simp, List.flatMap_nil, List.append_nil]
  layer := fun i => (if_neg List.not_mem_nil).symm
  voice := fun i => (if_neg List.not_mem_nil).symm
  released := fun i h => absurd h List.not_mem_nil
  kept := fun i _ => rfl
  told := fun _ => rfl

section
variable {e t : Engine} {p : LayerEnd} {number : Nat} {seen : List LayerIx} {l : LayerIx}

theorem Ended.layer_kept (h : Ended e p number seen t) (hl : l ∉ seen) : t.layers[l] = e.layers[l] :=
  (h.layer l).trans (if_neg hl)

theorem Ended.voice_kept (h : Ended e p number seen t) (hl : l ∉ seen) : t.voices[l] = e.voices[l] :=
  (h.voice l).trans (if_neg hl)

theorem Ended.cyc (h : Ended e p number seen t) :
    t.cyc = { e.cyc with splice := e.cyc.splice.without fun v => decide (v ∈ seen) && p.leaves v } := by rw [h.rest]

theorem Ended.mem (h : Ended e p number seen t) : t.mem = { e.mem.without fun v => decide (v ∈ seen) && p.idles v with
    jobs := e.mem.jobs ++ seen.flatMap p.jobs } := by rw [h.rest]

theorem Ended.cyc_kept (h : Ended e p number seen t) (hno : ∀ v, p.leaves v = false) : t.cyc = e.cyc := by
  rw [h.cyc, Splice.without_nobody (gone := fun v => decide (v ∈ seen) && p.leaves v) fun v => by rw [hno, Bool.and_false]]

theorem Ended.mem_kept (h : Ended e p number seen t) (hidles : ∀ v, p.idles v = false) (hjobs : ∀ v, p.jobs v = []) :
    t.mem = e.mem := by
  rw [h.mem, without_none e.mem (gone := fun v => decide (v ∈ seen) && p.idles v) fun v => by rw [hidles, Bool.and_false],
    List.flatMap_eq_nil_iff.2 fun i _ => hjobs i, List.append_nil]

/-- A layer not yet taken has a job exactly when it had one at first. -/
theorem Ended.jobless (h : Ended e p number seen t) (hl : l ∉ seen) (hj : ∀ i, ∀ j ∈ p.jobs i, j.layer = i) :
    (t.mem.jobs.all fun j => j.layer != l) = e.mem.jobs.all fun j => j.layer != l := by
  have hnew : ((seen.flatMap p.jobs).all fun j => j.layer != l) = true := List.all_eq_true.2 fun j hm => by
    obtain ⟨i, hi, hji⟩ := List.mem_flatMap.1 hm
    rw [hj i j hji]
    exact bne_iff_ne.2 fun heq => hl (heq ▸ hi)
  rw [h.mem, List.all_append, hnew, Bool.and_true]

theorem Ended.next (h : Ended e p number seen t) (hl : l ∉ seen) : Ended e p number (seen ++ [l]) (p.acts number l t) := by
  have htl := h.layer_kept hl
  have hseen : ∀ i, i ∈ seen ++ [l] ↔ i ∈ seen ∨ i = l := fun i => by simp
  have hend : ∀ sl : SlotIx, (p.acts number l t).slots[sl]
      = if p.frees l = true ∧ e.layers[l].slot = some sl then (closeTail t.slots[sl]).released else t.slots[sl] := fun sl => by
    show (if p.frees l then t.endedSlots l else t.slots)[sl] = _
    cases hf : p.frees l with
    | false => rw [if_neg Bool.false_ne_true, if_neg (fun hn => Bool.false_ne_true hn.1)]
    | true =>
      rw [if_pos rfl]
      cases hs : e.layers[l].slot with
      | none => rw [Engine.endedSlots_none (by rw [htl, hs]), if_neg (by simp)]
      | some i =>
        rw [Engine.endedSlots_some (by rw [htl, hs])]
        by_cases hi : i = sl
        · subst hi
          rw [if_pos ⟨rfl, rfl⟩]
          exact upd_self t.slots i _
        · rw [if_neg (fun hn => hi (Option.some.inj hn.2))]
          exact upd_other t.slots i sl _ hi
  refine ⟨?_, fun i => ?_, fun i => ?_, fun i hi sl hf hs => ?_, fun sl hs => ?_, fun hapart => ?_⟩
  · have hsp : (e.cyc.splice.without fun v => decide (v ∈ seen) && p.leaves v).without (fun v => v == l && p.leaves l)
        = e.cyc.splice.without fun v => decide (v ∈ seen ++ [l]) && p.leaves v := by
      rw [Splice.without_without, decide_mem_append_singleton]
    have hmem : (e.mem.without fun v => decide (v ∈ seen) && p.idles v).without (fun v => v == l && p.idles l)
        = e.mem.without fun v => decide (v ∈ seen ++ [l]) && p.idles v := by
      rw [without_twice, decide_mem_append_singleton]
    refine (congrArg (fun T : Engine => ({ T with
        layers := (p.acts number l t).layers, slots := (p.acts number l t).slots, voices := (p.acts number l t).voices
        evq := (p.acts number l t).evq
        cyc := { T.cyc with splice := T.cyc.splice.without fun v => v == l && p.leaves l }
        mem := { T.mem.without fun v => v == l && p.idles l with jobs := T.mem.jobs ++ p.jobs l } } : Engine)) h.rest).trans ?_
    dsimp only
    rw [hsp, without_jobs, hmem, List.flatMap_append, List.append_assoc, List.flatMap_singleton]
  · by_cases hi : i = l
    · subst hi
      rw [if_pos ((hseen i).2 (.inr rfl))]
      exact upd_self t.layers i _
    · rw [if_congr ((hseen i).trans (or_iff_left hi)) rfl rfl]
      exact (upd_other t.layers l i _ (Ne.symm hi)).trans (h.layer i)
  · by_cases hi : i = l
    · subst hi
      rw [if_pos ((hseen i).2 (.inr rfl))]
      exact upd_self t.voices i _
    · rw [if_congr ((hseen i).trans (or_iff_left hi)) rfl rfl]
      exact (upd_other t.voices l i _ (Ne.symm hi)).trans (h.voice i)
  · rw [hend]
    split
    next => rfl
    next hn =>
      rcases (hseen i).1 hi with hi | rfl
      · exact h.released i hi sl hf hs
      · exact absurd ⟨hf, hs⟩ hn
  · rw [hend, if_neg fun hn => hs l ((hseen l).2 (.inr rfl)) hn.1 hn.2]
    exact h.kept sl fun i hi => hs i ((hseen i).2 (.inl hi))
  · have hown : t.layerEnds number p.state l = e.layerEnds number p.state l := by
      unfold Engine.layerEnds
      rw [htl]
      cases hs : e.layers[l].slot with
      | none => rfl
      | some i =>
        have hi : t.slots[i] = e.slots[i] := h.kept i fun j hj hf hsj => by
          have hjl : l ≠ j := fun heq => hl (heq ▸ hj)
          rcases hapart with hapart | hno
          · exact hapart l j hjl (by rw [hs]; nofun) (hs.trans hsj.symm)
          · rw [hno] at hf
            cases hf
        have hgap : t.gapOf i = e.gapOf i := by
          unfold Engine.gapOf
          exact congrArg (fun x => match openGap x with | some n => [Event.captureGap i n] | none => []) hi
        dsimp only
        rw [hgap]
    show t.evq.told t.cyc.k t.cyc.p (t.layerEnds number p.state l) = _
    rw [hown, h.told hapart, h.cyc, ← told_append, List.flatMap_append, List.flatMap_singleton]

/-- A cue that takes some of the layers in ascending order, and leaves the others alone. -/
theorem eachLayer_ended {f : LayerIx → Engine → Engine} {takes : LayerIx → Bool}
    (hacts : ∀ seen t l, Ended e p number seen t → l ∉ seen → takes l = true → f l t = p.acts number l t)
    (hkeeps : ∀ seen t l, Ended e p number seen t → l ∉ seen → takes l = false → f l t = t) :
    Ended e p number (layerIxs.filter takes) (eachLayer f e) := by
  have hfold : ∀ (ls seen : List LayerIx) (t : Engine), (seen ++ ls).Nodup → Ended e p number seen t →
      Ended e p number (seen ++ ls.filter takes) (ls.foldl (fun t l => f l t) t) := fun ls => by
    induction ls with
    | nil => intro seen t _ h; rwa [List.filter_nil, List.append_nil]
    | cons l rest ih =>
      intro seen t hn h
      have hl : l ∉ seen := fun hm => (List.nodup_append.1 hn).2.2 l hm l List.mem_cons_self rfl
      rw [List.foldl_cons]
      cases ht : takes l with
      | false =>
        rw [hkeeps seen t l h hl ht, List.filter_cons_of_neg (by rw [ht]; decide)]
        exact ih seen t (hn.sublist (by simp)) h
      | true =>
        rw [hacts seen t l h hl ht, List.filter_cons_of_pos ht]
        have := ih (seen ++ [l]) _ (by rwa [List.append_assoc]) (h.next hl)
        rwa [List.append_assoc] at this
  exact hfold layerIxs [] e layerIxs_nodup (Ended.start e p number)

end

theorem mem_filter_layerIxs {takes : LayerIx → Bool} {i : LayerIx} : i ∈ layerIxs.filter takes ↔ takes i = true := by
  rw [List.mem_filter]
  exact and_iff_right (mem_layerIxs i)

/-- The jobs that the layers of a list queue, one each where it has one. -/
theorem flatMap_filter_jobs {α β : Type} {takes has : α → Bool} (f : α → β) (h : ∀ i, has i = true → takes i = true)
    (ls : List α) : (ls.filter takes).flatMap (fun i => if has i then [f i] else []) = (ls.filter has).map f := by
  induction ls with
  | nil => rfl
  | cons i rest ih =>
    cases hh : has i with
    | true => simp [h i hh, hh, ih]
    | false => cases ht : takes i <;> simp [ht, hh, ih]

/-! ## STOP_ALL and PLAY_ALL -/

/-- What a cue that acts on the layers leaves depends, for each, on what it does to that layer. -/
theorem LayerEnd.acts_congr {p q : LayerEnd} {l : LayerIx} (hstate : p.state = q.state) (hlayer : p.layer l = q.layer l)
    (hvoice : p.voice l = q.voice l) (hfrees : p.frees l = q.frees l) (hidles : p.idles l = q.idles l)
    (hjobs : p.jobs l = q.jobs l) (hleaves : p.leaves l = q.leaves l) (number : Nat) (t : Engine) :
    p.acts number l t = q.acts number l t := by
  simp only [LayerEnd.acts, hstate, hlayer, hvoice, hfrees, hidles, hjobs, hleaves]

/-- The layers that a STOP_ALL takes: they stop, an overdub giving up its slot. -/
def Engine.stopped (e : Engine) : LayerEnd where
  state := .stopped
  layer := fun i => { e.layers[i] with
    state := .stopped, slot := if e.layers[i].state = .overdubbing then none else e.layers[i].slot, lastChange := e.cyc.k }
  voice := fun i =>
    if e.voices[i].idlesAtStop then Voice.reset else (e.voices[i]).left (layerLen e i) i e.cyc.splice
  frees := fun i => e.layers[i].state == .overdubbing
  idles := fun i => e.voices[i].idlesAtStop
  jobs := fun i => if e.layers[i].state == .overdubbing && e.leavesCopy i then [e.jobOf i .finishCopy] else []
  leaves := fun _ => true

theorem upd_value {α : Type} {n : Nat} (v : Vector α n) (i : Fin n) (f : α → α) : upd v i f = upd v i fun _ => f v[i] :=
  upd_congr v i _ _ rfl

theorem endOverdub_slotless {e : Engine} {l : LayerIx} (h : e.layers[l].slot = none) :
    endOverdub l e = { e with mem := { e.mem with jobs := e.mem.jobs ++ e.copyJobs l } } := by
  have hend : endSlot l e = e := by
    unfold endSlot
    rw [h]
  unfold endOverdub
  rw [hend]
  dsimp only
  unfold Engine.copyJobs Engine.leavesCopy
  cases hw : e.layers[l].written.isSome with
  | true => simp only [if_true, Bool.true_and, addJob_eq]
  | false => simp only [Bool.false_eq_true, if_false, Bool.false_and, List.append_nil]

theorem layerEnds_ending {e : Engine} {l : LayerIx} {i : SlotIx} (hs : e.layers[l].slot = some i)
    (h : e.layers[l].state = .overdubbing ∨ e.layers[l].state = .capturing) (n : Nat) (st : LayerState) :
    e.layerEnds n st l = e.gapOf i ++ [.layerState l st .cue n] := by
  unfold Engine.layerEnds
  rw [hs]
  exact congrArg (· ++ [Event.layerState l st .cue n]) (if_pos h)

theorem layerEnds_slotless {e : Engine} {l : LayerIx} (hs : e.layers[l].slot = none) (n : Nat) (st : LayerState) :
    e.layerEnds n st l = [.layerState l st .cue n] := by
  unfold Engine.layerEnds
  rw [hs]
  rfl

theorem layerEnds_steady {e : Engine} {l : LayerIx}
    (h : ¬(e.layers[l].state = .overdubbing ∨ e.layers[l].state = .capturing)) (n : Nat) (st : LayerState) :
    e.layerEnds n st l = [.layerState l st .cue n] := by
  cases hs : e.layers[l].slot with
  | none => exact layerEnds_slotless hs n st
  | some i =>
    unfold Engine.layerEnds
    rw [hs]
    exact congrArg (· ++ [Event.layerState l st .cue n]) (if_neg h)

theorem stopLayer_acts {e : Engine} {l : LayerIx} (h : sounding e l = true) (n : Nat) :
    stopLayer l n e = e.stopped.acts n l e := by
  have hvoices : (upd e.voices l fun v => if v.idlesAtStop then Voice.reset else v.left (layerLen e l) l e.cyc.splice)
      = upd e.voices l fun _ => e.stopped.voice l := upd_value e.voices l _
  have hsplice : (e.cyc.splice.without fun v => v == l && e.stopped.leaves l) = e.cyc.splice.without (· == l) :=
    congrArg (Splice.without · e.cyc.splice) (funext fun v => Bool.and_true _)
  unfold LayerEnd.acts
  rw [← hvoices, hsplice]
  by_cases ho : e.layers[l].state = .overdubbing
  · have hfrees : e.stopped.frees l = true := beq_iff_eq.2 ho
    have hjobs : e.stopped.jobs l = e.copyJobs l := by
      show (if e.stopped.frees l && e.leavesCopy l then _ else _) = _
      rw [hfrees, Bool.true_and]
      rfl
    have hlayer : e.stopped.layer l = { e.layers[l] with state := .stopped, slot := none, lastChange := e.cyc.k } := by
      show ({ e.layers[l] with state := _, slot := _, lastChange := _ } : Layer) = _
      rw [if_pos ho]
    rw [if_pos hfrees, hjobs, hlayer, ← upd_value e.layers l fun r =>
      { r with state := .stopped, slot := none, lastChange := e.cyc.k }]
    cases hs : e.layers[l].slot with
    | some i =>
      rw [stopLayer_overdubbing ho hs, Engine.endedSlots_some hs, layerEnds_ending hs (.inl ho)]
      rfl
    | none =>
      have hend : stopLayer l n e = stopVoice l (setLayerState l .stopped .cue n (endOverdub l e)) := by
        rw [stopLayer, endIfOverdubbing, if_pos ho]
      have hnone : (upd e.layers l fun r => { r with state := .stopped, lastChange := e.cyc.k })
          = upd e.layers l fun r => { r with state := .stopped, slot := none, lastChange := e.cyc.k } :=
        upd_congr e.layers l _ _ (congrArg (fun x => { e.layers[l] with
          state := LayerState.stopped, slot := x, lastChange := e.cyc.k }) hs)
      have hlen : layerLen (setLayerState l .stopped .cue n (endOverdub l e)) l = layerLen e l :=
        layerLen_of ((setLayerState_mult _ _ _ _ _).trans (by rw [endOverdub_slotless hs])) (by rw [endOverdub_slotless hs]; rfl)
      rw [hend, stopVoice_eq, hlen, endOverdub_slotless hs, Engine.endedSlots_none hs, layerEnds_slotless hs, ← hnone]
      rfl
  · have hfrees : ¬e.stopped.frees l = true := fun hf => ho (beq_iff_eq.1 hf)
    have hjobs : e.stopped.jobs l = [] := if_neg fun hb => hfrees (Bool.and_eq_true_iff.1 hb).1
    have hlayer : e.stopped.layer l = { e.layers[l] with state := .stopped, lastChange := e.cyc.k } := by
      show ({ e.layers[l] with state := _, slot := _, lastChange := _ } : Layer) = _
      rw [if_neg ho]
    have hst : e.layers[l].state ≠ .capturing := fun hc => by
      rcases sounding_iff.1 h with h | h <;> rw [hc] at h <;> cases h
    have hends : e.layerEnds n .stopped l = [.layerState l .stopped .cue n] :=
      layerEnds_steady (fun hn => hn.elim ho hst) n .stopped
    rw [if_neg hfrees, hjobs, hlayer, ← upd_value e.layers l fun r => { r with state := .stopped, lastChange := e.cyc.k },
      stopLayer_playing ho, List.append_nil, show e.stopped.state = .stopped from rfl, hends]
    rfl

theorem stopAll_ended (e : Engine) (n : Nat) : Ended e e.stopped n (layerIxs.filter (sounding e))
    (eachLayer (fun l e => if sounding e l then stopLayer l n e else e) e) := by
  have hown : ∀ {seen t l}, Ended e e.stopped n seen t → l ∉ seen → sounding t l = sounding e l := fun h hl => by
    unfold sounding
    rw [h.layer_kept hl]
  refine eachLayer_ended (fun seen t l h hl hs => ?_) fun seen t l h hl hs => if_neg (by rw [hown h hl, hs]; decide)
  have hlayer := h.layer_kept hl
  have hvoice := h.voice_kept hl
  have hsounds : sounding t l = true := (hown h hl).trans hs
  refine (if_pos hsounds).trans ((stopLayer_acts hsounds n).trans ?_)
  have hlen : layerLen t l = layerLen e l := layerLen_congr (by rw [hlayer]) (by rw [h.cyc])
  have hjobs : t.leavesCopy l = e.leavesCopy l := by
    unfold Engine.leavesCopy
    rw [hlayer, h.jobless hl fun i j hj => ?_]
    simp only [Engine.stopped] at hj
    split at hj
    · rw [List.mem_singleton.1 hj]
      rfl
    · cases hj
  refine LayerEnd.acts_congr (p := t.stopped) (q := e.stopped) rfl ?_ ?_ ?_ ?_ ?_ rfl n t
  · simp only [Engine.stopped, hlayer, h.cyc]
  · simp only [Engine.stopped, hvoice, hlen, h.cyc]
    rw [Voice.left_without]
    simp [hl]
  · simp only [Engine.stopped, hlayer]
  · simp only [Engine.stopped, hvoice]
  · simp only [Engine.stopped, hlayer, hjobs, Engine.jobOf]

/-- The layers that a PLAY_ALL takes: they play, an idle voice priming. -/
def Engine.played (e : Engine) : LayerEnd where
  state := .playing
  layer := fun i => { e.layers[i] with state := .playing, lastChange := e.cyc.k }
  voice := fun i =>
    if e.voices[i].rs = .idle then (e.voices[i]).primed ((layerPos e i).getD 0) (e.primeFrom i) else e.voices[i]
  frees := fun _ => false
  idles := fun _ => false
  jobs := fun _ => []
  leaves := fun _ => false

theorem playLayer_acts {e : Engine} {l : LayerIx} (h : e.layers[l].state = .stopped) (n : Nat) :
    playLayer l n e = e.played.acts n l e := by
  have hends : e.layerEnds n .playing l = [.layerState l .playing .cue n] :=
    layerEnds_steady (by rw [h]; decide) n .playing
  have hsplice : (e.cyc.splice.without fun v => v == l && e.played.leaves l) = e.cyc.splice :=
    Splice.without_nobody (fun v => Bool.and_false _) e.cyc.splice
  have hmem : (e.mem.without fun v => v == l && e.played.idles l) = e.mem := without_none e.mem fun v => Bool.and_false _
  have hlayers : (upd e.layers l fun r => { r with state := .playing, lastChange := e.cyc.k })
      = upd e.layers l fun _ => e.played.layer l := upd_value e.layers l _
  have hvoices : (upd e.voices l fun v =>
      if v.rs = .idle then v.primed ((layerPos e l).getD 0) (e.primeFrom l) else v)
      = upd e.voices l fun _ => e.played.voice l := upd_value e.voices l _
  unfold LayerEnd.acts
  rw [hsplice, hmem, ← hlayers, ← hvoices, playLayer_eq, show e.played.jobs l = [] from rfl, List.append_nil,
    show e.played.state = .playing from rfl, hends]
  rfl

theorem playAll_ended (e : Engine) (n : Nat) : Ended e e.played n (layerIxs.filter fun i => e.layers[i].state == .stopped)
    (eachLayer (fun l e => if e.layers[l].state = .stopped then playLayer l n e else e) e) := by
  refine eachLayer_ended (fun seen t l h hl hs => ?_) fun seen t l h hl hs => if_neg (by
    rw [h.layer_kept hl]
    exact beq_eq_false_iff_ne.1 hs)
  have hlayer := h.layer_kept hl
  have hst : t.layers[l].state = .stopped := (congrArg Layer.state hlayer).trans (beq_iff_eq.1 hs)
  have hcyc : t.cyc = e.cyc := h.cyc_kept fun _ => rfl
  refine (if_pos hst).trans ((playLayer_acts hst n).trans ?_)
  refine LayerEnd.acts_congr (p := t.played) (q := e.played) rfl ?_ ?_ rfl rfl rfl rfl n t
  · simp only [Engine.played, hlayer, hcyc]
  · simp only [Engine.played, h.voice_kept hl, layerPos_of (congrArg Layer.mult hlayer) hcyc,
      Engine.primeFrom_of (congrArg Layer.mult hlayer) hcyc]

/-! ## PAUSE -/

/-- The layers that a PAUSE takes: an overdub ends, and a fixed capture closes early, its idle voice priming (R92). -/
def Engine.pausedEnds (e : Engine) : LayerEnd where
  state := .playing
  layer := fun i => { e.layers[i] with
    state := .playing, slot := none, lastChange := e.cyc.k
    written := if e.layers[i].state = .capturing then
        e.layers[i].slot.map fun sl => (e.firstWritten i sl, e.slots[sl].count)
      else e.layers[i].written }
  voice := fun i =>
    if e.layers[i].state = .capturing ∧ e.voices[i].rs = .idle then
      (e.voices[i]).primed ((layerPos e i).getD 0) (e.primeFrom i)
    else e.voices[i]
  frees := fun _ => true
  idles := fun _ => false
  jobs := fun i =>
    if (e.layers[i].state == .capturing && e.mem.jobs.all fun j => j.layer != i)
      || (e.layers[i].state == .overdubbing && e.leavesCopy i) then [e.jobOf i .finishCopy] else []
  leaves := fun _ => false

/-- A layer that a PAUSE takes. -/
def Engine.ends (e : Engine) (i : LayerIx) : Bool :=
  decide (e.layers[i].state = .overdubbing ∨ e.layers[i].state = .capturing)

theorem pauseLayer_acts {e : Engine} {l : LayerIx} {i : SlotIx} (h : e.ends l = true) (hs : e.layers[l].slot = some i)
    (n : Nat) : pauseLayer n l e = e.pausedEnds.acts n l e := by
  have hsplice : (e.cyc.splice.without fun v => v == l && e.pausedEnds.leaves l) = e.cyc.splice :=
    Splice.without_nobody (fun v => Bool.and_false _) e.cyc.splice
  have hmem : (e.mem.without fun v => v == l && e.pausedEnds.idles l) = e.mem :=
    without_none e.mem fun v => Bool.and_false _
  have hends := layerEnds_ending hs (of_decide_eq_true h) n .playing
  unfold LayerEnd.acts
  rw [hsplice, hmem, if_pos (show e.pausedEnds.frees l = true from rfl), Engine.endedSlots_some hs, show e.pausedEnds.state = .playing from rfl, hends]
  rcases of_decide_eq_true h with ho | hc
  · have hlayers : (upd e.layers l fun r => { r with state := .playing, slot := none, lastChange := e.cyc.k })
        = upd e.layers l fun _ => e.pausedEnds.layer l := (upd_value e.layers l _).trans (by
          simp only [Engine.pausedEnds, ho, reduceCtorEq, if_false])
    have hvoices : (upd e.voices l fun _ => e.pausedEnds.voice l) = e.voices := upd_id e.voices l (by
      simp only [Engine.pausedEnds, ho, reduceCtorEq, false_and, if_false])
    have hjobs : e.pausedEnds.jobs l = e.copyJobs l := by
      simp only [Engine.pausedEnds, ho, Engine.copyJobs]
      rfl
    have hpause : pauseLayer n l e = finishOverdub l n e := by rw [pauseLayer, ho]
    rw [hpause, finishOverdub_eq hs, ← hlayers, hvoices, hjobs]
  · have hlayers : (upd e.layers l fun r =>
        { r with state := .playing, written := some (e.firstWritten l i, e.slots[i].count), slot := none,
                 lastChange := e.cyc.k })
        = upd e.layers l fun _ => e.pausedEnds.layer l := (upd_value e.layers l _).trans (by
          simp only [Engine.pausedEnds, hc, if_true, hs, Option.map_some])
    have hvoices : (upd e.voices l fun v =>
        if v.rs = .idle then v.primed ((layerPos e l).getD 0) (e.primeFrom l) else v)
        = upd e.voices l fun _ => e.pausedEnds.voice l := (upd_value e.voices l _).trans (by
          simp only [Engine.pausedEnds, hc, true_and])
    have hjobs : e.pausedEnds.jobs l
        = if e.mem.jobs.all fun j => j.layer != l then [e.jobOf l .finishCopy] else [] := by
      simp only [Engine.pausedEnds, hc]
      simp
    have hpause : pauseLayer n l e = closeEarly l n e := by rw [pauseLayer, hc]
    rw [hpause, closeEarly_eq hs, ← hlayers, ← hvoices, hjobs]

theorem pauseLayers_ended {e : Engine} (n : Nat) (hnamed : ∀ i, e.ends i = true → e.layers[i].slot.isSome = true)
    (hapart : e.slotsApart) : Ended e e.pausedEnds n (layerIxs.filter e.ends) (eachLayer (pauseLayer n) e) := by
  have hown : ∀ {seen t l}, Ended e e.pausedEnds n seen t → l ∉ seen → t.ends l = e.ends l := fun h hl => by
    unfold Engine.ends
    rw [h.layer_kept hl]
  refine eachLayer_ended (fun seen t l h hl hs => ?_) fun seen t l h hl hs => ?_
  · have hlayer := h.layer_kept hl
    obtain ⟨i, hi⟩ := Option.isSome_iff_exists.1 (hnamed l hs)
    have hslot : t.slots[i] = e.slots[i] := h.kept i fun j hj _ hsj =>
      hapart l j (fun heq => hl (heq ▸ hj)) (by rw [hi]; nofun) (hi.trans hsj.symm)
    have hcyc : t.cyc = e.cyc := h.cyc_kept fun _ => rfl
    have hmult := congrArg Layer.mult hlayer
    have hfree := h.jobless hl fun i j hj => by
      simp only [Engine.pausedEnds] at hj
      split at hj
      · rw [List.mem_singleton.1 hj]
        rfl
      · cases hj
    refine (pauseLayer_acts ((hown h hl).trans hs) ((congrArg Layer.slot hlayer).trans hi) n).trans ?_
    refine LayerEnd.acts_congr (p := t.pausedEnds) (q := e.pausedEnds) rfl ?_ ?_ rfl rfl ?_ rfl n t
    · simp only [Engine.pausedEnds, hlayer, hcyc, hi, Option.map_some, Engine.firstWritten, hslot, layerLen_of hmult hcyc]
    · simp only [Engine.pausedEnds, hlayer, h.voice_kept hl, layerPos_of hmult hcyc, Engine.primeFrom_of hmult hcyc]
    · unfold Engine.pausedEnds Engine.leavesCopy Engine.jobOf
      dsimp only
      rw [hlayer, hfree]
  · have hn : ¬(t.layers[l].state = .overdubbing ∨ t.layers[l].state = .capturing) :=
      of_decide_eq_false ((hown h hl).trans hs)
    unfold pauseLayer
    split
    next ho => exact absurd (.inl ho) hn
    next hc => exact absurd (.inr hc) hn
    next => rfl

section
variable {e : Engine} {i : LayerIx} (hm : e.layers[i].mult.isSome = true) (hlen : 0 < e.len i)
include hm hlen

/-- The position a layer's voice primes from, where its loop has a length. -/
theorem primeFrom_position :
    e.primeFrom i = if e.cyc.state = .running then (e.position i + 256) % e.len i else e.position i := by
  have hwrap : layerLen e i = e.len i := by
    unfold layerLen Engine.len Cycle.c
    rfl
  unfold Engine.primeFrom
  obtain ⟨n, hn⟩ := Option.isSome_iff_exists.1 hm
  have hpos : (layerPos e i).getD 0 = e.position i := layerPos_position hn
  dsimp only
  rw [hpos, hwrap]
  exact congrArg (fun x => if e.cyc.state = .running then x else e.position i) (if_neg (Nat.pos_iff_ne_zero.1 hlen))

end

/-- On a frame without a detector onset the pause notes none. -/
theorem enterPaused_unheard {e : Engine} (h : e.heard = none) : (enterPaused e).heard = none := by
  have hX : (endCrossfade (abandonSplice .paused (setCycleState .paused e))).heard = none := by
    rw [endSplice_eq]
    exact h
  unfold enterPaused followLapse
  rw [onFollower_unheard hX]
  by_cases ht : (endCrossfade (abandonSplice .paused (setCycleState .paused e))).fol.state = .tracking
  · rw [if_pos ht]
    simp only [setFollowState, ht, reduceCtorEq, if_false]
    exact hX
  · rw [if_neg ht]
    exact hX

/-- The reports of a layer that a cue takes, all of them in order. -/
theorem layerEnds_states {e : Engine} {n : Nat} {st : LayerState} {ls : List LayerIx}
    (h : ∀ l ∈ ls, ¬(e.layers[l].state = .overdubbing ∨ e.layers[l].state = .capturing)) :
    ls.flatMap (e.layerEnds n st) = ls.map fun i => Event.layerState i st .cue n := by
  induction ls with
  | nil => rfl
  | cons l rest ih =>
    rw [List.flatMap_cons, layerEnds_steady (h l List.mem_cons_self), ih fun i hi => h i (List.mem_cons_of_mem l hi)]
    rfl

theorem cueDone_heard {s : State} {c : Cue} {e : Engine} : (s.cueDone c e).eng.heard = e.heard := by
  rw [cueDone_eng, grantHolds_heard, Engine.reports]

/-- A cue that ends in an engine but for its note of an onset ends in the state but for that note. -/
theorem cueDone_with_heard (s : State) (c : Cue) (e : Engine) (heard : Option Heard) :
    s.cueDone c { e with heard := heard } = { s.cueDone c e with eng := { (s.cueDone c e).eng with heard := heard } } := by
  have hg : ∀ E : Engine, grantHolds { E with heard := heard } = { grantHolds E with heard := heard } := fun E => by
    have hone : ∀ (l : LayerIx) (E : Engine), grantHold l { E with heard := heard } = { grantHold l E with heard := heard } :=
      fun l E => by
        unfold grantHold
        by_cases hc : E.layers[l].hold = .pending ∧ holdConditions E l
        · rw [if_pos hc]
          exact if_pos hc
        · rw [if_neg hc]
          exact if_neg hc
    have hfold : ∀ (ls : List LayerIx) (E : Engine), ls.foldl (fun e l => grantHold l e) { E with heard := heard }
        = { ls.foldl (fun e l => grantHold l e) E with heard := heard } := fun ls => by
      induction ls with
      | nil => exact fun E => rfl
      | cons l rest ih => exact fun E => (congrArg (rest.foldl fun e l => grantHold l e) (hone l E)).trans (ih _)
    exact hfold layerIxs E
  rw [cueDone_rest, cueDone_eng, cueDone_rest (e := e), cueDone_eng]
  exact congrArg (fun T => { s with eng := T }) (hg (e.reports (.cueDone c.number c.target c.action s.eng.cyc.k)))

/-- A cue that ends in an engine, but for its note of an onset, that it leaves absent where there is none. -/
theorem givesButHeard_of {o : Host.Outcome State Fault Refusal} {s : State} {c : Cue} {X T : Engine}
    (ho : o = .next (s.cueDone c T)) (hT : T = { X with heard := T.heard }) (hnone : X.heard = none → T.heard = none) :
    givesButHeard o (s.cueDone c X) := by
  refine ⟨T.heard, fun h => hnone (cueDone_heard.symm.trans h), ?_⟩
  rw [ho, ← cueDone_with_heard]
  exact congrArg (fun E => Host.Outcome.next (s.cueDone c E)) hT

end Sys2Proof.Machine

namespace Sys2Proof.Settled
open Sys2Proof.Machine

/-- Settles O50: each of the cues takes its layers in ascending order, and the pause then ends splice and tracking. -/
theorem allLayerCues : Obligations.AllLayerCues := by
  intro s c before after h e st now named alone released mx waits did
  have hdone : ∀ {a : Machine.Action} {want i t}, c.action = a → exec i s = cueRow want s → want a = true → a.lane? = none →
      actOn c e = (t, none) → exec i s = .next (s.cueDone c t) := fun ha hi hw hl hr =>
    hi.trans (cueRow_done h (ha ▸ hw) (fun k hk => by rw [ha, hl] at hk; cases hk) hr)
  refine ⟨fun ha => ?stopAll, fun ha => ?playAll, fun ha hrun hcalm => ?calm, fun ha hrun hnamed halone => ?pause, fun ha hp => ?resume⟩
  case resume =>
    refine hdone ha rfl rfl rfl ?_
    simp only [actOn, ha]
    refine (if_pos hp).trans (congrArg done ?_)
    unfold setCycleState
    have hne : e.cyc.state ≠ .running := fun h => by
      rw [show e.cyc.state = .paused from hp] at h
      cases h
    rw [if_neg hne]
  case stopAll =>
    intro plays idles
    have hE := stopAll_ended e c.number
    have hcue : actOn c e = (eachLayer (fun l e => if sounding e l then stopLayer l c.number e else e) e, none) := by
      simp only [actOn, ha]
      rfl
    generalize eachLayer (fun l e => if sounding e l then stopLayer l c.number e else e) e = T at hE hcue
    have hmem : ∀ i, i ∈ layerIxs.filter (sounding e) ↔ plays i := fun i => mem_filter_layerIxs.trans sounding_iff
    have hplays : sounding e = fun i => decide (plays i) := funext fun i => by
      rw [Bool.eq_iff_iff, decide_eq_true_eq]
      exact sounding_iff
    have hover : ∀ i, st i = .overdubbing → e.stopped.frees i = true := fun i hi => beq_iff_eq.2 hi
    have hlayer : ∀ i, plays i → T.layers[i] = e.stopped.layer i := fun i hi => (hE.layer i).trans (if_pos ((hmem i).2 hi))
    have hvoice : ∀ i, plays i → T.voices[i] = e.stopped.voice i := fun i hi => (hE.voice i).trans (if_pos ((hmem i).2 hi))
    refine ⟨_, hdone ha rfl rfl rfl hcue, ?_, ?_, ⟨fun i sl hi hs => ?_, fun sl hs => ?_⟩, ?_, fun hapart => ?_, ?_, ?_,
      fun i => ⟨fun hi => ?_, fun hi hp => ?_, fun hn => ?_, fun hn => ?_, fun hi => ?_, fun hi => ?_⟩⟩
    · rw [cueDone_fol, hE.rest]
    · rw [cueDone_cyc, hE.cyc]
      refine congrArg (fun sp => { e.cyc with splice := sp }) (congrArg (Splice.without · e.cyc.splice) (funext fun i => ?_))
      exact (Bool.and_true _).trans (decide_eq_decide.2 (hmem i))
    · rw [cueDone_slots]
      exact hE.released i ((hmem i).2 (.inr hi)) sl (hover i hi) hs
    · rw [cueDone_slots]
      exact hE.kept sl fun i _ hf => hs i (beq_iff_eq.1 hf)
    · have hidles : (fun v => decide (v ∈ layerIxs.filter (sounding e)) && e.stopped.idles v) = idles := funext fun v =>
        congrArg (· && e.voices[v].idlesAtStop) (decide_eq_decide.2 (hmem v))
      have hjobs := flatMap_filter_jobs (takes := sounding e) (has := fun i => e.layers[i].state == .overdubbing && e.leavesCopy i)
        (fun i => e.jobOf i .finishCopy) (fun i hi => sounding_iff.2 (.inr (beq_iff_eq.1 (Bool.and_eq_true_iff.1 hi).1))) layerIxs
      rw [cueDone_mem, hE.mem, hidles]
      exact congrArg (fun js => { e.mem.without idles with jobs := e.mem.jobs ++ js }) hjobs
    · refine cueDone_tells (by rw [hE.cyc]; rfl) (by rw [hE.cyc]; rfl) ((hE.told (.inl hapart)).trans ?_) rfl
      rw [hplays]
      rfl
    · rw [cueDone_cues, hE.rest]
      rfl
    · exact cueDone_frame (by rw [hE.rest]; rfl) (by rw [hE.rest]; rfl) (by rw [hE.mem]; rfl) (by rw [hE.rest]; rfl)
        (by rw [hE.rest]; rfl) (by rw [hE.rest]; rfl) (by rw [hE.rest]; rfl)
    · obtain ⟨hp, hv⟩ := Bool.and_eq_true_iff.1 hi
      rw [cueDone_voices, hvoice i (of_decide_eq_true hp)]
      exact if_pos hv
    · rw [cueDone_voices, hvoice i hp]
      have hv : ¬e.voices[i].idlesAtStop = true := fun hv => by
        have : idles i = true := Bool.and_eq_true_iff.2 ⟨decide_eq_true hp, hv⟩
        rw [hi] at this
        cases this
      refine (congrArg (Voice.quits · e.voices[i] i e.cyc.splice) (if_neg hv)).mpr ?_
      exact Voice.left_quits _ _ _ _
    · rw [cueDone_voices]
      exact (hE.voice i).trans (if_neg fun hm => hn ((hmem i).1 hm))
    · exact cueDone_layer_of ((hE.layer i).trans (if_neg fun hm => hn ((hmem i).1 hm)))
    · refine cueDone_layer_of ((hlayer i (.inl hi)).trans ?_)
      simp only [Engine.stopped]
      rw [if_neg (by rw [show e.layers[i].state = .playing from hi]; decide)]
    · refine cueDone_layer_of ((hlayer i (.inr hi)).trans ?_)
      simp only [Engine.stopped]
      rw [if_pos hi]
  case playAll =>
    have hE := playAll_ended e c.number
    have hcue : actOn c e
        = (eachLayer (fun l e => if e.layers[l].state = .stopped then playLayer l c.number e else e) e, none) := by
      simp only [actOn, ha]
      rfl
    generalize eachLayer (fun l e => if e.layers[l].state = .stopped then playLayer l c.number e else e) e = T at hE hcue
    have hmem : ∀ i, i ∈ (layerIxs.filter fun i => e.layers[i].state == .stopped) ↔ st i = .stopped := fun i =>
      mem_filter_layerIxs.trans beq_iff_eq
    have hcyc : T.cyc = e.cyc := hE.cyc_kept fun _ => rfl
    refine ⟨_, hdone ha rfl rfl rfl hcue, cueDone_cyc.trans hcyc, ?_, ?_, ?_, ?_, ?_, ?_, fun i => ⟨fun hn => ⟨?_, ?_⟩, fun hi =>
      ⟨?_, fun hr => ?_, fun hr => ?_, fun hr hm hlen => ?_⟩⟩⟩
    · rw [cueDone_fol, hE.rest]
    · rw [cueDone_slots]
      exact Vector.ext fun j hj => hE.kept ⟨j, hj⟩ fun i _ hf => by cases hf
    · rw [cueDone_mem]
      exact hE.mem_kept (fun _ => rfl) fun _ => rfl
    · rw [cueDone_cues, hE.rest]
      rfl
    · exact cueDone_frame (by rw [hE.rest]; rfl) (by rw [hE.rest]; rfl) (by rw [hE.mem]; rfl) (by rw [hE.rest]; rfl)
        (by rw [hE.rest]; rfl) (by rw [hE.rest]; rfl) (by rw [hE.rest]; rfl)
    · have htold : T.evq = e.evq.told e.cyc.k e.cyc.p
          ((layerIxs.filter fun i => e.layers[i].state == .stopped).flatMap (e.layerEnds c.number .playing)) := by
        exact hE.told (.inr fun _ => rfl)
      refine cueDone_tells (by rw [hcyc]; rfl) (by rw [hcyc]; rfl) htold ?_
      refine congrArg (· ++ [did]) (layerEnds_states fun l hl => ?_).symm
      rw [show e.layers[l].state = .stopped from (hmem l).1 hl]
      decide
    · exact cueDone_layer_of ((hE.layer i).trans (if_neg fun hm => hn ((hmem i).1 hm)))
    · rw [cueDone_voices]
      exact (hE.voice i).trans (if_neg fun hm => hn ((hmem i).1 hm))
    · exact cueDone_layer_of ((hE.layer i).trans (if_pos ((hmem i).2 hi)))
    · rw [cueDone_voices]
      exact ((hE.voice i).trans (if_pos ((hmem i).2 hi))).trans (if_neg hr)
    · rw [cueDone_voices, (hE.voice i).trans (if_pos ((hmem i).2 hi)), show e.played.voice i = _ from if_pos hr]
      exact ⟨rfl, rfl⟩
    · intro ahead
      rw [cueDone_voices, (hE.voice i).trans (if_pos ((hmem i).2 hi)), show e.played.voice i = _ from if_pos hr]
      obtain ⟨n, hn⟩ := Option.isSome_iff_exists.1 hm
      rw [layerPos_position hn, primeFrom_position hm hlen]
  case calm =>
    have hcue : actOn c e = (enterPaused e, none) := by
      have hnone : eachLayer (pauseLayer c.number) e = e := by
        have hE : ∀ ls : List LayerIx, ls.foldl (fun e l => pauseLayer c.number l e) e = e := fun ls => by
          induction ls with
          | nil => rfl
          | cons l rest ih =>
            have hl : pauseLayer c.number l e = e := by
              obtain ⟨hnc, hno⟩ := hcalm l
              unfold pauseLayer
              split
              next ho => exact absurd ho hno
              next hc => exact absurd hc hnc
              next => rfl
            rw [List.foldl_cons, hl, ih]
        exact hE layerIxs
      simp only [actOn, ha, pauseCue]
      rw [show e.cyc.state = .running from hrun]
      exact congrArg (fun T => done (enterPaused T)) hnone
    have hrow : exec .pause s = .next (s.cueDone c (enterPaused e)) := hdone ha rfl rfl rfl hcue
    obtain ⟨heard, hpause⟩ := enterPaused_eq e
    have hunheard : e.heard = none → (enterPaused e).heard = none := enterPaused_unheard
    generalize enterPaused e = T at hrow hpause hunheard
    have hheard : heard = T.heard := by rw [hpause]
    rw [hheard, if_neg (by rw [show e.cyc.state = .running from hrun]; decide)] at hpause
    have hgives : ∀ X : Engine, T = { X with heard := T.heard } → X.heard = e.heard →
        givesButHeard (exec .pause s) (s.cueDone c X) := fun X hX hh => givesButHeard_of hrow hX fun h => hunheard (hh ▸ h)
    have hstill : e.fol.state ≠ .tracking → e.fol.resting = e.fol ∧ e.fol.rests .paused = [] := fun h => ⟨if_neg h, if_neg h⟩
    have hlapses : e.fol.state = .tracking → e.fol.resting = waits ∧ e.fol.rests .paused = [.followState .waiting .paused] :=
      fun h => ⟨if_pos h, if_pos h⟩
    have hleft := e.voicesLeft_get
    refine ⟨fun hsp => ?_, fun r hsp => ⟨e.voicesLeft, fun v => ?_, ?_⟩, fun r hsp => ⟨e.voicesLeft, fun v => ?_, ?_⟩⟩
    · have hvoices : e.voicesLeft = e.voices := Vector.ext fun j hj => by
        refine (hleft ⟨j, hj⟩).trans ?_
        rw [show e.cyc.splice = .idle from hsp]
        rfl
      have hcyc : e.cyc = { e.cyc with splice := .idle } := by rw [← show e.cyc.splice = .idle from hsp]
      rw [hvoices, show e.cyc.splice.skips .paused = [] by rw [show e.cyc.splice = .idle from hsp]; rfl, List.nil_append] at hpause
      intro e1
      refine ⟨fun hf => hgives _ (hpause.trans ?_) rfl, fun hf => hgives _ (hpause.trans ?_) rfl⟩
      · obtain ⟨hf1, hf2⟩ := hstill hf
        rw [hf1, hf2, told_nil]
        exact congrArg (fun cyc : Cycle => { e with cyc := { cyc with state := .paused }, mix := mx, heard := T.heard }) hcyc.symm
      · obtain ⟨hf1, hf2⟩ := hlapses hf
        rw [hf1, hf2]
        exact congrArg (fun cyc : Cycle => { e with
          cyc := { cyc with state := .paused }, mix := mx, fol := waits, heard := T.heard
          evq := e.evq.told e.cyc.k e.cyc.p [.followState .waiting .paused] }) hcyc.symm
    · rw [hleft v]
      exact Voice.left_quits _ _ _ _
    · rw [show e.cyc.splice.skips .paused = [] by rw [show e.cyc.splice = .crossfading r from hsp]; rfl, List.nil_append] at hpause
      intro e1
      refine ⟨fun hf => hgives _ (hpause.trans ?_) rfl, fun hf => hgives _ (hpause.trans ?_) rfl⟩
      · obtain ⟨hf1, hf2⟩ := hstill hf
        rw [hf1, hf2, told_nil]
      · obtain ⟨hf1, hf2⟩ := hlapses hf
        rw [hf1, hf2]
        rfl
    · rw [hleft v, show e.cyc.splice = .fetching r from hsp]
      rfl
    · rw [show e.cyc.splice.skips .paused = [.spliceSkipped r.j .paused] by
        rw [show e.cyc.splice = .fetching r from hsp]; rfl] at hpause
      intro e1
      refine ⟨fun hf => hgives _ (hpause.trans ?_) rfl, fun hf => hgives _ (hpause.trans ?_) rfl⟩
      · obtain ⟨hf1, hf2⟩ := hstill hf
        rw [hf1, hf2]
        rfl
      · obtain ⟨hf1, hf2⟩ := hlapses hf
        rw [hf1, hf2]
        rfl
  case pause =>
    intro ends
    have hends : ∀ i, e.ends i = true ↔ ends i := fun i => decide_eq_true_iff
    have hE := pauseLayers_ended (e := e) c.number (fun i hi => hnamed i ((hends i).1 hi)) halone
    have hcue : actOn c e = (enterPaused (eachLayer (pauseLayer c.number) e), none) := by
      simp only [actOn, ha, pauseCue]
      rw [show e.cyc.state = .running from hrun]
      rfl
    generalize eachLayer (pauseLayer c.number) e = C at hE hcue
    have hCcyc : C.cyc = e.cyc := hE.cyc_kept fun _ => rfl
    have hCfol : C.fol = e.fol := by rw [hE.rest]
    have hCmult : ∀ i : LayerIx, C.layers[i].mult = e.layers[i].mult := fun i => by
      rw [hE.layer i]
      split <;> rfl
    have hrow : exec .pause s = .next (s.cueDone c (enterPaused C)) := hdone ha rfl rfl rfl hcue
    obtain ⟨heard, hpause⟩ := enterPaused_eq C
    generalize enterPaused C = T at hrow hpause
    have hTlayers : T.layers = C.layers := by rw [hpause]
    have hTslots : T.slots = C.slots := by rw [hpause]
    have hTmem : T.mem = C.mem := by rw [hpause]
    have hTcyc : T.cyc = { e.cyc with state := .paused, splice := .idle } := by rw [hpause, hCcyc]
    have hmem : ∀ i, i ∈ layerIxs.filter e.ends ↔ ends i := fun i => mem_filter_layerIxs.trans (hends i)
    have hlayer : ∀ i, ends i → T.layers[i] = e.pausedEnds.layer i := fun i hi => by
      rw [hTlayers]
      exact (hE.layer i).trans (if_pos ((hmem i).2 hi))
    have hvoice : ∀ i : LayerIx, (T.voices[i]).quits C.voices[i] i e.cyc.splice := fun i => by
      rw [show T.voices = C.voicesLeft by rw [hpause], C.voicesLeft_get, ← hCcyc]
      exact Voice.left_quits _ _ _ _
    refine ⟨_, hrow, cueDone_cyc.trans hTcyc, ?_, ⟨fun i sl hi hs => ?_, fun sl hs => ?_⟩, ?_, ?_, ?_, ?_, fun i =>
      ⟨fun hn => ?_, fun hi => ?_, fun sl a hi hs hfirst => ?_, fun hi => ?_, fun n hi hr hm hlen => ?_⟩⟩
    · rw [cueDone_fol, show T.fol = C.fol.resting by rw [hpause], hCfol]
      rfl
    · rw [cueDone_slots, hTslots]
      exact hE.released i ((hmem i).2 hi) sl rfl hs
    · rw [cueDone_slots, hTslots]
      exact hE.kept sl fun i hi _ => hs i ((hmem i).1 hi)
    · refine cueDone_tells (by rw [hTcyc]; rfl) (by rw [hTcyc]; rfl) (events := (layerIxs.filter e.ends).flatMap
        (e.layerEnds c.number .playing) ++ e.cyc.splice.skips .paused ++ e.fol.rests .paused) ?_ rfl
      rw [show T.evq = C.evq.told C.cyc.k C.cyc.p (C.cyc.splice.skips .paused ++ C.fol.rests .paused) by rw [hpause],
        hE.told (.inl halone), hCcyc, hCfol, ← told_append, List.append_assoc]
      rfl
    · have hjobs := flatMap_filter_jobs (takes := e.ends) (has := fun i =>
          (e.layers[i].state == .capturing && e.mem.jobs.all fun j => j.layer != i)
            || (e.layers[i].state == .overdubbing && e.leavesCopy i)) (fun i => e.jobOf i .finishCopy) (fun i hi => by
          refine (hends i).2 ?_
          rcases (Bool.or_eq_true_iff.1 hi) with hi | hi
          · exact .inr (beq_iff_eq.1 (Bool.and_eq_true_iff.1 hi).1)
          · exact .inl (beq_iff_eq.1 (Bool.and_eq_true_iff.1 hi).1)) layerIxs
      rw [cueDone_mem, hTmem, hE.mem, without_none e.mem (gone := fun v => decide (v ∈ layerIxs.filter e.ends) && e.pausedEnds.idles v)
        fun v => Bool.and_false _]
      exact congrArg (fun js => { e.mem with jobs := e.mem.jobs ++ js }) hjobs
    · rw [cueDone_cues, hpause, hE.rest]
      rfl
    · exact cueDone_frame (by rw [hpause, hE.rest]; rfl) (by rw [hpause, hE.rest]; rfl) (by rw [hTmem, hE.mem]; rfl)
        (by rw [hpause, hE.rest]; rfl) (by rw [hpause, hE.rest]; rfl) (by rw [hpause, hE.rest]; rfl) (by rw [hpause, hE.rest]; rfl)
    · refine cueDone_layer_of ?_
      rw [hTlayers]
      exact (hE.layer i).trans (if_neg fun hm => hn ((hmem i).1 hm))
    · refine cueDone_layer_of ((hlayer i (.inl hi)).trans ?_)
      simp only [Engine.pausedEnds]
      rw [show e.layers[i].state = .overdubbing from hi]
      rfl
    · refine cueDone_layer_of ((hlayer i (.inr hi)).trans ?_)
      simp only [Engine.pausedEnds]
      rw [if_pos hi, hs, Option.map_some, firstWritten_of hfirst]
    · have hC : C.voices[i] = e.voices[i] := by
        rw [hE.voice i]
        split
        · exact if_neg fun hn => hi.elim (fun h => h hn.1) fun h => h hn.2
        · rfl
      rw [cueDone_voices, ← hC]
      exact hvoice i
    · have hC : C.voices[i] = (e.voices[i]).primed (e.position i) ((e.position i + 256) % e.len i) := by
        rw [hE.voice i, if_pos ((hmem i).2 (.inr hi)), show e.pausedEnds.voice i = _ from if_pos ⟨hi, hr⟩,
          layerPos_position hm, primeFrom_position (by rw [hm]; rfl) hlen,
          if_pos (show e.cyc.state = .running from hrun)]
      rw [cueDone_voices, ← hC]
      exact hvoice i

end Sys2Proof.Settled
end

section
/-! The lanes of a port that leaves LOCKED on the open frame (R149, R156; entry 51), PORT_SET, and the holds of blocks. -/

set_option Elab.async false

namespace Sys2Proof.Machine

/-! ## Lanes that are silenced one after another -/

theorem quadIxs_nodup : quadIxs.Nodup := by decide

/-- A lane silent on the open frame. -/
def Lane.silenced (ln : Lane) : Lane := { ln with x := 0, formed := none, peak := ln.peakBefore, taken := [] }

/-- The follower, the cues and the reports once the lane of the onset is silent. -/
theorem deafen_lane {e : Engine} {h : Heard} (hh : e.heard = some h) : deafen h.lane e = unhear h e := by
  unfold deafen
  rw [hh]
  exact if_pos rfl

theorem deafen_other {e : Engine} {l : LaneIx} (h : ∀ h, e.heard = some h → h.lane ≠ l) : deafen l e = e := by
  unfold deafen
  cases hh : e.heard with
  | none => rfl
  | some hd => exact if_neg (h hd hh)

theorem unhear_eq (h : Heard) (e : Engine) : unhear h e = { e with
    heard := none, fol := h.without, cues := { e.cues with list := e.cues.list.map (Cue.uncount h.cues) }
    evq := (unhear h e).evq } := rfl

/-- The slots once a lane is silent. -/
theorem silenceLane_eq (l : LaneIx) (e : Engine) : ∃ slots : Vector Slot 2,
    silenceLane l e = { deafen l e with
      lanes := upd e.lanes l Lane.silenced, slots := slots
      mix := e.mix.shift (-e.lanes[l].x.toInt) e.mix.sums.live[l] }
    ∧ ∀ i : SlotIx, slots[i] = (e.slots[i]).silenced l e.lanes[l].taken := by
  have hkeeps : (deafen l e).lanes = e.lanes ∧ (deafen l e).slots = e.slots ∧ (deafen l e).mix = e.mix := by
    by_cases hl : ∃ h, e.heard = some h ∧ h.lane = l
    · obtain ⟨h, hh, rfl⟩ := hl
      rw [deafen_lane hh]
      exact ⟨rfl, rfl, rfl⟩
    · rw [deafen_other fun h hh hlane => hl ⟨h, hh, hlane⟩]
      exact ⟨rfl, rfl, rfl⟩
  obtain ⟨hlanes, hslots, hmix⟩ := hkeeps
  obtain ⟨D, hD⟩ : ∃ D, D = modLane l Lane.silenced (deafen l e) := ⟨_, rfl⟩
  have honly : ∀ (ls : List SlotIx) (f : Slot → Slot) (E : Engine), ∃ slots : Vector Slot 2,
      ls.foldl (fun e s => modSlot s f e) E = { E with slots := slots } := fun ls f => by
    induction ls with
    | nil => exact fun E => ⟨E.slots, rfl⟩
    | cons s rest ih =>
      intro E
      obtain ⟨slots, h⟩ := ih (modSlot s f E)
      exact ⟨slots, h⟩
  obtain ⟨slots, hfold⟩ := honly slotIxs (Slot.silenced l e.lanes[l].taken) D
  have hsl := eachSlot_modSlot (Slot.silenced l e.lanes[l].taken) D
  have hstep : silenceLane l e =
      (fun (ln : Lane) (E : Engine) => { E with mix := E.mix.shift (-ln.x.toInt) E.mix.sums.live[l] })
        (deafen l e).lanes[l] (eachSlot (fun s => modSlot s (Slot.silenced l (deafen l e).lanes[l].taken)) D) := by
    rw [hD]
    rfl
  have hfold' : eachSlot (fun s => modSlot s (Slot.silenced l e.lanes[l].taken)) D = { D with slots := slots } := hfold
  rw [hlanes, hfold'] at hstep
  refine ⟨slots, ?_, fun i => ?_⟩
  · rw [hstep, hD]
    simp only [modLane, hlanes, hmix]
  · rw [hfold'] at hsl
    refine (hsl i).trans ?_
    rw [hD]
    exact congrArg (fun x : Vector Slot 2 => Slot.silenced l e.lanes[l].taken x[i]) hslots

/-- The engine `t` is `e` once the lanes of a list are silent. -/
structure Silenced (e : Engine) (seen : List LaneIx) (t : Engine) : Prop where
  rest : t = { e with lanes := t.lanes, slots := t.slots, mix := t.mix, fol := t.fol
                      cues := { e.cues with list := t.cues.list }, heard := t.heard, evq := t.evq }
  lane : ∀ l : LaneIx, t.lanes[l] = if l ∈ seen then (e.lanes[l]).silenced else e.lanes[l]
  slot : ∀ i : SlotIx, t.slots[i] = seen.foldl (fun sl l => sl.silenced l e.lanes[l].taken) e.slots[i]
  mix : t.mix = seen.foldl (fun mx l => mx.shift (-e.lanes[l].x.toInt) mx.sums.live[l]) e.mix
  deaf : (∀ h, e.heard = some h → h.lane ∉ seen) → t.fol = e.fol ∧ t.cues = e.cues ∧ t.heard = e.heard ∧ t.evq = e.evq
  unheard : ∀ h, e.heard = some h → h.lane ∈ seen →
    t.fol = h.without ∧ t.cues = (unhear h e).cues ∧ t.heard = none ∧ t.evq = (unhear h e).evq

theorem Silenced.start (e : Engine) : Silenced e [] e where
  rest := rfl
  lane := fun l => (if_neg List.not_mem_nil).symm
  slot := fun i => rfl
  mix := rfl
  deaf := fun _ => ⟨rfl, rfl, rfl, rfl⟩
  unheard := fun h _ hm => absurd hm List.not_mem_nil

theorem Silenced.next {e t : Engine} {seen : List LaneIx} {l : LaneIx} (h : Silenced e seen t) (hl : l ∉ seen) :
    Silenced e (seen ++ [l]) (silenceLane l t) := by
  obtain ⟨slots, heq, hslots⟩ := silenceLane_eq l t
  have hlane : t.lanes[l] = e.lanes[l] := (h.lane l).trans (if_neg hl)
  have hseen : ∀ i, i ∈ seen ++ [l] ↔ i ∈ seen ∨ i = l := fun i => by simp
  generalize silenceLane l t = u at heq
  have hears : (∀ h, t.heard = some h → h.lane ≠ l) → u.fol = t.fol ∧ u.cues = t.cues ∧ u.heard = t.heard ∧ u.evq = t.evq :=
    fun hn => by
      rw [heq, deafen_other hn]
      exact ⟨rfl, rfl, rfl, rfl⟩
  refine ⟨?_, fun i => ?_, fun i => ?_, ?_, fun hn => ?_, fun hd hh hm => ?_⟩
  · have hdeaf : deafen l t = { t with fol := (deafen l t).fol, cues := { t.cues with list := (deafen l t).cues.list }
                                       heard := (deafen l t).heard, evq := (deafen l t).evq } := by
      by_cases hx : ∃ h, t.heard = some h ∧ h.lane = l
      · obtain ⟨h, hh, rfl⟩ := hx
        rw [deafen_lane hh]
        rfl
      · rw [deafen_other fun h hh hlane => hx ⟨h, hh, hlane⟩]
    rw [heq, hdeaf, h.rest]
  · rw [heq]
    by_cases hi : i = l
    · subst hi
      rw [if_pos ((hseen i).2 (.inr rfl)), ← hlane]
      exact upd_self t.lanes i _
    · rw [if_congr ((hseen i).trans (or_iff_left hi)) rfl rfl]
      exact (upd_other t.lanes l i _ (Ne.symm hi)).trans (h.lane i)
  · rw [List.foldl_append, ← h.slot i]
    have hu : u.slots[i] = slots[i] := by rw [heq]
    exact hu.trans ((hslots i).trans (by rw [hlane]; rfl))
  · rw [List.foldl_append, ← h.mix]
    have hu : u.mix = t.mix.shift (-t.lanes[l].x.toInt) t.mix.sums.live[l] := by rw [heq]
    exact hu.trans (by rw [hlane]; rfl)
  · obtain ⟨hfol, hcues, hheard, hevq⟩ := h.deaf fun hd hh hm => hn hd hh ((hseen _).2 (.inl hm))
    obtain ⟨ufol, ucues, uheard, uevq⟩ := hears fun hd hh heql => hn hd (hheard ▸ hh) ((hseen _).2 (.inr heql))
    exact ⟨ufol.trans hfol, ucues.trans hcues, uheard.trans hheard, uevq.trans hevq⟩
  · rcases (hseen _).1 hm with hm | rfl
    · obtain ⟨hfol, hcues, hheard, hevq⟩ := h.unheard hd hh hm
      obtain ⟨ufol, ucues, uheard, uevq⟩ := hears fun h hh => by rw [hheard] at hh; cases hh
      exact ⟨ufol.trans hfol, ucues.trans hcues, uheard.trans hheard, uevq.trans hevq⟩
    · obtain ⟨-, hcues, hheard, hevq⟩ := h.deaf fun h' hh' => by
        rw [hh] at hh'
        rw [← Option.some.inj hh']
        exact hl
      rw [heq, deafen_lane (hheard.trans hh)]
      refine ⟨rfl, ?_, rfl, ?_⟩
      · simp only [unhear, hcues]
      · simp only [unhear, hevq]

theorem silenceLanes_silenced (p : PortIx) (e : Engine) :
    Silenced e (quadIxs.filter fun l => decide (e.lanes[l].formed = some p)) (silenceLanes p e) := by
  have hfold : ∀ (ls seen : List LaneIx) (t : Engine), (seen ++ ls).Nodup → Silenced e seen t →
      Silenced e (seen ++ ls.filter fun l => decide (e.lanes[l].formed = some p))
        (ls.foldl (fun t l => if t.lanes[l].formed = some p then silenceLane l t else t) t) := fun ls => by
    induction ls with
    | nil => intro seen t _ h; rwa [List.filter_nil, List.append_nil]
    | cons l rest ih =>
      intro seen t hn h
      have hl : l ∉ seen := fun hm => (List.nodup_append.1 hn).2.2 l hm l List.mem_cons_self rfl
      have hlane : t.lanes[l] = e.lanes[l] := (h.lane l).trans (if_neg hl)
      rw [List.foldl_cons, hlane]
      by_cases hf : e.lanes[l].formed = some p
      · rw [if_pos hf, List.filter_cons_of_pos (p := fun l : LaneIx => decide (e.lanes[l].formed = some p)) (decide_eq_true hf)]
        have := ih (seen ++ [l]) _ (by rwa [List.append_assoc]) (h.next hl)
        rwa [List.append_assoc] at this
      · rw [if_neg hf, List.filter_cons_of_neg (by simpa using hf)]
        exact ih seen t (hn.sublist (by simp)) h
  exact hfold quadIxs [] e quadIxs_nodup (Silenced.start e)

/-! ## What lanes that are silent leave of slots and cues -/

theorem Entry.silenced_data {taken : List (LayerIx × Nat × Nat)} {en : Entry} {q : Nat} {x : Sample}
    (h : (en.silenced taken).body = .data q x) :
    en.layer = (en.silenced taken).layer ∧ en.key = (en.silenced taken).key
      ∧ ∃ y, en.body = .data q y ∧ (y = 0 → x = 0) ∧ ((en.layer, en.key, q) ∈ taken → x = 0) := by
  obtain ⟨layer, key, body⟩ := en
  cases body with
  | gap a b c => cases h
  | data q' y =>
    unfold Entry.silenced at h ⊢
    dsimp only at h ⊢
    split at h
    next hm =>
      rw [if_pos hm]
      cases h
      exact ⟨rfl, rfl, y, rfl, fun _ => rfl, fun _ => rfl⟩
    next hm =>
      rw [if_neg hm]
      cases h
      exact ⟨rfl, rfl, _, rfl, fun h => h, fun h => absurd h hm⟩

section
variable (taken : LaneIx → List (LayerIx × Nat × Nat))

theorem silencedSlot_lane (ls : List LaneIx) (sl : Slot) :
    (ls.foldl (fun sl l => sl.silenced l (taken l)) sl).lane = sl.lane := by
  induction ls generalizing sl with
  | nil => rfl
  | cons l rest ih => exact ih _

/-- The writes of a slot that records one of the silent lanes hold 0. -/
theorem silencedSlot_writes {l : LaneIx} {ls : List LaneIx} (sl : Slot) (hl : l ∈ ls ∨ ∀ w ∈ sl.pendingWrites, w.x = 0)
    (hs : sl.lane = some l) : ∀ w ∈ (ls.foldl (fun sl l => sl.silenced l (taken l)) sl).pendingWrites, w.x = 0 := by
  induction ls generalizing sl with
  | nil => exact hl.elim (fun h => absurd h List.not_mem_nil) id
  | cons k rest ih =>
    have hzero : (k = l ∨ ∀ w ∈ sl.pendingWrites, w.x = 0) → ∀ w ∈ (sl.silenced k (taken k)).pendingWrites, w.x = 0 :=
      fun h w hw => by
        unfold Slot.silenced at hw
        dsimp only at hw
        split at hw
        · obtain ⟨w', -, rfl⟩ := List.mem_map.1 hw
          rfl
        next hk => exact h.elim (fun hkl => absurd (hkl ▸ hs) hk) fun hz => hz w hw
    refine ih (sl.silenced k (taken k)) ?_ hs
    rcases hl with hl | hz
    · rcases List.mem_cons.1 hl with rfl | hl
      · exact .inr (hzero (.inl rfl))
      · exact .inl hl
    · exact .inr (hzero (.inr hz))

/-- What a slot has staged of one of the silent lanes is 0. -/
theorem silencedSlot_staging {l : LaneIx} {ls : List LaneIx} (sl : Slot) {k : LayerIx} {key q : Nat}
    (hl : l ∈ ls ∨ ∀ en ∈ sl.staging, en.layer = k → en.key = key → ∀ x, en.body = .data q x → x = 0)
    (ht : (k, key, q) ∈ taken l) :
    ∀ en ∈ (ls.foldl (fun sl l => sl.silenced l (taken l)) sl).staging,
      en.layer = k → en.key = key → ∀ x, en.body = .data q x → x = 0 := by
  induction ls generalizing sl with
  | nil => exact hl.elim (fun h => absurd h List.not_mem_nil) id
  | cons j rest ih =>
    have hzero : (j = l ∨ ∀ en ∈ sl.staging, en.layer = k → en.key = key → ∀ x, en.body = .data q x → x = 0) →
        ∀ en ∈ (sl.silenced j (taken j)).staging, en.layer = k → en.key = key → ∀ x, en.body = .data q x → x = 0 :=
      fun h en hen hk hkey x hx => by
        obtain ⟨en', hen', rfl⟩ := List.mem_map.1 hen
        obtain ⟨hlayer, hkeys, y, hy, hkeep, hgone⟩ := Entry.silenced_data hx
        rcases h with rfl | hz
        · exact hgone (by rw [hlayer, hkeys, hk, hkey]; exact ht)
        · exact hkeep (hz en' hen' (hlayer.trans hk) (hkeys.trans hkey) y hy)
    refine ih (sl.silenced j (taken j)) ?_
    rcases hl with hl | hz
    · rcases List.mem_cons.1 hl with rfl | hl
      · exact .inr (hzero (.inl rfl))
      · exact .inl hl
    · exact .inr (hzero (.inr hz))

end

/-- The lanes that formed their samples from a port are silent when it leaves LOCKED (entry 51). -/
theorem silenceLanes_spec (p : PortIx) (e : Engine) : (silenceLanes p e).silences e p := by
  have h := silenceLanes_silenced p e
  generalize silenceLanes p e = t at h
  have hmem : ∀ l, l ∈ (quadIxs.filter fun l => decide (e.lanes[l].formed = some p)) ↔ e.lanes[l].formed = some p :=
    fun l => by simp [mem_quadIxs]
  have hlane : ∀ l : LaneIx, e.lanes[l].formed = some p → t.lanes[l] = (e.lanes[l]).silenced := fun l hf =>
    (h.lane l).trans (if_pos ((hmem l).2 hf))
  refine ⟨fun l hf => ⟨?_, ?_, fun i hi => ?_, fun i en hen q x hx ht => ?_, fun hd hh hlh => ?_⟩, fun l => ?_, h.slot, h.mix,
    fun hn => ?_, ?_⟩
  · rw [hlane l hf]
    rfl
  · rw [hlane l hf]
    rfl
  · rw [h.slot i] at hi ⊢
    rw [silencedSlot_lane fun l => e.lanes[l].taken] at hi
    exact silencedSlot_writes (fun l => e.lanes[l].taken) e.slots[i] (.inl ((hmem l).2 hf)) hi
  · rw [h.slot i] at hen
    exact silencedSlot_staging (fun l => e.lanes[l].taken) e.slots[i] (.inl ((hmem l).2 hf)) ht en hen rfl rfl x hx
  · obtain ⟨hfol, hcues, hheard, -⟩ := h.unheard hd hh ((hmem _).2 (hlh ▸ hf))
    exact ⟨hheard, hfol, congrArg CueQueue.list hcues⟩
  · rw [h.lane l]
    exact if_congr (hmem l) rfl rfl
  · obtain ⟨hfol, hcues, hheard, -⟩ := h.deaf fun hd hh hm => hn hd hh ((hmem _).1 hm)
    exact ⟨hfol, hcues, hheard⟩
  · have hevq : t.evq = e.unheardQueue p := by
      unfold Engine.unheardQueue
      cases hh : e.heard with
      | none => exact (h.deaf fun hd hn => by rw [hh] at hn; cases hn).2.2.2
      | some hd =>
        by_cases hf : e.lanes[hd.lane].formed = some p
        · exact (h.unheard hd hh ((hmem _).2 hf)).2.2.2.trans (if_pos hf).symm
        · exact (h.deaf fun hd' hn hm => by
            rw [hh] at hn
            rw [← Option.some.inj hn] at hm
            exact hf ((hmem _).1 hm)).2.2.2.trans (if_neg hf).symm
    rw [← hevq]
    exact h.rest

theorem Engine.silent.of {t t' e e' : Engine} {p : PortIx} (h : t.silent e p)
    (ht : t'.lanes = t.lanes ∧ t'.slots = t.slots ∧ t'.heard = t.heard ∧ t'.fol = t.fol ∧ t'.cues = t.cues)
    (he : e'.lanes = e.lanes ∧ e'.heard = e.heard ∧ e'.cues = e.cues) : t'.silent e' p := by
  obtain ⟨htl, hts, hth, htf, htc⟩ := ht
  obtain ⟨hel, heh, hec⟩ := he
  unfold Engine.silent at h ⊢
  rw [htl, hts, hth, htf, htc, hel, heh, hec]
  exact h

theorem Engine.silences.rest {t e : Engine} {p : PortIx} (h : t.silences e p) :
    t = { e with lanes := t.lanes, slots := t.slots, mix := t.mix, fol := t.fol, cues := t.cues, heard := t.heard
                 evq := t.evq } := by
  obtain ⟨-, -, -, -, -, hrest⟩ := h
  have hcues : t.cues = { e.cues with list := t.cues.list } := by rw [hrest]
  have hevq : t.evq = e.unheardQueue p := by rw [hrest]
  rw [hcues, hevq]
  exact hrest

/-! ## A port that takes another lock state (R149) -/

/-- A port as it takes a lock state: emptied, the marker forgotten by one that was DISABLED. -/
def Port.enters (q : Port) (k : Lock) : Port :=
  { q.emptied with lock := k, markerSeen := q.markerSeen && q.lock != .disabled }

section
variable {e : Engine} {p : PortIx} {k : Lock} {r : Port}

/-- The engine once a port stands for another of its array, and the SLIP of its recovery is told. -/
def Engine.entered (e : Engine) (p : PortIx) (r : Port) (k : Lock) : Engine :=
  ({ e with ports := upd e.ports p fun _ => r.enters k } : Engine).slipEnded p e.ports[p]

variable (hr : r.lock = e.ports[p].lock ∧ r.recovery = e.ports[p].recovery ∧ r.slip = e.ports[p].slip)
include hr

/-- What the port itself does as it takes a lock state. -/
theorem enters_eq : modPort p (fun q => { q.emptied with lock := k, markerSeen := q.markerSeen && q.lock != .disabled })
      (endRecovery p { e with ports := upd e.ports p fun _ => r }) = e.entered p r k := by
  obtain ⟨-, hrec, hslip⟩ := hr
  have hport : ({ e with ports := upd e.ports p fun _ => r } : Engine).ports[p] = r := upd_self e.ports p _
  rw [leaveLock_eq, hport]
  unfold Engine.entered Engine.slipEnded
  rw [hrec, hslip]
  simp only [modPort, upd_upd]
  rfl

/-- A port that was not LOCKED takes another lock state. -/
theorem dropLock_quiet (hl : e.ports[p].lock ≠ .locked) (hk : e.ports[p].lock ≠ k) :
    dropLock p k { e with ports := upd e.ports p fun _ => r } = (e.entered p r k).reports (.laneLock p k) := by
  have hport : ({ e with ports := upd e.ports p fun _ => r } : Engine).ports[p].lock = e.ports[p].lock :=
    (congrArg Port.lock (upd_self e.ports p _)).trans hr.1
  unfold dropLock
  rw [hport, if_neg hk, if_neg hl, enters_eq hr]
  rfl

/-- A LOCKED port leaves LOCKED: its lanes are silent, and P0 gives way when it was the clock source. -/
theorem dropLock_leaves (hl : e.ports[p].lock = .locked) (hk : k ≠ .locked) :
    ∃ quiet : Engine, quiet.silences (e.entered p r k) p ∧ (e.unheard p → quiet = e.entered p r k)
      ∧ dropLock p k { e with ports := upd e.ports p fun _ => r } =
        if p = 0 ∧ e.clk.active = .port0 then (quiet.reports (.laneLock p k)).fallenBack
        else (quiet.reports (.laneLock p k)).unawaited p := by
  have hport : ({ e with ports := upd e.ports p fun _ => r } : Engine).ports[p].lock = e.ports[p].lock :=
    (congrArg Port.lock (upd_self e.ports p _)).trans hr.1
  refine ⟨silenceLanes p (e.entered p r k), silenceLanes_spec p _, fun hu => silenceLanes_unheard ?_, ?_⟩
  · unfold Engine.entered Engine.slipEnded
    split <;> exact hu
  · unfold dropLock
    rw [hport, hl, if_neg (Ne.symm hk), if_pos rfl, enters_eq hr]
    generalize silenceLanes p (e.entered p r k) = quiet
    have hb : bypassed { e with ports := upd e.ports p fun _ => r } p = true ↔ p = 0 ∧ e.clk.active = .port0 := by
      simp [bypassed]
    by_cases hact : p = 0 ∧ e.clk.active = .port0
    · rw [if_pos hact]
      dsimp only
      rw [if_pos (hb.2 hact), hact.1]
      rfl
    · rw [if_neg hact]
      dsimp only
      rw [if_neg fun h => hact (hb.1 h)]
      unfold dropWaiting Engine.unawaited
      split <;> rfl

end

/-- A port that has left LOCKED leaves the lanes silent that it fed, whatever the clock source is then. -/
theorem leaves_silent {e quiet : Engine} {p : PortIx} {r : Port} {k : Lock} (h : quiet.silences (e.entered p r k) p) (ev : Event) :
    (if p = 0 ∧ e.clk.active = .port0 then (quiet.reports ev).fallenBack else (quiet.reports ev).unawaited p).silent e p := by
  have hentered : e.lanes = (e.entered p r k).lanes ∧ e.heard = (e.entered p r k).heard ∧ e.cues = (e.entered p r k).cues := by
    unfold Engine.entered Engine.slipEnded
    split <;> exact ⟨rfl, rfl, rfl⟩
  refine Engine.silent.of h.1 ?_ hentered
  split
  · exact ⟨rfl, rfl, rfl, rfl, rfl⟩
  · unfold Engine.unawaited
    split <;> exact ⟨rfl, rfl, rfl, rfl, rfl⟩

/-- The port itself after it has taken a lock state. -/
theorem dropLock_port (p : PortIx) (k : Lock) (e : Engine) :
    (dropLock p k e).ports[p] = if e.ports[p].lock = k then e.ports[p] else (e.ports[p]).enters k := by
  have hdrop : ∀ E : Engine, (dropWaiting p E).ports = E.ports := fun E => by
    unfold dropWaiting
    split <;> rfl
  have henter : (modPort p (fun q => { q.emptied with lock := k, markerSeen := q.markerSeen && q.lock != .disabled })
      (endRecovery p e)).ports[p] = (e.ports[p]).enters k := by
    rw [leaveLock_eq]
    unfold Engine.slipEnded
    split
    · exact upd_self e.ports p _
    · exact upd_self e.ports p _
  unfold dropLock
  by_cases hk : e.ports[p].lock = k
  · rw [if_pos hk, if_pos hk]
  · rw [if_neg hk, if_neg hk]
    generalize modPort p _ (endRecovery p e) = E at henter ⊢
    dsimp only
    have hports : ∀ E', (post (.laneLock p k) (dropWaiting p (silenceLanes p E'))).ports = E'.ports := fun E' => by
      rw [post_ports, hdrop, silenceLanes_ports]
    by_cases hl : e.ports[p].lock = .locked
    · rw [if_pos hl, ← henter]
      refine congrArg (fun x : Vector Port 4 => x[p]) ((?_ : Engine.ports _ = _).trans (hports E))
      split <;> rfl
    · rw [if_neg hl, ← henter]
      rfl

theorem dropLock_held (p : PortIx) (k : Lock) (e : Engine) : (dropLock p k e).ports[p].held = e.ports[p].held := by
  rw [dropLock_port]
  split <;> rfl

/-! ## PORT_SET -/

/-- The settings of a PORT_SET. -/
def Port.set (q : Port) (on lsb : Bool) (fill : Nat) : Port := { q with enabled := on, lsbFirst := lsb, fill := fill }

theorem portSet_sets (p : PortIx) (on lsb : Bool) (fill : Byte) {e E T : Engine}
    (hE : E = { e with ports := upd e.ports p fun _ => (e.ports[p]).set on lsb (within 2 14 fill.toNat) })
    (hT : (if on = false then dropLock p .disabled E
      else if e.ports[p].lock = .disabled ∧ e.ports[p].held = false then dropLock p .searching E else E) = T) :
    portSet [byte p.val, flagByte on, flagByte lsb, fill] e
      = (T, { status := clampedUnless (2 ≤ fill.toNat ∧ fill.toNat ≤ 14), data := portReply T.ports[p] }) := by
  have hset : modPort p (fun q => { q with enabled := on })
      (modPort p (fun q => { q with lsbFirst := lsb, fill := within 2 14 fill.toNat }) e) = E := by
    rw [hE]
    simp only [modPort, upd_upd]
    rw [upd_value]
    rfl
  have hport : E.ports[p] = (e.ports[p]).set on lsb (within 2 14 fill.toNat) := by
    rw [hE]
    exact upd_self e.ports p _
  have henable : enablePort p on (modPort p (fun q => { q with lsbFirst := lsb, fill := within 2 14 fill.toNat }) e)
      = T := by
    unfold enablePort
    rw [hset, ← hT]
    dsimp only
    rw [hport]
    rfl
  simp only [portSet, List.length_cons, List.length_nil, fieldAt_later, fieldAt_byte, ix?_byte p, flag?_byte, ne_eq,
    not_true_eq_false, if_false, Nat.reduceAdd]
  have hf : clampNat 2 14 fill.toNat = within 2 14 fill.toNat := clampNat_eq (by decide) _
  simp only [hf]
  rw [bne, within_beq (by decide), clampStatus_not]
  exact congrArg (fun T : Engine => (T, ({ status := clampedUnless (2 ≤ fill.toNat ∧ fill.toNat ≤ 14)
                                           data := portReply T.ports[p] } : Answer))) henable

theorem portSet_outOfRange {p on lsb : Byte} (fill : Byte) (h : 4 ≤ p.toNat ∨ 2 ≤ on.toNat ∨ 2 ≤ lsb.toNat) (e : Engine) :
    portSet [p, on, lsb, fill] e = refuse .outOfRange e := by
  simp only [portSet, List.length_cons, List.length_nil, fieldAt_later, fieldAt_byte, ne_eq, not_true_eq_false, if_false,
    Nat.reduceAdd]
  obtain h | h | h := h
  · rw [ix?_none h]
  · rw [flag?_none h]
    cases ix? 4 p.toNat <;> rfl
  · rw [flag?_none h]
    cases ix? 4 p.toNat <;> cases flag? on.toNat <;> rfl

/-! ## BLOCK_HOLD and BLOCK_RELEASE -/

theorem blockCommand_does {act : Nat → Engine → Engine} {b : Byte} (hb : b.toNat ≤ 5) {e T : Engine} (hT : act b.toNat e = T) :
    blockCommand act [b] e = (T, { status := .ok, data := [flagField (blockHeld b.toNat T)] }) := by
  simp only [blockCommand, List.length_cons, List.length_nil, fieldAt_byte, ne_eq, not_true_eq_false, if_false, Nat.reduceAdd]
  rw [if_neg (by omega), hT]

theorem blockCommand_outOfRange {act : Nat → Engine → Engine} {b : Byte} (hb : 6 ≤ b.toNat) (e : Engine) :
    blockCommand act [b] e = refuse .outOfRange e := by
  simp only [blockCommand, List.length_cons, List.length_nil, fieldAt_byte, ne_eq, not_true_eq_false, if_false, Nat.reduceAdd]
  rw [if_pos (by omega)]

/-- The number of a port's block. -/
theorem portBlock_toNat (p : PortIx) : (byte (1 + p.val)).toNat = 1 + p.val := by
  revert p
  decide

theorem portBlock (p : PortIx) : ix? 4 (1 + p.val - 1) = some p := by
  rw [Nat.add_sub_cancel_left]
  exact ix?_val p

theorem holdBlock_port (p : PortIx) (e : Engine) : holdBlock (1 + p.val) e = holdPort p e := by
  unfold holdBlock
  rw [if_neg (by omega), portBlock]

theorem releaseBlock_port (p : PortIx) (e : Engine) : releaseBlock (1 + p.val) e = releasePort p e := by
  unfold releaseBlock
  rw [if_neg (by omega), portBlock]

theorem blockHeld_port (p : PortIx) (e : Engine) : blockHeld (1 + p.val) e = e.ports[p].held := by
  unfold blockHeld
  rw [if_neg (by omega), portBlock]

section
variable {e : Engine}

/-- The follower as it is held, but for the notes of an onset (R39). -/
def heldFollower (e : Engine) : Engine :=
  if e.fol.held then e
  else setFollowState .off .hold { e with fol := { e.fol.restDetector with held := true } }

/-- The follower as it is released, but for the notes of an onset (R40). -/
def releasedFollower (e : Engine) : Engine :=
  if e.fol.held then
    let e1 := { e with fol := { e.fol.restDetector with held := false } }
    if e.fol.source = .none then e1 else setFollowState .waiting .release e1
  else e

theorem setFollowState_same {st : FollowState} (cause : FollowCause) (h : e.fol.state = st) :
    setFollowState st cause e = { e with fol := { e.fol with err := 0, delta := 0, beatCount := 0, coastDue := false } } := by
  unfold setFollowState
  rw [if_pos h, ← h]

theorem setFollowState_moves {st : FollowState} (cause : FollowCause) (h : e.fol.state ≠ st) :
    setFollowState st cause e = ({ e with fol := { e.fol with
      state := st, err := 0, delta := 0, beatCount := 0, coastDue := false } } : Engine).reports (.followState st cause) := by
  unfold setFollowState
  rw [if_neg h]
  rfl

end

end Sys2Proof.Machine

namespace Sys2Proof.Settled
open Sys2Proof.Machine

/-- Settles O19: the settings are written, and the lock state the port takes then is told. -/
theorem portSet : Obligations.PortSet := by
  intro s m rest
  refine ⟨fun p on lsb fill h => ?_, fun p on lsb fill h hout => commandRow_refuses h (portSet_outOfRange fill hout s.eng)⟩
  intro q f q1 q2 after put
  have hr : q1.lock = q.lock ∧ q1.recovery = q.recovery ∧ q1.slip = q.slip := ⟨rfl, rfl, rfl⟩
  have hrow : ∀ T : Engine, (if on = false then dropLock p .disabled (put q1)
      else if q.lock = .disabled ∧ q.held = false then dropLock p .searching (put q1) else put q1) = T →
      ∀ k, T.ports[p] = { T.ports[p] with enabled := on, lsbFirst := lsb, fill := f, held := q.held, lock := k } →
      exec .portSet s = .next (after k T) := fun T hT k hport => by
    refine commandRow_answers h ((portSet_sets p on lsb fill rfl hT).trans ?_)
    rw [hport]
    rfl
  have hput : (put q1).ports[p] = q1 := upd_self s.eng.ports p _
  have hdrop : ∀ k, q.lock ≠ k → (if on = false then dropLock p .disabled (put q1)
      else if q.lock = .disabled ∧ q.held = false then dropLock p .searching (put q1) else put q1) = dropLock p k (put q1) →
      exec .portSet s = .next (after k (dropLock p k (put q1))) := fun k hk hT => by
    refine hrow _ hT k ?_
    rw [dropLock_port, hput, if_neg (show q1.lock ≠ k from hk)]
    rfl
  have hoffs : on = false → q.lock ≠ .disabled → exec .portSet s = .next (after .disabled (dropLock p .disabled (put q1))) :=
    fun hoff hl => hdrop .disabled hl (if_pos hoff)
  refine ⟨fun hkeep => hrow _ ?_ _ ?_, fun hon hl hh => ?_, fun hoff hl => ?_⟩
  · rcases hkeep with ⟨hon, hk⟩ | ⟨hoff, hk⟩
    · rw [if_neg (by rw [hon]; decide), if_neg fun hn => hk.elim (fun h => h hn.1) fun h => by rw [hn.2] at h; cases h]
    · rw [if_pos hoff]
      exact dropLock_same ((congrArg Port.lock hput).trans hk)
  · rw [hput]
  · intro found
    refine (hdrop .searching (by rw [hl]; decide) ((if_neg (by rw [hon]; decide)).trans (if_pos ⟨hl, hh⟩))).trans ?_
    have hmarker : q1.enters .searching = { q2 with lock := .searching, markerSeen := false } := by
      have hne : (q.lock != .disabled) = false := bne_eq_false_iff_eq.2 hl
      show ({ q1.emptied with lock := _, markerSeen := q.markerSeen && q.lock != .disabled } : Port) = _
      rw [hne, Bool.and_false]
      rfl
    rw [dropLock_quiet hr (by rw [hl]; decide) (by rw [hl]; decide), Engine.entered, hmarker]
  · intro off
    have hmarker : q1.enters .disabled = { q2 with lock := .disabled } := by
      have hne : (q.lock != .disabled) = true := bne_iff_ne.2 hl
      show ({ q1.emptied with lock := _, markerSeen := q.markerSeen && q.lock != .disabled } : Port) = _
      rw [hne, Bool.and_true]
      rfl
    have hoffeq : off = (s.eng.entered p q1 .disabled).reports (.laneLock p .disabled) := by
      unfold Engine.entered
      rw [hmarker]
    have hX : (put { q2 with lock := .disabled }).slipEnded p q = s.eng.entered p q1 .disabled := by
      unfold Engine.entered
      rw [hmarker]
    rw [hX, hoffs hoff hl]
    refine ⟨fun hs => ?_, fun hk hu hb => ?_, fun hk hu h0 ha => ?_, fun hk => ?_, fun hk => ?_⟩
    · rw [dropLock_quiet hr (by rw [hs]; decide) hl, hoffeq]
    · obtain ⟨quiet, -, hq, hlock⟩ := dropLock_leaves hr hk (k := .disabled) (by decide)
      rw [hlock, if_neg hb, hq hu, hoffeq]
    · obtain ⟨quiet, -, hq, hlock⟩ := dropLock_leaves hr hk (k := .disabled) (by decide)
      rw [hlock, if_pos ⟨h0, ha⟩, hq hu, hoffeq]
    · obtain ⟨quiet, hsil, -, hlock⟩ := dropLock_leaves hr hk (k := .disabled) (by decide)
      exact ⟨quiet, hsil, by rw [hlock]⟩
    · obtain ⟨quiet, hsil, -, hlock⟩ := dropLock_leaves hr hk (k := .disabled) (by decide)
      exact ⟨_, rfl, hlock ▸ leaves_silent hsil _⟩

/-- Settles O39: the three kinds of block, each held and released. -/
theorem blockHolds : Obligations.BlockHolds := by
  intro s m rest e held follows
  refine ⟨fun h => ?holdFol, fun h => ?relFol, fun p h => ?holdPort, fun p h => ?relPort, fun h => ?holdPed, fun h => ?relPed,
    fun b hb => ⟨fun h => commandRow_refuses h (blockCommand_outOfRange hb s.eng), fun h =>
      commandRow_refuses h (blockCommand_outOfRange hb s.eng)⟩⟩
  case holdFol =>
    intro f
    have hdoes : ∀ X, heldFollower e = X → X.fol.held = true → X.heard = e.heard → follows .blockHold true X :=
      fun X hX hheld hheard => by
        obtain ⟨heard, hnone, hgives⟩ := onFollower_gives (f := heldFollower) (e := e) (by rw [hX, hheard])
        rw [hX] at hgives
        refine ⟨heard, fun hn => hnone (hheard.symm.trans hn), ?_⟩
        refine (commandRow_answers h (blockCommand_does (by decide) hgives)).trans ?_
        show Host.Outcome.next (s.answered m rest .ok [flagField X.fol.held] _) = _
        rw [hheld]
        rfl
    refine ⟨fun hh hst => hdoes _ ?_ rfl rfl, fun hh hst => hdoes _ ?_ rfl rfl, fun hh => hdoes _ (if_pos hh) hh rfl⟩
    · unfold heldFollower
      rw [if_neg (by rw [hh]; decide), setFollowState_moves _ (by exact hst)]
      rfl
    · unfold heldFollower
      rw [if_neg (by rw [hh]; decide), setFollowState_same _ (by exact hst)]
      exact congrArg (fun st => { e with fol := { f with state := st } }) hst
  case relFol =>
    intro f
    have hdoes : ∀ X, releasedFollower e = X → X.fol.held = false → X.heard = e.heard → follows .blockRelease false X :=
      fun X hX hheld hheard => by
        obtain ⟨heard, hnone, hgives⟩ := onFollower_gives (f := releasedFollower) (e := e) (by rw [hX, hheard])
        rw [hX] at hgives
        refine ⟨heard, fun hn => hnone (hheard.symm.trans hn), ?_⟩
        refine (commandRow_answers h (blockCommand_does (by decide) hgives)).trans ?_
        show Host.Outcome.next (s.answered m rest .ok [flagField X.fol.held] _) = _
        rw [hheld]
        rfl
    refine ⟨fun hh hst hsrc => hdoes _ ?_ rfl rfl, fun hh hsrc => hdoes _ ?_ rfl rfl, fun hh => hdoes _ (if_neg (by
      rw [hh]; decide)) hh rfl⟩
    · unfold releasedFollower
      rw [if_pos hh]
      dsimp only
      rw [if_neg hsrc, setFollowState_moves _ (by show e.fol.state ≠ _; rw [hst]; decide)]
      rfl
    · unfold releasedFollower
      rw [if_pos hh]
      exact if_pos hsrc
  case holdPort =>
    have hdoes : ∀ X, holdPort p e = X → X.ports[p].held = true → held .blockHold true X := fun X hX hheld => by
      refine (commandRow_answers h (blockCommand_does (T := X) (by rw [portBlock_toNat]; omega) ?_)).trans ?_
      · rw [portBlock_toNat, holdBlock_port, hX]
      · rw [portBlock_toNat, blockHeld_port, hheld]
    refine ⟨fun hh hl => ?_, fun hh hl => hdoes _ ?_ ?_, fun hh => hdoes _ (if_pos hh) hh⟩
    · intro ports off
      obtain ⟨r, hrdef⟩ : ∃ r : Port, r = { e.ports[p] with held := true } := ⟨_, rfl⟩
      have hr : r.lock = e.ports[p].lock ∧ r.recovery = e.ports[p].recovery ∧ r.slip = e.ports[p].slip := by
        rw [hrdef]
        exact ⟨rfl, rfl, rfl⟩
      have hmarker : r.enters .disabled = { r.emptied with lock := .disabled } := by
        have hne : (r.lock != .disabled) = true := bne_iff_ne.2 (hr.1 ▸ hl)
        unfold Port.enters
        rw [hne, Bool.and_true]
        rfl
      have hports : ports = upd e.ports p fun _ => r.enters .disabled := by
        rw [hmarker, hrdef]
        exact upd_value e.ports p _
      have hoff : off = (e.entered p r .disabled).reports (.laneLock p .disabled) := by
        unfold Engine.entered
        rw [← hports]
      have hX : ({ e with ports := ports } : Engine).slipEnded p e.ports[p] = e.entered p r .disabled := by
        unfold Engine.entered
        rw [← hports]
      have hput : modPort p (fun q => { q with held := true }) e = { e with ports := upd e.ports p fun _ => r } := by
        rw [hrdef, modPort, upd_value]
      have hholds : exec .blockHold s = .next (s.answered m rest .ok [flagField true]
          (dropLock p .disabled { e with ports := upd e.ports p fun _ => r })) := by
        refine hdoes _ ?_ ?_
        · rw [holdPort, if_neg (by rw [hh]; decide), hput]
        · rw [dropLock_held, hrdef]
          exact congrArg Port.held (upd_self e.ports p _)
      rw [hX]
      simp only [held]
      rw [hholds]
      refine ⟨fun hs => ?_, fun hk hu hb => ?_, fun hk hu h0 ha => ?_, fun hk => ?_, fun hk => ?_⟩
      · rw [dropLock_quiet hr (by rw [hs]; decide) hl, hoff]
      · obtain ⟨quiet, -, hq, hlock⟩ := dropLock_leaves hr hk (k := .disabled) (by decide)
        rw [hlock, if_neg hb, hq hu, hoff]
      · obtain ⟨quiet, -, hq, hlock⟩ := dropLock_leaves hr hk (k := .disabled) (by decide)
        rw [hlock, if_pos ⟨h0, ha⟩, hq hu, hoff]
      · obtain ⟨quiet, hsil, -, hlock⟩ := dropLock_leaves hr hk (k := .disabled) (by decide)
        exact ⟨quiet, hsil, by rw [hlock]⟩
      · obtain ⟨quiet, hsil, -, hlock⟩ := dropLock_leaves hr hk (k := .disabled) (by decide)
        exact ⟨_, rfl, hlock ▸ leaves_silent hsil _⟩
    · rw [holdPort, if_neg (by rw [hh]; decide)]
      exact dropLock_same ((congrArg Port.lock (upd_self e.ports p _)).trans hl)
    · exact congrArg Port.held (upd_self e.ports p _)
  case relPort =>
    have hdoes : ∀ X, releasePort p e = X → X.ports[p].held = false → held .blockRelease false X := fun X hX hheld => by
      refine (commandRow_answers h (blockCommand_does (T := X) (by rw [portBlock_toNat]; omega) ?_)).trans ?_
      · rw [portBlock_toNat, releaseBlock_port, hX]
      · rw [portBlock_toNat, blockHeld_port, hheld]
    refine ⟨fun hh hen hl => hdoes _ ?_ ?_, fun hh hen => hdoes _ ?_ ?_, fun hh => hdoes _ (if_neg (by rw [hh]; decide)) hh⟩
    · rw [releasePort, if_pos hh]
      dsimp only
      obtain ⟨r, hrdef⟩ : ∃ r : Port, r = { e.ports[p] with held := false } := ⟨_, rfl⟩
      have hr : r.lock = e.ports[p].lock ∧ r.recovery = e.ports[p].recovery ∧ r.slip = e.ports[p].slip := by
        rw [hrdef]
        exact ⟨rfl, rfl, rfl⟩
      have hmarker : r.enters .searching = { r.emptied with lock := .searching, markerSeen := false } := by
        have hne : (r.lock != .disabled) = false := bne_eq_false_iff_eq.2 (hr.1.trans hl)
        unfold Port.enters
        rw [hne, Bool.and_false]
      have hput : modPort p (fun q => { q with held := false }) e = { e with ports := upd e.ports p fun _ => r } := by
        rw [hrdef, modPort, upd_value]
      rw [if_pos hen, hput, dropLock_quiet hr (by rw [hl]; decide) (by rw [hl]; decide), Engine.entered, hmarker, hrdef,
        ← upd_value e.ports p fun q => { ({ q with held := false } : Port).emptied with lock := .searching, markerSeen := false }]
      rfl
    · show ((({ e with ports := _ } : Engine).slipEnded p e.ports[p]).reports (.laneLock p .searching)).ports[p].held = false
      unfold Engine.slipEnded
      split <;> exact congrArg Port.held (upd_self e.ports p _)
    · rw [releasePort, if_pos hh]
      dsimp only
      rw [if_neg (by rw [hen]; decide)]
      rfl
    · exact congrArg Port.held (upd_self e.ports p _)
  case holdPed =>
    exact commandRow_answers h (blockCommand_does (act := holdBlock) (b := 5) (by decide) (e := s.eng) rfl)
  case relPed =>
    have hdoes : ∀ X, releasePedals e = X → X.ped.held = false → held .blockRelease false X := fun X hX hheld => by
      refine (commandRow_answers h (blockCommand_does (T := X) (b := 5) (by decide) hX)).trans ?_
      show Host.Outcome.next (s.answered m rest .ok [flagField X.ped.held] X) = _
      rw [hheld]
    have hseeds := fun i => foldl_quadIxs_get (fun (_ : Fin 4) c => { c with seed := true }) e.ped.chan i
    refine ⟨fun hh => ⟨(quadIxs.foldl (fun ch i => upd ch i fun c => { c with seed := true }) e.ped.chan), hseeds,
      hdoes _ (if_pos hh) rfl⟩, fun hh => hdoes _ (if_neg (by rw [hh]; decide)) hh⟩

end Sys2Proof.Settled
end

section
/-! CLOCK_SET: what the cues of the frame that a relock ends leave alone, the relock port by port, and the sources. -/

set_option Elab.async false

namespace Sys2Proof.Machine

/-! ## What a cue that executes leaves alone -/

/-- Engine `t` has the clock, the ports, the lanes, the pedals, the transfer, the frames of loop memory and the mixer of
engine `a`, but for the clip window: what no cue that executes touches. -/
structure Sides (a t : Engine) : Prop where
  clk : t.clk = a.clk
  ports : t.ports = a.ports
  lanes : t.lanes = a.lanes
  ped : t.ped = a.ped
  xfer : t.xfer = a.xfer
  cells : t.mem.cells = a.mem.cells
  mix : { t.mix with window := a.mix.window, clipReported := a.mix.clipReported } = a.mix

theorem Sides.refl (a : Engine) : Sides a a := ⟨rfl, rfl, rfl, rfl, rfl, rfl, rfl⟩

section
variable {a e : Engine}

theorem Sides.ite {c : Prop} [Decidable c] {x y : Engine} (hx : Sides a x) (hy : Sides a y) :
    Sides a (if c then x else y) := by
  split
  · exact hx
  · exact hy

theorem post_sides (ev : Event) (h : Sides a e) : Sides a (post ev e) := { h with }

theorem onFollower_sides {f : Engine → Engine} (hf : ∀ e, Sides a e → Sides a (f e)) (h : Sides a e) :
    Sides a (onFollower f e) := by
  obtain ⟨heard, he⟩ := onFollower_only f e
  rw [he]
  exact { hf e h with }

theorem setFollowState_sides (st : FollowState) (c : FollowCause) (h : Sides a e) :
    Sides a (setFollowState st c e) := by
  unfold setFollowState
  split
  · exact { h with }
  · exact post_sides _ { h with }

theorem setLayerState_sides (l : LayerIx) (st : LayerState) (c : LayerCause) (n : Nat) (h : Sides a e) :
    Sides a (setLayerState l st c n e) := post_sides _ { h with }

theorem freeChain_sides (l : LayerIx) (chain : Option (List Nat)) (h : Sides a e) :
    Sides a (freeChain l chain e) := by
  unfold freeChain
  split
  · exact { h with }
  · exact h

theorem leaveSplice_sides (v : LayerIx) (h : Sides a e) : Sides a (leaveSplice v e) := by
  unfold leaveSplice
  split
  · exact h
  · split
    · exact { h with }
    · exact h
  · split
    · exact { h with }
    · exact h

theorem playVoice_sides (l : LayerIx) (h : Sides a e) : Sides a (playVoice l e) := by
  unfold playVoice
  split
  · exact { h with }
  · exact h

theorem stopVoice_sides (l : LayerIx) (h : Sides a e) : Sides a (stopVoice l e) := by
  have h1 := leaveSplice_sides l h
  unfold stopVoice
  dsimp only
  split
  · exact { h1 with }
  · exact h1

theorem clearVoice_sides (l : LayerIx) (h : Sides a e) : Sides a (clearVoice l e) :=
  { leaveSplice_sides l h with }

theorem modVoices_sides (f : Engine → LayerIx → Voice → Voice) (vs : List LayerIx) (h : Sides a e) :
    Sides a (vs.foldl (fun e v => modVoice v (f e v) e) e) :=
  foldl_induct (fun _ _ h => { h with }) vs h

theorem discardStreams_sides (vs : List LayerIx) (h : Sides a e) : Sides a (discardStreams vs e) :=
  modVoices_sides _ vs h

theorem abandonSplice_sides (r : SkipReason) (h : Sides a e) : Sides a (abandonSplice r e) := by
  unfold abandonSplice
  split
  · exact post_sides _ (discardStreams_sides _ { h with })
  · exact h

theorem captureStops_sides (h : Sides a e) : Sides a (captureStops e) := by
  unfold captureStops
  split
  · split
    · exact discardStreams_sides _ { h with }
    · exact abandonSplice_sides _ h
  · exact h

theorem endCrossfade_sides (h : Sides a e) : Sides a (endCrossfade e) := by
  unfold endCrossfade
  split
  · exact modVoices_sides _ _ { h with }
  · exact h

theorem reclaimOne_sides (l : LayerIx) (k : AgeKind) (h : Sides a e) : Sides a (reclaimOne l k e) :=
  post_sides _ { freeChain_sides l _ h with }

theorem reclaimWalk_sides (need extra : Nat) (own : Option LayerIx) :
    ∀ (list : List (LayerIx × AgeKind)) {e : Engine}, Sides a e → Sides a (reclaimWalk need extra own list e)
  | [], _, h => h
  | (l, k) :: rest, _, h => by
    unfold reclaimWalk
    split
    · exact h
    · split
      · exact reclaimWalk_sides need extra own rest h
      · exact reclaimWalk_sides need extra own rest (reclaimOne_sides l k h)

theorem allocChain_sides (n : Nat) (h : Sides a e) : Sides a (allocChain n e).2 := by
  have h1 := reclaimWalk_sides n 0 none e.mem.age h
  unfold allocChain
  dsimp only
  split
  · exact { h1 with }
  · exact h1

theorem grantHold_sides (l : LayerIx) (h : Sides a e) : Sides a (grantHold l e) := by
  unfold grantHold
  split
  · exact post_sides _ { h with }
  · exact h

theorem grantHolds_sides (h : Sides a e) : Sides a (grantHolds e) :=
  eachLayer_induct (fun l _ h => grantHold_sides l h) h

theorem closeGap_sides (s : SlotIx) (h : Sides a e) : Sides a (closeGap s e) := by
  unfold closeGap
  split
  · exact post_sides _ { h with }
  · exact h

theorem releaseSlot_sides (l : LayerIx) (h : Sides a e) : Sides a (releaseSlot l e) := by
  unfold releaseSlot
  split
  · exact { h with }
  · exact h

theorem endSlot_sides (l : LayerIx) (h : Sides a e) : Sides a (endSlot l e) := by
  unfold endSlot
  split
  · exact releaseSlot_sides l (closeGap_sides _ h)
  · exact h

theorem closeEarly_sides (l : LayerIx) (n : Nat) (h : Sides a e) : Sides a (closeEarly l n e) := by
  unfold closeEarly
  split
  · exact playVoice_sides l (setLayerState_sides _ _ _ _ { endSlot_sides l h with })
  · exact h

theorem endOverdub_sides (l : LayerIx) (h : Sides a e) : Sides a (endOverdub l e) :=
  Sides.ite { endSlot_sides l h with } (endSlot_sides l h)

theorem stopLayer_sides (l : LayerIx) (n : Nat) (h : Sides a e) : Sides a (stopLayer l n e) :=
  stopVoice_sides l (setLayerState_sides _ _ _ _ (Sides.ite (endOverdub_sides l h) h : Sides a (endIfOverdubbing l e)))

theorem playLayer_sides (l : LayerIx) (n : Nat) (h : Sides a e) : Sides a (playLayer l n e) :=
  playVoice_sides l (setLayerState_sides _ _ _ _ h)

theorem finishOverdub_sides (l : LayerIx) (n : Nat) (h : Sides a e) : Sides a (finishOverdub l n e) :=
  setLayerState_sides _ _ _ _ (endOverdub_sides l h)

theorem releaseLayer_sides (l : LayerIx) (h : Sides a e) : Sides a (releaseLayer l e) := by
  have h1 : Sides a (dropJob l (releaseSlot l e)) := { releaseSlot_sides l h with }
  have h2 : Sides a (dropAge l (freeChain l e.layers[l].redo (freeChain l e.layers[l].undo
      (freeChain l e.layers[l].cur (dropJob l (releaseSlot l e)))))) :=
    { freeChain_sides l _ (freeChain_sides l _ (freeChain_sides l _ h1)) with }
  exact { clearVoice_sides l h2 with }

theorem emptyLayer_sides (l : LayerIx) (c : LayerCause) (n : Nat) (h : Sides a e) : Sides a (emptyLayer l c n e) :=
  setLayerState_sides _ _ _ _ (releaseLayer_sides l h)

theorem disarm_sides (l : LayerIx) (n : Nat) (h : Sides a e) : Sides a (disarm l n e) :=
  Sides.ite (setLayerState_sides _ _ _ _ { h with }) h

theorem undoLayer_sides (l : LayerIx) (h : Sides a e) : Sides a (undoLayer l e) := by
  have h0 : Sides a (dropJobs (fun j => j.layer == l && j.kind == .finishCopy) e) := { h with }
  exact Sides.ite { freeChain_sides l e.layers[l].cur h0 with } { h with }

theorem startBase_sides (s : SlotIx) (l : LayerIx) (lane : LaneIx) (n : Nat) (h : Sides a e) :
    Sides a (startBase s l lane n e) := by
  have h3 : Sides a (setLayerState l .capturing .cue n
      (modLayer l (fun r => { r with cur := some [] }) (takeSlot s .base l lane none e))) :=
    setLayerState_sides _ _ _ _ { h with }
  exact { h3 with }

theorem startFixed_sides (s : SlotIx) (l : LayerIx) (n : Nat) (lane : LaneIx) (pages : List Nat) (num : Nat)
    (h : Sides a e) : Sides a (startFixed s l n lane pages num e) :=
  captureStops_sides (setLayerState_sides _ _ _ _ { h with })

theorem overdubChains_sides (l : LayerIx) (n : Nat) (h : Sides a e) : Sides a (overdubChains l n e) := by
  unfold overdubChains
  extract_lets r e1 t
  have h1 : Sides a e1 := { freeChain_sides l r.undo (freeChain_sides l r.redo h) with }
  clear_value e1
  exact { h1 with }

theorem startOverdub_sides (s : SlotIx) (l : LayerIx) (lane : LaneIx) (level fb n : Nat) (h : Sides a e) :
    Sides a (startOverdub s l lane level fb n e) := by
  unfold startOverdub
  extract_lets i e1 e2 e3 e4
  have h3 : Sides a e3 := { overdubChains_sides l (pagesFor (layerLen e l)) h with }
  have h4 : Sides a e4 := leaveSplice_sides l (captureStops_sides (setLayerState_sides _ _ _ _ h3))
  exact { h4 with }

theorem followBeat_sides (h : Sides a e) : Sides a (followBeat e) :=
  onFollower_sides (fun _ h => Sides.ite { h with } h) h

theorem coast_sides (h : Sides a e) : Sides a (coast e) :=
  onFollower_sides (fun _ h => Sides.ite (setFollowState_sides _ _ h) h) h

theorem followLapse_sides (c : FollowCause) (h : Sides a e) : Sides a (followLapse c e) :=
  onFollower_sides (fun _ h => Sides.ite (setFollowState_sides _ _ h) h) h

theorem clearDecision_sides (h : Sides a e) : Sides a (clearDecision e) :=
  onFollower_sides (fun _ h => { h with }) h

theorem noteGrid_sides (h : Sides a e) : Sides a (noteGrid e) := { h with }

theorem countCues_sides (b : Boundary) (w : Nat) (h : Sides a e) : Sides a (countCues b w e) := { h with }

theorem beatBoundary_sides (w : Nat) (h : Sides a e) : Sides a (beatBoundary w e) :=
  followBeat_sides (countCues_sides _ w (post_sides _ h))

theorem bareBoundary_sides (w : Nat) (h : Sides a e) : Sides a (bareBoundary w e) :=
  beatBoundary_sides w (countCues_sides _ w { h with })

theorem cycleBoundary_sides (w : Nat) (h : Sides a e) : Sides a (cycleBoundary w e) :=
  eachLayer_induct (fun _ _ h => Sides.ite (countCues_sides _ w (post_sides _ h)) h) (bareBoundary_sides w h)

theorem startCycle_sides (len : Nat) (h : Sides a e) : Sides a (startCycle len e) := clearDecision_sides { h with }

theorem closeBase_sides (l : LayerIx) (count : Nat) (c : LayerCause) (n w : Nat) (h : Sides a e) :
    Sides a (closeBase l count c n w e) := by
  unfold closeBase
  extract_lets e1 e2
  have h1 : Sides a e1 := startCycle_sides count (endSlot_sides l h)
  clear_value e1
  exact post_sides _ (cycleBoundary_sides w (playVoice_sides l (setLayerState_sides _ _ _ _ { h1 with })))

theorem leaveBase_sides (h : Sides a e) : Sides a (leaveBase e) :=
  clearDecision_sides (followLapse_sides _ { h with })

theorem autoClose_sides (h : Sides a e) : Sides a (autoClose e) := by
  unfold autoClose
  split
  · split
    next l n _ => exact grantHolds_sides (noteGrid_sides (closeBase_sides l n .autoClose 0 0 h))
    · exact h
  · exact h

theorem enterPaused_sides (h : Sides a e) : Sides a (enterPaused e) :=
  followLapse_sides _ (endCrossfade_sides (abandonSplice_sides _ { h with }))

theorem returnToUnset_sides (h : Sides a e) : Sides a (returnToUnset e) :=
  post_sides _ (clearDecision_sides (followLapse_sides _ (endCrossfade_sides (abandonSplice_sides _ { h with }))))

theorem removeCue_sides (n : Nat) (h : Sides a e) : Sides a (removeCue n e) := { h with }

theorem deferCue_sides (n : Nat) (h : Sides a e) : Sides a (deferCue n e) := { h with }

/-- The engine an action leaves has its sides. -/
def SidesOut (a : Engine) (out : Outcome) : Prop := Sides a out.1

theorem SidesOut.ite {c : Prop} [Decidable c] {x y : Outcome} (hx : SidesOut a x) (hy : SidesOut a y) :
    SidesOut a (if c then x else y) := by
  split
  · exact hx
  · exact hy

theorem done_sides (h : Sides a e) : SidesOut a (done e) := h

theorem failed_sides (r : FailReason) (h : Sides a e) : SidesOut a (failed r e) := h

theorem recordCue_sides (n : Nat) (lane : LaneIx) (num : Nat) (l : LayerIx) (h : Sides a e) :
    SidesOut a (recordCue n lane num l e) := by
  have h1 := allocChain_sides (pagesFor (n * e.cyc.c)) h
  unfold recordCue
  extract_lets r
  refine SidesOut.ite (failed_sides _ h) ?_
  split
  · refine SidesOut.ite (failed_sides _ h) ?_
    split
    · exact failed_sides _ h
    · exact done_sides (startBase_sides _ l lane num h)
  · refine SidesOut.ite (failed_sides _ h) ?_
    split
    · exact failed_sides _ h
    · split
      next hal => rw [hal] at h1; exact failed_sides _ h1
      next hal => rw [hal] at h1; exact done_sides (startFixed_sides _ l n lane _ num h1)
  · exact failed_sides _ h

theorem closeBaseCue_sides (l : LayerIx) (count n w : Nat) (h : Sides a e) : SidesOut a (closeBaseCue l count n w e) :=
  SidesOut.ite (failed_sides _ (leaveBase_sides (emptyLayer_sides l _ n h))) (done_sides (closeBase_sides l count _ n w h))

theorem closeCue_sides (n w : Nat) (l : LayerIx) (h : Sides a e) : SidesOut a (closeCue n w l e) := by
  refine SidesOut.ite (failed_sides _ h) ?_
  split
  · exact SidesOut.ite (closeBaseCue_sides l _ n w h) (done_sides (closeEarly_sides l n h))
  · exact done_sides (closeEarly_sides l n h)

theorem overdubCue_sides (lane : LaneIx) (level fb n : Nat) (l : LayerIx) (h : Sides a e) :
    SidesOut a (overdubCue lane level fb n l e) := by
  unfold overdubCue
  extract_lets r need own e1
  refine SidesOut.ite (failed_sides _ h) (SidesOut.ite (failed_sides _ h) (SidesOut.ite (failed_sides _ h) ?_))
  split
  · exact failed_sides _ h
  · have h1 : Sides a e1 := reclaimWalk_sides need own (some l) e.mem.age h
    exact SidesOut.ite (failed_sides _ h1) (done_sides (startOverdub_sides _ l lane level fb n h1))

theorem clearLayer_sides (n : Nat) (l : LayerIx) (h : Sides a e) : Sides a (clearLayer n l e) := by
  unfold clearLayer
  extract_lets e1 e2
  have h1 : Sides a e1 := Sides.ite h (emptyLayer_sides l _ n h)
  have h2 : Sides a e2 := Sides.ite (leaveBase_sides h1) h1
  exact Sides.ite (returnToUnset_sides h2) h2

theorem pauseLayer_sides (n : Nat) (l : LayerIx) (h : Sides a e) : Sides a (pauseLayer n l e) := by
  unfold pauseLayer
  split
  · exact finishOverdub_sides l n h
  · exact closeEarly_sides l n h
  · exact h

theorem pauseCue_sides (n w : Nat) (h : Sides a e) : SidesOut a (pauseCue n w e) := by
  unfold pauseCue
  split
  · exact done_sides (enterPaused_sides (eachLayer_induct (fun l _ h => pauseLayer_sides n l h) h))
  · split
    next l count _ =>
      have h1 := closeBaseCue_sides l count n w h
      split
      next hc => rw [hc] at h1; exact done_sides (enterPaused_sides h1)
      · exact h1
    · exact failed_sides _ h
  · exact failed_sides _ h

theorem clearAllLayer_sides (n : Nat) (l : LayerIx) (h : Sides a e) : Sides a (clearAllLayer n l e) :=
  Sides.ite h (Sides.ite (setLayerState_sides _ _ _ _ (releaseLayer_sides l h)) (emptyLayer_sides l _ n h))

theorem clearAllCue_sides (n : Nat) (h : Sides a e) : SidesOut a (clearAllCue n e) := by
  have h1 : Sides a (eachLayer (clearAllLayer n) e) := eachLayer_induct (fun l _ h => clearAllLayer_sides n l h) h
  refine SidesOut.ite (failed_sides _ h) ?_
  dsimp only
  split
  · exact done_sides (leaveBase_sides h1)
  · exact done_sides (returnToUnset_sides h1)
  · exact done_sides (returnToUnset_sides h1)
  · exact done_sides h1

theorem actOn_sides (c : Cue) (h : Sides a e) : SidesOut a (actOn c e) := by
  unfold actOn
  split
  · exact recordCue_sides _ _ _ _ h
  · exact closeCue_sides _ _ _ h
  · exact overdubCue_sides _ _ _ _ _ h
  · exact SidesOut.ite (done_sides (finishOverdub_sides _ _ h)) (failed_sides _ h)
  · exact SidesOut.ite (done_sides (playLayer_sides _ _ h)) (failed_sides _ h)
  · exact SidesOut.ite (done_sides (stopLayer_sides _ _ h)) (failed_sides _ h)
  · exact SidesOut.ite (failed_sides _ h) (done_sides { h with })
  · exact SidesOut.ite (failed_sides _ h) (done_sides { h with })
  · exact SidesOut.ite (failed_sides _ h) (SidesOut.ite (failed_sides _ h) (done_sides (undoLayer_sides _ h)))
  · exact SidesOut.ite (failed_sides _ h) (SidesOut.ite (failed_sides _ h) (done_sides { h with }))
  · exact SidesOut.ite (failed_sides _ h) (done_sides (clearLayer_sides _ _ h))
  · exact done_sides (eachLayer_induct (fun l _ h => Sides.ite (stopLayer_sides l _ h) h) h)
  · exact done_sides (eachLayer_induct (fun l _ h => Sides.ite (playLayer_sides l _ h) h) h)
  · exact pauseCue_sides _ _ h
  · exact SidesOut.ite (done_sides { h with }) (failed_sides _ h)
  · exact clearAllCue_sides _ h
  · exact failed_sides _ h

theorem disarmFor_sides (c : Cue) (h : Sides a e) : Sides a (disarmFor c e) := by
  unfold disarmFor
  split
  · exact disarm_sides _ _ h
  · exact h

theorem reportCue_sides (c : Cue) (k : Nat) {out : Outcome} (h : SidesOut a out) : Sides a (reportCue c k out) := by
  unfold reportCue
  split
  · exact grantHolds_sides (post_sides _ h)
  · exact grantHolds_sides (disarmFor_sides c (post_sides _ h))

theorem executeCue_sides (c : Cue) (h : Sides a e) : Sides a (executeCue c e) := by
  have h1 := removeCue_sides c.number h
  unfold executeCue
  dsimp only
  split
  · exact reportCue_sides c _ (actOn_sides c h1)
  · exact Sides.ite (reportCue_sides c _ (actOn_sides c h1))
      (Sides.ite (deferCue_sides _ h) (reportCue_sides c _ (failed_sides _ h1)))

theorem runCues_sides : ∀ (fuel : Nat) {e : Engine}, Sides a e → Sides a (runCues fuel e)
  | 0, _, h => h
  | fuel + 1, _, h => by
    unfold runCues
    split
    · exact runCues_sides fuel (executeCue_sides _ h)
    · exact h

theorem settleCues_sides (h : Sides a e) : Sides a (settleCues e) := coast_sides (runCues_sides 24 (autoClose_sides h))

end

/-! ## The sampling event of the frame that ends -/

/-- A sampling event changes layers, mixer and pedals alone. -/
theorem samplingEvent_only (pins : Vector (BitVec 10) 4) (e : Engine) : ∃ layers mix ped,
    samplingEvent pins e = { e with layers := layers, mix := mix, ped := ped }
      ∧ (e.ped.due = true → ped.due = false ∧ ped.pins = pins) := by
  have hentry : ∀ i E, ∃ layers mix chan map, applyEntry i E = { E with
      layers := layers, mix := mix, ped := { E.ped with chan := chan, map := map } } := fun i E => by
    obtain h | ⟨t, v, m, h⟩ := applyEntry_cases i E
    · exact ⟨E.layers, E.mix, E.ped.chan, E.ped.map, h⟩
    · rw [h]
      cases t <;> exact ⟨_, _, _, _, rfl⟩
  have hfold : ∀ (is : List MapIx) E, ∃ layers mix chan map, is.foldl (fun e i => applyEntry i e) E = { E with
      layers := layers, mix := mix, ped := { E.ped with chan := chan, map := map } } := fun is => by
    induction is with
    | nil => exact fun E => ⟨E.layers, E.mix, E.ped.chan, E.ped.map, rfl⟩
    | cons i rest ih =>
      intro E
      obtain ⟨l1, m1, c1, p1, h1⟩ := hentry i E
      obtain ⟨l2, m2, c2, p2, h2⟩ := ih (applyEntry i E)
      exact ⟨l2, m2, c2, p2, by rw [List.foldl_cons, h2, h1]⟩
  unfold samplingEvent
  by_cases hd : e.ped.due = true
  · rw [if_pos hd]
    dsimp only
    by_cases hh : e.ped.held = true
    · rw [if_pos hh]
      exact ⟨e.layers, e.mix, _, rfl, fun _ => ⟨rfl, rfl⟩⟩
    · rw [if_neg hh]
      obtain ⟨layers, mix, chan, map, h⟩ := hfold mapIxs (convertAll pins
        { e with ped := { e.ped with due := false, pins := pins } })
      exact ⟨layers, mix, _, h, fun _ => ⟨rfl, rfl⟩⟩
  · rw [if_neg hd]
    exact ⟨e.layers, e.mix, e.ped, rfl, fun h => absurd h hd⟩

/-! ## The relock port by port (R144, R149) -/

theorem Port.drained_eq {q : Port} (h : q.lock = .locked) : q.enters .searching = q.drained .searching := by
  have hne : (q.lock != .disabled) = true := by rw [h]; decide
  unfold Port.enters
  rw [hne, Bool.and_true]
  rfl

section
variable {e : Engine} {p : PortIx}

theorem relockPort_unlocked (h : e.ports[p].lock ≠ .locked) :
    relockPort p e = { e with ports := upd e.ports p fun _ => { e.ports[p] with good := 0 } } := by
  unfold relockPort
  rw [if_neg h, modPort, upd_value]

theorem unawaited_none (h : e.clk.p0Frames = []) : e.unawaited p = e := by
  unfold Engine.unawaited
  split
  · rw [← h]
  · rfl

/-- A LOCKED port that a relock takes, INTERNAL being the active source already. -/
theorem relockPort_locked (h : e.ports[p].lock = .locked) (ha : e.clk.active = .internal) (hw : e.clk.p0Frames = []) :
    ∃ quiet : Engine,
      quiet.silences (({ e with ports := upd e.ports p fun _ => (e.ports[p]).drained .searching } : Engine).slipEnded p
        e.ports[p]) p
      ∧ (e.unheard p → quiet = ({ e with ports := upd e.ports p fun _ => (e.ports[p]).drained .searching } : Engine).slipEnded p
        e.ports[p])
      ∧ relockPort p e = quiet.reports (.laneLock p .searching) := by
  obtain ⟨quiet, hq, hu, hlock⟩ := dropLock_leaves (e := e) (p := p) (r := e.ports[p]) (k := .searching) ⟨rfl, rfl, rfl⟩ h
    (by decide)
  unfold Engine.entered at hq hu
  rw [Port.drained_eq h] at hq hu
  refine ⟨quiet, hq, hu, ?_⟩
  have hsame : ({ e with ports := upd e.ports p fun _ => e.ports[p] } : Engine) = e := by
    rw [upd_id e.ports p rfl]
  have hclk : quiet.clk = e.clk := by
    rw [hq.rest]
    show (Engine.slipEnded _ p e.ports[p]).clk = e.clk
    unfold Engine.slipEnded
    split <;> rfl
  rw [hsame, if_neg (by rw [ha]; exact fun hn => nomatch hn.2)] at hlock
  unfold relockPort
  rw [if_pos h, hlock]
  exact unawaited_none (by rw [Engine.reports, hclk, hw])

/-- A port that a relock takes leaves the clock, the cycle, the cues' numbers and the other ports as they are. -/
theorem relockPort_rest (ha : e.clk.active = .internal) (hw : e.clk.p0Frames = []) :
    (relockPort p e).clk = e.clk ∧ (relockPort p e).cyc = e.cyc ∧ (relockPort p e).ports = upd e.ports p fun q =>
      if q.lock = .locked then q.drained .searching else { q with good := 0 } := by
  by_cases h : e.ports[p].lock = .locked
  · obtain ⟨quiet, hq, -, hlock⟩ := relockPort_locked h ha hw
    have hrest : quiet.clk = e.clk ∧ quiet.cyc = e.cyc ∧ quiet.ports = upd e.ports p fun _ => (e.ports[p]).drained .searching := by
      rw [hq.rest]
      show (Engine.slipEnded _ p e.ports[p]).clk = e.clk ∧ (Engine.slipEnded _ p e.ports[p]).cyc = e.cyc
        ∧ (Engine.slipEnded _ p e.ports[p]).ports = _
      unfold Engine.slipEnded
      split <;> exact ⟨rfl, rfl, rfl⟩
    rw [hlock, upd_if_pos e.ports p (p := fun q : Port => q.lock = .locked) h, upd_value]
    exact hrest
  · rw [relockPort_unlocked h, upd_if_neg e.ports p (p := fun q : Port => q.lock = .locked) h]
    exact ⟨rfl, rfl, (upd_value e.ports p fun q => { q with good := 0 }).symm⟩

end

/-- The engine as a relock finds the ports: UNLOCKED at the rate, INTERNAL active. -/
def Engine.unlockedAt (e : Engine) (rate : Nat) : Engine :=
  let e1 := ({ e with clk := { e.clk with
    rate := rate, active := .internal, pllLocked := false, frameOpen := false, p0Frames := [], startRelock := false } }
      : Engine).reports (.pllLock false rate)
  if e.clk.active = .port0 then e1.reports (.clockSource .internal .relock) else e1

/-- The engine once a relock has taken the ports below a number. -/
def Engine.relockedTo (e : Engine) (n : Nat) : Engine := (quadIxs.take n).foldl (fun e p => relockPort p e) e

theorem relockedTo_succ (e : Engine) (p : PortIx) : e.relockedTo (p.val + 1) = relockPort p (e.relockedTo p.val) := by
  unfold Engine.relockedTo
  have htake : ∀ p : PortIx, quadIxs.take (p.val + 1) = quadIxs.take p.val ++ [p] := by decide
  rw [htake, List.foldl_append]
  rfl

theorem beginRelock_eq (rate : Nat) {e : Engine} (h : e.ped.due = false) :
    beginRelock rate e = muteOutput (reportClip ((e.unlockedAt rate).relockedTo 4)) := by
  unfold beginRelock
  rw [samplingEvent_not_due h]
  refine congrArg (fun E => muteOutput (reportClip (eachQuad relockPort E))) ?_
  unfold Engine.unlockedAt
  by_cases ha : e.clk.active = .port0
  · simp only [if_pos ha]
    rfl
  · have hi : e.clk.active = .internal := by
      cases hc : e.clk.active with
      | internal => rfl
      | port0 => exact absurd hc ha
    simp only [if_neg ha]
    rw [← hi]
    rfl

theorem unlockedAt_eq (e : Engine) (rate : Nat) : e.unlockedAt rate = { e with
    clk := { e.clk with
      rate := rate, active := .internal, pllLocked := false, frameOpen := false, p0Frames := [], startRelock := false }
    evq := if e.clk.active = .port0 then
        queueReport (.clockSource .internal .relock) e.cyc.k e.cyc.p (queueReport (.pllLock false rate) e.cyc.k e.cyc.p e.evq)
      else queueReport (.pllLock false rate) e.cyc.k e.cyc.p e.evq } := by
  unfold Engine.unlockedAt
  dsimp only
  split <;> rfl

section
variable {e : Engine} {rate : Nat}

theorem unlockedAt_rest : (e.unlockedAt rate).clk = { e.clk with
      rate := rate, active := .internal, pllLocked := false, frameOpen := false, p0Frames := [], startRelock := false }
    ∧ (e.unlockedAt rate).ports = e.ports ∧ (e.unlockedAt rate).cyc = e.cyc ∧ (e.unlockedAt rate).lanes = e.lanes := by
  unfold Engine.unlockedAt
  dsimp only
  split <;> exact ⟨rfl, rfl, rfl, rfl⟩

/-- The ports below a number have been taken, the others stand. -/
theorem relockedTo_rest (n : Nat) (hn : n ≤ 4) :
    ((e.unlockedAt rate).relockedTo n).clk = (e.unlockedAt rate).clk ∧ ((e.unlockedAt rate).relockedTo n).cyc = e.cyc
      ∧ ∀ i : PortIx, ((e.unlockedAt rate).relockedTo n).ports[i] =
        if i.val < n then if e.ports[i].lock = .locked then (e.ports[i]).drained .searching else { e.ports[i] with good := 0 }
        else e.ports[i] := by
  obtain ⟨hclk, hports, hcyc, -⟩ := unlockedAt_rest (e := e) (rate := rate)
  induction n with
  | zero => exact ⟨rfl, hcyc, fun i => congrArg (fun x : Vector Port 4 => x[i]) hports⟩
  | succ n ih =>
    obtain ⟨hc, hy, hp⟩ := ih (by omega)
    obtain ⟨p, rfl⟩ : ∃ p : PortIx, n = p.val := ⟨⟨n, by omega⟩, rfl⟩
    rw [relockedTo_succ]
    obtain ⟨rc, ry, rp⟩ := relockPort_rest (e := (e.unlockedAt rate).relockedTo p.val) (p := p)
      (by rw [hc, hclk]) (by rw [hc, hclk])
    refine ⟨rc.trans hc, ry.trans hy, fun i => ?_⟩
    rw [rp]
    by_cases hi : i = p
    · subst hi
      rw [if_pos (by omega)]
      refine (upd_self _ i _).trans ?_
      rw [← Fin.getElem_fin, show ((e.unlockedAt rate).relockedTo i.val).ports[i] = e.ports[i] from
        (hp i).trans (if_neg (Nat.lt_irrefl _))]
    · refine (upd_other _ p i _ (Ne.symm hi)).trans ((hp i).trans ?_)
      have hne : i.val ≠ p.val := fun h => hi (Fin.ext h)
      exact if_congr (by omega) rfl rfl

end

/-! ## CLOCK_SET -/

/-- The engine once a CLOCK_SET has set a rate and a source, before the cues of an ended frame. -/
def Engine.clocked (e : Engine) (rate : Nat) (src : ClockSource) : Engine :=
  (fun e1 => if src = e.clk.selected then e1 else selectSource src e1) (if rate = e.clk.rate then e else beginRelock rate e)

section
variable {e : Engine} {r0 r1 : Byte} {src : ClockSource}

theorem clockSet_outOfRate (h1 : word16 r0 r1 ≠ 48000) (h2 : word16 r0 r1 ≠ 44100) :
    clockSet [r0, r1, byte src.code] e = refuse .outOfRange e := by
  simp only [clockSet, List.length_cons, List.length_nil, fieldAt_later, fieldAt_word16, fieldAt_byte, clockSource?_byte,
    ne_eq, not_true_eq_false, if_false, Nat.reduceAdd]
  exact if_pos fun h => h.elim h1 h2

theorem clockSet_outOfRange {b : Byte} (h : 2 ≤ b.toNat) : clockSet [r0, r1, b] e = refuse .outOfRange e := by
  simp only [clockSet, List.length_cons, List.length_nil, fieldAt_later, fieldAt_byte, ne_eq, not_true_eq_false, if_false,
    Nat.reduceAdd]
  rw [clockSource?_none h]

variable (hrate : word16 r0 r1 = 48000 ∨ word16 r0 r1 = 44100)
include hrate

theorem clockSet_same (h1 : word16 r0 r1 = e.clk.rate) (h2 : src = e.clk.selected) :
    clockSet [r0, r1, byte src.code] e = (e, { status := .ok, data := clockReply e.clk }) := by
  simp only [clockSet, List.length_cons, List.length_nil, fieldAt_later, fieldAt_word16, fieldAt_byte, clockSource?_byte,
    ne_eq, not_true_eq_false, if_false, Nat.reduceAdd]
  rw [if_neg (not_not.2 hrate), if_pos ⟨h1, h2⟩]

theorem clockSet_wrongState (h : word16 r0 r1 ≠ e.clk.rate ∨ src ≠ e.clk.selected) (hs : e.cyc.state ≠ .unset) :
    clockSet [r0, r1, byte src.code] e = refuse .wrongState e := by
  simp only [clockSet, List.length_cons, List.length_nil, fieldAt_later, fieldAt_word16, fieldAt_byte, clockSource?_byte,
    ne_eq, not_true_eq_false, if_false, Nat.reduceAdd]
  rw [if_neg (not_not.2 hrate), if_neg (fun hn => h.elim (fun h => h hn.1) fun h => h hn.2), if_pos hs]

theorem clockSet_sets (h : word16 r0 r1 ≠ e.clk.rate ∨ src ≠ e.clk.selected) (hs : e.cyc.state = .unset) :
    clockSet [r0, r1, byte src.code] e =
      (if word16 r0 r1 = e.clk.rate then e.clocked (word16 r0 r1) src else settleCues (e.clocked (word16 r0 r1) src),
       { status := .ok, data := clockReply (e.clocked (word16 r0 r1) src).clk }) := by
  simp only [clockSet, List.length_cons, List.length_nil, fieldAt_later, fieldAt_word16, fieldAt_byte, clockSource?_byte,
    ne_eq, not_true_eq_false, if_false, Nat.reduceAdd]
  rw [if_neg (not_not.2 hrate), if_neg (fun hn => h.elim (fun h => h hn.1) fun h => h hn.2), if_neg (not_not.2 hs)]
  rfl

end

/-- The pair of the frame that a relock ends is told of when it clips, and nothing goes out until the relock ends. -/
def Engine.muted (e : Engine) : Engine :=
  let told := match e.mix.clipping with
    | some sides => if e.mix.clipReported then e else e.reports (.outputClip sides)
    | none => e
  { told with mix := { e.mix with
      computed := none, sending := none, clipping := none, clipReported := e.mix.clipReported || e.mix.clipping.isSome } }

theorem Engine.muted_calm {e : Engine} (h : e.mix.clipping = none) :
    e.muted = { e with mix := { e.mix with computed := none, sending := none } } := by
  unfold Engine.muted
  rw [h]
  simp only [Option.isSome_none, Bool.or_false]
  rw [← h]

theorem muteOutput_reportClip (e : Engine) : muteOutput (reportClip e) = e.muted := by
  unfold Engine.muted
  cases hc : e.mix.clipping with
  | none =>
    rw [reportClip_none hc]
    simp only [muteOutput, Option.isSome_none, Bool.or_false]
    rw [hc]
  | some sides =>
    by_cases hr : e.mix.clipReported = true
    · rw [reportClip_again hr]
      simp only [muteOutput, Option.isSome_some, Bool.or_true, hr, if_true]
    · rw [reportClip_first hc (Bool.eq_false_iff.2 hr)]
      simp only [muteOutput, Option.isSome_some, Bool.or_true, hr, if_false, Bool.false_eq_true]
      rfl

theorem selectSource_port0 (e : Engine) : selectSource .port0 e =
    if e.ports[(0 : PortIx)].lock = .locked ∧ e.clk.pllLocked = true then
      adoptPort0 .set { e with clk := { e.clk with selected := .port0 } }
    else { e with clk := { e.clk with selected := .port0 } } := rfl

theorem selectSource_internal (e : Engine) : selectSource .internal e =
    if e.clk.active = .port0 then
      silenceLanes 0 (({ e with
        clk := { e.clk with selected := .internal, active := .internal }
        ports := upd e.ports 0 fun q => { q with buf := [], filling := true } } : Engine).reports (.clockSource .internal .set))
    else { e with clk := { e.clk with selected := .internal } } := rfl

/-- A relock leaves the source selected that the command names. -/
theorem clocked_relocks {e : Engine} {rate : Nat} (hr : rate ≠ e.clk.rate) (hd : e.ped.due = false) (src : ClockSource) :
    e.clocked rate src = { ((e.unlockedAt rate).relockedTo 4).muted with
      clk := { ((e.unlockedAt rate).relockedTo 4).clk with selected := src } } := by
  obtain ⟨hlast, -, -⟩ := relockedTo_rest (e := e) (rate := rate) 4 (Nat.le_refl 4)
  rw [unlockedAt_rest.1] at hlast
  unfold Engine.clocked
  rw [if_neg hr, beginRelock_eq rate hd, muteOutput_reportClip]
  generalize (e.unlockedAt rate).relockedTo 4 = last at hlast
  have hclk : last.muted.clk = last.clk := by
    unfold Engine.muted
    dsimp only
    split
    · split <;> rfl
    · rfl
  generalize last.muted = T at hclk
  by_cases hs : src = e.clk.selected
  · refine (if_pos hs).trans ?_
    have hsel : { last.clk with selected := src } = T.clk := by rw [hclk, hlast, hs]
    rw [hsel]
  · refine (if_neg hs).trans ?_
    cases src with
    | port0 =>
      refine (if_neg fun hn => ?_).trans (by rw [hclk])
      rw [hclk, hlast] at hn
      cases hn.2
    | internal =>
      refine (if_neg fun hn => ?_).trans (by rw [hclk])
      rw [hclk, hlast] at hn
      cases hn

/-- The row of a CLOCK_SET that sets another rate. -/
theorem clockSet_row {s : State} {m : Message} {rest : List Message} {r0 r1 : Byte} {src : ClockSource}
    (h : s.Takes 3 m [r0, r1, byte src.code] rest) (hr : word16 r0 r1 = 48000 ∨ word16 r0 r1 = 44100)
    (hne : word16 r0 r1 ≠ s.eng.clk.rate) (hu : s.eng.cyc.state = .unset) {X : Engine}
    (hX : X = settleCues (s.eng.clocked (word16 r0 r1) src)) :
    exec .clockSet s = .next (s.answered m rest .ok (clockReply X.clk) X) := by
  have hclk : X.clk = (s.eng.clocked (word16 r0 r1) src).clk := by
    rw [hX]
    exact (settleCues_sides (.refl _)).clk
  refine commandRow_answers h ((clockSet_sets hr (.inl hne) hu).trans ?_)
  rw [if_neg hne, hclk, hX]

/-- A sampling event that comes first does not come again with the relock. -/
theorem beginRelock_sampled (rate : Nat) {e : Engine} (hd : e.ped.due = true) :
    beginRelock rate (samplingEvent e.ped.pins e) = beginRelock rate e := by
  obtain ⟨layers, mix, ped, hsamp, hdue⟩ := samplingEvent_only e.ped.pins e
  obtain ⟨hoff, hpins⟩ := hdue hd
  obtain ⟨E, hE⟩ : ∃ E, E = samplingEvent e.ped.pins e := ⟨_, rfl⟩
  have hagain : samplingEvent E.ped.pins E = E := samplingEvent_not_due (by rw [hE, hsamp]; exact hoff) _
  have hclk : E.clk = e.clk := by rw [hE, hsamp]
  rw [← hE]
  unfold beginRelock
  rw [hagain, hclk, ← hE]

theorem clocked_sampled {e : Engine} {rate : Nat} {src : ClockSource} (hne : rate ≠ e.clk.rate) (hd : e.ped.due = true) :
    (samplingEvent e.ped.pins e).clocked rate src = e.clocked rate src := by
  obtain ⟨layers, mix, ped, hsamp, -⟩ := samplingEvent_only e.ped.pins e
  have hclk : (samplingEvent e.ped.pins e).clk = e.clk := by rw [hsamp]
  unfold Engine.clocked
  rw [hclk, if_neg hne, if_neg hne, beginRelock_sampled rate hd]

/-- The lanes that formed their samples from a LOCKED port are silent once a relock has taken it. -/
theorem relockedTo_lane {e : Engine} {rate : Nat} {p : PortIx} {l : LaneIx} (hp : e.ports[p].lock = .locked)
    (hl : e.lanes[l].formed = some p) (n : Nat) (hn : n ≤ 4) :
    (n ≤ p.val → ((e.unlockedAt rate).relockedTo n).lanes[l].formed = some p)
      ∧ (p.val < n → ((e.unlockedAt rate).relockedTo n).lanes[l].x = 0
        ∧ ((e.unlockedAt rate).relockedTo n).lanes[l].formed = none) := by
  obtain ⟨huclk, huports, -, hulanes⟩ := unlockedAt_rest (e := e) (rate := rate)
  induction n with
  | zero => exact ⟨fun _ => (congrArg (fun x : Vector Lane 4 => x[l].formed) hulanes).trans hl, fun h => absurd h (Nat.not_lt_zero _)⟩
  | succ n ih =>
    obtain ⟨hbefore, hafter⟩ := ih (by omega)
    obtain ⟨q, rfl⟩ : ∃ q : PortIx, n = q.val := ⟨⟨n, by omega⟩, rfl⟩
    obtain ⟨hc, -, hports⟩ := relockedTo_rest (e := e) (rate := rate) q.val (by omega)
    have hq : ((e.unlockedAt rate).relockedTo q.val).ports[q] = e.ports[q] := (hports q).trans (if_neg (Nat.lt_irrefl _))
    rw [relockedTo_succ]
    generalize (e.unlockedAt rate).relockedTo q.val = E at hbefore hafter hc hq
    have hlane : (relockPort q E).lanes[l] = if E.ports[q].lock = .locked ∧ E.lanes[l].formed = some q
        then (E.lanes[l]).silenced else E.lanes[l] := by
      by_cases hk : E.ports[q].lock = .locked
      · obtain ⟨quiet, hsil, -, hrel⟩ := relockPort_locked hk (by rw [hc, huclk]) (by rw [hc, huclk])
        obtain ⟨-, hlanes, -⟩ := hsil
        have hX : (({ E with ports := upd E.ports q fun _ => (E.ports[q]).drained .searching } : Engine).slipEnded q
            E.ports[q]).lanes = E.lanes := by
          unfold Engine.slipEnded
          split <;> rfl
        have hquiet := hlanes l
        rw [hX] at hquiet
        rw [hrel]
        refine hquiet.trans ?_
        rw [if_congr (and_iff_right hk) rfl rfl]
        rfl
      · rw [relockPort_unlocked hk, if_neg fun h => hk h.1]
    rw [hlane]
    refine ⟨fun hle => ?_, fun hlt => ?_⟩
    · have hne : q ≠ p := fun h => by
        rw [h] at hle
        omega
      have hf := hbefore (by omega)
      rw [if_neg fun h => hne (Option.some.inj (h.2.symm.trans hf))]
      exact hf
    · by_cases hqp : q = p
      · subst hqp
        rw [if_pos ⟨by rw [hq]; exact hp, hbefore (Nat.le_refl _)⟩]
        exact ⟨rfl, rfl⟩
      · have hne : q.val ≠ p.val := fun h => hqp (Fin.ext h)
        obtain ⟨hx, hf⟩ := hafter (by omega)
        rw [if_neg fun h => by rw [hf] at h; cases h.2]
        exact ⟨hx, hf⟩

/-- After a relock each port that was LOCKED searches from empty, and the lanes it fed are silent, whatever cues execute. -/
theorem clocked_searches {e : Engine} {rate : Nat} {src : ClockSource} (hne : rate ≠ e.clk.rate) (hd : e.ped.due = false)
    {p : PortIx} (hp : e.ports[p].lock = .locked) {X : Engine} (hX : X = settleCues (e.clocked rate src)) :
    X.ports[p].lock = .searching ∧ X.ports[p].buf = [] ∧ X.ports[p].good = 0
      ∧ ∀ l : LaneIx, e.lanes[l].formed = some p → X.lanes[l].x = 0 := by
  have hsides := settleCues_sides (.refl (e.clocked rate src))
  have hkeeps : ∀ E : Engine, E.muted.ports = E.ports ∧ E.muted.lanes = E.lanes := fun E => by
    unfold Engine.muted
    dsimp only
    split
    · split <;> exact ⟨rfl, rfl⟩
    · exact ⟨rfl, rfl⟩
  have hmain := clocked_relocks hne hd src
  obtain ⟨-, -, hrest⟩ := relockedTo_rest (e := e) (rate := rate) 4 (Nat.le_refl 4)
  have hlane := fun l hl => relockedTo_lane (rate := rate) (l := l) hp hl 4 (Nat.le_refl 4)
  generalize (e.unlockedAt rate).relockedTo 4 = last at hmain hrest hlane
  obtain ⟨hmports, hmlanes⟩ := hkeeps last
  have hports : X.ports = last.ports := by
    rw [hX, hsides.ports, hmain]
    exact hmports
  have hlanes : X.lanes = last.lanes := by
    rw [hX, hsides.lanes, hmain]
    exact hmlanes
  have hpX : X.ports[p] = (e.ports[p]).drained .searching := by
    rw [hports, hrest p, if_pos p.isLt, if_pos hp]
  rw [hpX]
  refine ⟨rfl, rfl, rfl, fun l hl => ?_⟩
  rw [hlanes]
  exact ((hlane l hl).2 p.isLt).1

/-- A relock on which no lane is silenced and no recovery ends changes the ports and tells of the locks. -/
theorem relockedTo_unheard {e : Engine} {rate : Nat}
    (h : ∀ p : PortIx, e.ports[p].lock = .locked → e.ports[p].recovery = .none ∧ e.unheard p) (n : Nat) (hn : n ≤ 4) :
    (e.unlockedAt rate).relockedTo n = { e.unlockedAt rate with
      ports := ((e.unlockedAt rate).relockedTo n).ports
      evq := (quadIxs.take n).foldl (fun q p =>
        if e.ports[p].lock = .locked then queueReport (.laneLock p .searching) e.cyc.k e.cyc.p q else q)
        (e.unlockedAt rate).evq } := by
  obtain ⟨huclk, huports, hucyc, hulanes⟩ := unlockedAt_rest (e := e) (rate := rate)
  induction n with
  | zero => rfl
  | succ n ih =>
    have hE := ih (by omega)
    obtain ⟨q, rfl⟩ : ∃ q : PortIx, n = q.val := ⟨⟨n, by omega⟩, rfl⟩
    obtain ⟨hc, hy, hports⟩ := relockedTo_rest (e := e) (rate := rate) q.val (by omega)
    have hq : ((e.unlockedAt rate).relockedTo q.val).ports[q] = e.ports[q] := (hports q).trans (if_neg (Nat.lt_irrefl _))
    have htake : ∀ p : PortIx, quadIxs.take (p.val + 1) = quadIxs.take p.val ++ [p] := by decide
    rw [relockedTo_succ, htake, List.foldl_append]
    generalize (e.unlockedAt rate).relockedTo q.val = E at hE hc hy hq
    generalize (quadIxs.take q.val).foldl _ (e.unlockedAt rate).evq = Q at hE
    have hlanes : E.lanes = e.lanes := by rw [hE]; exact hulanes
    simp only [List.foldl_cons, List.foldl_nil]
    by_cases hk : e.ports[q].lock = .locked
    · obtain ⟨hrec, hun⟩ := h q hk
      obtain ⟨quiet, -, hquiet, hrel⟩ := relockPort_locked (p := q) (e := E) (by rw [hq]; exact hk) (by rw [hc, huclk])
        (by rw [hc, huclk])
      rw [if_pos hk, hrel, hquiet fun l => by rw [hlanes]; exact hun l]
      unfold Engine.slipEnded
      rw [hq, if_pos hrec, hE]
      simp only [Engine.reports, hucyc]
    · rw [if_neg hk, relockPort_unlocked (by rw [hq]; exact hk), hE]

end Sys2Proof.Machine

namespace Sys2Proof.Settled
open Sys2Proof.Machine

/-- Settles O21: the source that is selected, and the relock port by port, with what is still due on its frame. -/
theorem clockSet : Obligations.ClockSet := by
  intro s m rest
  refine ⟨fun r0 r1 src h => ?_, fun r0 r1 src h hsrc => commandRow_refuses h (clockSet_outOfRange hsrc), fun g hg => ?due⟩
  case due =>
    have hauto : ∀ g : Engine, g.cyc.state ≠ .baseCapture → autoClose g = g := fun g hg => by
      refine autoClose_not_due ?_
      unfold autoCloseDue
      split
      · rw [beq_eq_false_iff_ne.2 hg, Bool.false_and]
      · rfl
    refine ⟨fun h => ?_, fun c hc hnext => ?_⟩
    · unfold settleCues
      rw [hauto g hg, runCues_idle (firstDue_idle h)]
    · unfold settleCues
      rw [hauto g hg]
      refine congrArg coast ?_
      unfold runCues
      rw [hc]
      exact runCues_idle hnext 23
  intro rate clk answer
  have hrow : ∀ (c : List Byte → Engine → Engine × Answer), c = Machine.clockSet → exec .clockSet s = commandRow 3 c s := fun _ hc => hc ▸ rfl
  have hanswers : ∀ T : Engine, Machine.clockSet [r0, r1, byte src.code] s.eng = (T, { status := .ok, data := clockReply T.clk }) →
      exec .clockSet s = .next (answer T) := fun T hT => commandRow_answers h hT
  have hsets : (rate = 48000 ∨ rate = 44100) → rate = clk.rate → src ≠ clk.selected → s.eng.cyc.state = .unset →
      exec .clockSet s = .next (answer (selectSource src s.eng)) := fun hr hsame hsrc hu => by
    refine hanswers _ ((clockSet_sets hr (.inr hsrc) hu).trans ?_)
    have hc : s.eng.clocked rate src = selectSource src s.eng := by
      unfold Engine.clocked
      rw [if_pos hsame]
      exact if_neg hsrc
    rw [if_pos hsame, hc]
  have hrelocks : (rate = 48000 ∨ rate = 44100) → rate ≠ clk.rate → s.eng.cyc.state = .unset →
      exec .clockSet s = .next (answer (settleCues (s.eng.clocked rate src))) := fun hr hne hu => clockSet_row h hr hne hu rfl
  have hsamples : (rate = 48000 ∨ rate = 44100) → rate ≠ clk.rate → s.eng.cyc.state = .unset → s.eng.ped.due = true →
      exec (.samplingEvent s.eng.ped.pins[0] s.eng.ped.pins[1] s.eng.ped.pins[2] s.eng.ped.pins[3]) s
          = .next (s.giving (Machine.samplingEvent s.eng.ped.pins s.eng))
        ∧ exec .clockSet s = exec .clockSet (s.giving (Machine.samplingEvent s.eng.ped.pins s.eng)) := fun hr hne hu hd => by
    have hpins : ∀ pins : Vector (BitVec 10) 4, #v[pins[0], pins[1], pins[2], pins[3]] = pins := fun pins =>
      Vector.ext fun j hj => by
        match j, hj with
        | 0, _ | 1, _ | 2, _ | 3, _ => rfl
    refine ⟨?_, ?_⟩
    · refine (engineRow_on h.powered _).trans ?_
      rw [hpins]
    · obtain ⟨layers, mix, ped, hsamp, hdue⟩ := samplingEvent_only s.eng.ped.pins s.eng
      have hsame := clocked_sampled (rate := rate) (src := src) hne hd
      generalize Machine.samplingEvent s.eng.ped.pins s.eng = E at hsamp hsame
      have hclk : E.clk = s.eng.clk := by rw [hsamp]
      have hcyc : E.cyc = s.eng.cyc := by rw [hsamp]
      have ht : (s.giving E).Takes 3 m [r0, r1, byte src.code] rest :=
        { powered := h.powered, started := by rw [← h.started, ← hclk]; rfl, head := h.head, kind := h.kind, whole := h.whole
          payload := h.payload }
      have hrow := clockSet_row ht hr (by rw [show (s.giving E).eng.clk = s.eng.clk from hclk]; exact hne)
        (by rw [show (s.giving E).eng.cyc = s.eng.cyc from hcyc]; exact hu) rfl
      rw [hrelocks hr hne hu, hrow, show (s.giving E).eng.clocked _ src = s.eng.clocked rate src from hsame]
      rfl
  refine ⟨fun h1 h2 => commandRow_refuses h (clockSet_outOfRate h1 h2), fun hr h1 h2 => hanswers _ (clockSet_same hr h1 h2),
    fun hr hne hs => commandRow_refuses h (clockSet_wrongState hr hne hs), fun hr hsame hsrc hsel hu hl => ?_,
    fun hr hsame hsrc hsel hu hl hp => ?_, fun hr hsame hsrc hsel hu ha => ?_, fun hr hsame hsrc hsel hu ha => ?_,
    fun hr hne hu hclip hd hcues hcoast hports => ?_, fun hr hne hu => ?_, fun hr hne hu hd => ?_, fun hr hne hu hd => ?_⟩
  · have hne : src ≠ clk.selected := by rw [hsrc, hsel]; decide
    rw [hsets hr hsame hne hu, hsrc]
    rw [selectSource_port0, if_neg (fun hn => hl hn.1)]
  · intro clk1 ports
    have hne : src ≠ clk.selected := by rw [hsrc, hsel]; decide
    rw [hsets hr hsame hne hu, hsrc]
    rw [selectSource_port0, if_pos ⟨hl, hp⟩]
    rfl
  · have hne : src ≠ clk.selected := by rw [hsrc, hsel]; decide
    rw [hsets hr hsame hne hu, hsrc]
    rw [selectSource_internal, if_neg (by rw [show s.eng.clk.active = .internal from ha]; decide)]
  · have hne : src ≠ clk.selected := by rw [hsrc, hsel]; decide
    have hselect : selectSource src s.eng = silenceLanes 0 (({ s.eng with
        clk := { clk with selected := .internal, active := .internal }
        ports := upd s.eng.ports 0 fun q => { q with buf := [], filling := true } } : Engine).reports (.clockSource .internal .set)) := by
      rw [hsrc, selectSource_internal]
      exact if_pos ha
    rw [hsets hr hsame hne hu, hselect]
    have hsil := silenceLanes_spec 0 (({ s.eng with
        clk := { clk with selected := .internal, active := .internal }
        ports := upd s.eng.ports 0 fun q => { q with buf := [], filling := true } } : Engine).reports (.clockSource .internal .set))
    refine ⟨⟨_, rfl, Engine.silent.of hsil.1 ⟨rfl, rfl, rfl, rfl, rfl⟩ ⟨rfl, rfl, rfl⟩⟩, fun hu0 => ?_, ⟨_, hsil, rfl⟩⟩
    rw [silenceLanes_unheard (by exact hu0)]
  · intro clk1 mx say evq1 evq2 evq3
    have hmain := clocked_relocks hne hd src
    obtain ⟨-, -, hrest⟩ := relockedTo_rest (e := s.eng) (rate := rate) 4 (Nat.le_refl 4)
    have hall := relockedTo_unheard (rate := rate) hports 4 (Nat.le_refl 4)
    have hexec := hrelocks hr hne hu
    generalize (s.eng.unlockedAt rate).relockedTo 4 = last at hmain hrest hall
    have hclk : last.clk = { s.eng.clk with
        rate := rate, active := .internal, pllLocked := false, frameOpen := false, p0Frames := [], startRelock := false } := by
      rw [hall]
      exact unlockedAt_rest.1
    refine ⟨last.ports, fun p => (hrest p).trans (if_pos p.isLt), ?_⟩
    have hX : s.eng.clocked rate src = { s.eng with clk := clk1, mix := mx, ports := last.ports, evq := evq3 } := by
      have hmix : last.mix = s.eng.mix := by
        rw [hall, unlockedAt_eq]
      rw [hmain, hclk, Engine.muted_calm (by rw [hmix]; exact hclip), hall, unlockedAt_eq]
      rfl
    have hidle : settleCues { s.eng with clk := clk1, mix := mx, ports := last.ports, evq := evq3 }
        = coast { s.eng with clk := clk1, mix := mx, ports := last.ports, evq := evq3 } := by
      refine settleCues_idle (firstDue_idle hcues) ?_
      unfold autoCloseDue
      split
      · rw [show ({ s.eng with clk := clk1, mix := mx, ports := last.ports, evq := evq3 } : Engine).cyc.state = .unset from hu]
        rfl
      · rfl
    obtain ⟨heard, hnone, hgives⟩ := onFollower_gives (e := { s.eng with clk := clk1, mix := mx, ports := last.ports, evq := evq3 })
      (f := fun e => if e.fol.coastDue = true then setFollowState .waiting .coast e else e)
      (by rw [if_neg (by show ¬s.eng.fol.coastDue = true; rw [hcoast]; decide)])
    rw [if_neg (by show ¬s.eng.fol.coastDue = true; rw [hcoast]; decide)] at hgives
    rw [hX, hidle, show coast _ = _ from hgives] at hexec
    exact ⟨heard, hnone, hexec⟩
  · cases hd : s.eng.ped.due with
    | false => exact ⟨_, hrelocks hr hne hu, fun p hp => clocked_searches hne hd hp rfl⟩
    | true =>
      obtain ⟨layers, mix, ped, hsamp, hdue⟩ := samplingEvent_only s.eng.ped.pins s.eng
      have hsampled := clocked_sampled (src := src) hne hd
      obtain ⟨E, hE⟩ : ∃ E, E = Machine.samplingEvent s.eng.ped.pins s.eng := ⟨_, rfl⟩
      rw [← hE] at hsamp hsampled
      have hports : E.ports = s.eng.ports := by rw [hsamp]
      have hlanes : E.lanes = s.eng.lanes := by rw [hsamp]
      refine ⟨_, hrelocks hr hne hu, fun p hp => ?_⟩
      have hsearch := clocked_searches (e := E) (src := src) (p := p) (X := settleCues (s.eng.clocked rate src))
        (show rate ≠ E.clk.rate by rw [hsamp]; exact hne) (by rw [hsamp]; exact (hdue hd).1) (by rw [hports]; exact hp)
        (by rw [hsampled])
      rw [hlanes] at hsearch
      exact hsearch
  · obtain ⟨huclk, huports, -, -⟩ := unlockedAt_rest (e := s.eng) (rate := rate)
    have hX := clocked_relocks (rate := rate) hne hd src
    have hexec := hrelocks hr hne hu
    refine ⟨(s.eng.unlockedAt rate).relockedTo, rfl, fun p => ?_, ?_⟩
    · obtain ⟨hclk, -, hports⟩ := relockedTo_rest (e := s.eng) (rate := rate) p.val (by omega)
      have hp : ((s.eng.unlockedAt rate).relockedTo p.val).ports[p] = s.eng.ports[p] :=
        (hports p).trans (if_neg (Nat.lt_irrefl _))
      rw [relockedTo_succ]
      intro q e
      refine ⟨fun hl => ?_, fun hl => ?_⟩
      · rw [relockPort_unlocked (by rw [hp]; exact hl), hp]
      · obtain ⟨quiet, hq, -, hrel⟩ := relockPort_locked (p := p) (e := e) (by rw [hp]; exact hl) (by rw [hclk, huclk])
          (by rw [hclk, huclk])
        rw [hp] at hq
        exact ⟨quiet, hq, hrel⟩
    · rw [hX] at hexec
      generalize (s.eng.unlockedAt rate).relockedTo 4 = last at hexec
      exact hexec
  · intro pins
    obtain ⟨layers, mix, ped, hsamp, hdue⟩ := samplingEvent_only pins s.eng
    obtain ⟨hrow, hsame⟩ := hsamples hr hne hu hd
    refine ⟨_, hrow, ?_, hsame⟩
    show (Machine.samplingEvent pins s.eng).ped.due = false
    rw [hsamp]
    exact (hdue hd).1

end Sys2Proof.Settled
end

section
/-! TAP: what is due on its frame first, and the onset measured against the nearest grid point (R27 to R31). -/

set_option Elab.async false

namespace Sys2Proof.Machine

/-! ## What comes first is not due again -/

theorem closeBase_state (l : LayerIx) (count : Nat) (c : LayerCause) (n w : Nat) (e : Engine) :
    (closeBase l count c n w e).cyc.state = .running := by
  obtain ⟨window, heard, hstart⟩ := startCycle_eq count (endSlot l e)
  have hcycle : ∀ w (E : Engine), (cycleBoundary w E).cyc = E.cyc := fun w E => by
    obtain ⟨fol, heard, h⟩ := cycleBoundary_only w E
    rw [h]
  have hplay : ∀ E : Engine, (playVoice l E).cyc = E.cyc := fun E => by rw [playVoice_eq]
  unfold closeBase
  dsimp only
  rw [post_cyc, hcycle, hplay, setLayerState_cyc, modLayer_cyc, hstart]
  rfl

theorem autoClose_once (e : Engine) : autoClose (autoClose e) = autoClose e := by
  obtain ⟨T, hT⟩ : ∃ T, T = autoClose e := ⟨_, rfl⟩
  rw [← hT]
  by_cases hd : autoCloseDue e = true
  · have hstate : T.cyc.state = .running ∨ T = e ∧ baseCapture e = none := by
      unfold autoClose at hT
      rw [if_pos hd] at hT
      cases hb : baseCapture e with
      | none =>
        rw [hb] at hT
        exact .inr ⟨hT, rfl⟩
      | some r =>
        obtain ⟨l, n⟩ := r
        rw [hb] at hT
        dsimp only at hT
        have hclose := closeBase_state l n .autoClose 0 0 e
        generalize closeBase l n .autoClose 0 0 e = C at hT hclose
        rw [hT, grantHolds_cyc]
        exact .inl hclose
    refine autoClose_not_due ?_
    unfold autoCloseDue
    rcases hstate with h | ⟨h, hb⟩
    · rw [h]
      split <;> rfl
    · rw [h, hb]
  · have h : T = e := hT.trans (autoClose_not_due (Bool.eq_false_iff.2 hd))
    rw [h, ← hT, h]

/-- An operation of the follower that finds nothing more to do after it has acted acts once. -/
theorem onFollower_once {f : Engine → Engine} {q : Follower → Prop} (hrest : ∀ E : Engine, q (f E).fol)
    (hidle : ∀ E : Engine, q E.fol → f E = E) (hheard : ∀ E : Engine, (f E).heard = E.heard) (e : Engine) :
    onFollower f (onFollower f e) = onFollower f e := by
  cases hh : e.heard with
  | none =>
    have hnone : (f e).heard = none := (hheard e).trans hh
    rw [onFollower_unheard hh, onFollower_unheard hnone, hidle _ (hrest e)]
  | some h =>
    obtain ⟨alt, halt⟩ : ∃ alt, alt = f { e with fol := h.without } := ⟨_, rfl⟩
    obtain ⟨h', hh'⟩ : ∃ h' : Heard, h' = { h with
        without := alt.fol, said := h.said ++ (f e).evq.since e.evq.list.length
        unsaid := h.unsaid ++ alt.evq.since e.evq.list.length } := ⟨_, rfl⟩
    have hfirst : onFollower f e = { f e with heard := some h' } := by
      rw [hh', halt]
      unfold onFollower
      split
      next hn =>
        rw [hh] at hn
        cases hn
      next h0 heq =>
        rw [hh] at heq
        cases heq
        rfl
    have hkept : q alt.fol := halt ▸ hrest _
    have hsince : ∀ Q : EventQueue, Q.since Q.list.length = [] := fun Q => by
      unfold EventQueue.since
      rw [List.drop_length, List.map_nil]
    rw [hfirst]
    have hsecond : f { f e with heard := some h' } = { f e with heard := some h' } := hidle _ (hrest e)
    have hthird : f { ({ f e with heard := some h' } : Engine) with fol := h'.without }
        = { ({ f e with heard := some h' } : Engine) with fol := h'.without } := hidle _ (by rw [hh']; exact hkept)
    unfold onFollower
    dsimp only
    rw [hsecond, hthird, hsince, List.append_nil, List.append_nil]

theorem coast_once (e : Engine) : coast (coast e) = coast e := by
  have hset : ∀ E : Engine, (setFollowState .waiting .coast E).heard = E.heard := fun E => by
    unfold setFollowState
    dsimp only
    split <;> rfl
  refine onFollower_once (q := fun f => f.coastDue = false) (fun E => ?_) (fun E h => if_neg (by rw [h]; decide)) (fun E => ?_) e
  · by_cases hd : E.fol.coastDue = true
    · rw [if_pos hd, setFollowState_fol]
    · rw [if_neg hd]
      exact Bool.eq_false_iff.2 hd
  · by_cases hd : E.fol.coastDue = true
    · rw [if_pos hd, hset]
    · rw [if_neg hd]

theorem coast_only (e : Engine) : ∃ fol evq heard, coast e = { e with fol := fol, evq := evq, heard := heard } := by
  obtain ⟨heard, h⟩ := onFollower_only (fun e => if e.fol.coastDue = true then setFollowState .waiting .coast e else e) e
  refine ⟨(coast e).fol, (coast e).evq, heard, ?_⟩
  rw [show coast e = _ from h]
  dsimp only
  split
  · unfold setFollowState
    dsimp only
    split <;> rfl
  · rfl

/-! ## The nearest grid point (R29) -/

/-- A point is nearest to a position, the lower of two at one distance, among those of a predicate. -/
def NearestOf (p : Nat) (points : Nat → Prop) (g : Nat) : Prop :=
  points g ∧ ∀ x, points x → ((p : Int) - g).natAbs < ((p : Int) - x).natAbs
    ∨ (((p : Int) - g).natAbs = ((p : Int) - x).natAbs ∧ g ≤ x)

theorem NearestOf.unique {p g h : Nat} {points : Nat → Prop} (hg : NearestOf p points g) (hh : NearestOf p points h) : g = h := by
  obtain ⟨hgp, hgmin⟩ := hg
  obtain ⟨hhp, hhmin⟩ := hh
  rcases hgmin h hhp with h1 | h1 <;> rcases hhmin g hgp with h2 | h2 <;> omega

theorem nearest_nearestOf (p : Nat) (points : List Nat) (best : Nat) (h : (best :: points).Pairwise (· ≤ ·)) :
    NearestOf p (· ∈ best :: points) (nearest p points best) := by
  induction points generalizing best with
  | nil =>
    refine ⟨List.mem_cons_self, fun x hx => .inr ?_⟩
    rw [List.mem_singleton.1 hx]
    exact ⟨rfl, Nat.le_refl _⟩
  | cons g rest ih =>
    obtain ⟨hbest, htail⟩ := List.pairwise_cons.1 h
    obtain ⟨hg, hrest⟩ := List.pairwise_cons.1 htail
    have hbg := hbest g List.mem_cons_self
    have hsorted : ∀ b, b = best ∨ b = g → (b :: rest).Pairwise (· ≤ ·) := fun b hb => by
      refine List.pairwise_cons.2 ⟨fun x hx => ?_, hrest⟩
      rcases hb with rfl | rfl
      · exact hbest x (List.mem_cons_of_mem _ hx)
      · exact hg x hx
    rw [nearest]
    split
    next hlt =>
      obtain ⟨hmem, hmin⟩ := ih g (hsorted g (.inr rfl))
      refine ⟨List.mem_cons_of_mem _ hmem, fun x hx => ?_⟩
      rcases List.mem_cons.1 hx with rfl | hx
      · rcases hmin g List.mem_cons_self with hn | hn <;> omega
      · exact hmin x hx
    next hge =>
      obtain ⟨hmem, hmin⟩ := ih best (hsorted best (.inl rfl))
      refine ⟨?_, fun x hx => ?_⟩
      · rcases List.mem_cons.1 hmem with hm | hm
        · rw [hm]
          exact List.mem_cons_self
        · exact List.mem_cons_of_mem _ (List.mem_cons_of_mem _ hm)
      · rcases List.mem_cons.1 hx with rfl | hx
        · exact hmin x List.mem_cons_self
        · rcases List.mem_cons.1 hx with rfl | hx
          · rcases hmin best List.mem_cons_self with hn | hn <;> omega
          · exact hmin x (List.mem_cons_of_mem _ hx)

theorem mem_gridPoints {g : OnsetGrid} {x : Nat} :
    x ∈ gridPoints g ↔ (∃ j, j < g.beats ∧ x = j * (g.len / g.beats)) ∨ x = g.len := by
  simp only [gridPoints, OnsetGrid.beatLength, List.mem_append, List.mem_map, List.mem_range, List.mem_singleton]
  exact or_congr_left ⟨fun ⟨j, hj, h⟩ => ⟨j, hj, h.symm⟩, fun ⟨j, hj, h⟩ => ⟨j, hj, h.symm⟩⟩

theorem gridPoints_sorted (g : OnsetGrid) : (gridPoints g).Pairwise (· ≤ ·) := by
  unfold gridPoints
  refine List.pairwise_append.2 ⟨?_, List.pairwise_singleton _ _, fun x hx y hy => ?_⟩
  · refine List.Pairwise.map _ (fun a b h => Nat.mul_le_mul_right _ (Nat.le_of_lt h)) ?_
    exact List.pairwise_lt_range
  · obtain ⟨j, hj, rfl⟩ := List.mem_map.1 hx
    rw [List.mem_singleton.1 hy]
    calc j * g.beatLength ≤ g.beats * (g.len / g.beats) := Nat.mul_le_mul_right _ (Nat.le_of_lt (List.mem_range.1 hj))
      _ ≤ g.len := Nat.mul_div_le _ _

theorem onsetError_nearest {g : OnsetGrid} (hb : 1 ≤ g.beats) {x : Nat}
    (h : NearestOf g.p (fun x => (∃ j, j < g.beats ∧ x = j * (g.len / g.beats)) ∨ x = g.len) x) :
    onsetError g = (g.p : Int) - x := by
  have hzero : (0 :: gridPoints g).Pairwise (· ≤ ·) := List.pairwise_cons.2 ⟨fun _ _ => Nat.zero_le _, gridPoints_sorted g⟩
  obtain ⟨hmem, hmin⟩ := nearest_nearestOf g.p (gridPoints g) 0 hzero
  have h0 : 0 ∈ gridPoints g := mem_gridPoints.2 (.inl ⟨0, hb, by rw [Nat.zero_mul]⟩)
  have hnear : NearestOf g.p (fun x => (∃ j, j < g.beats ∧ x = j * (g.len / g.beats)) ∨ x = g.len)
      (nearest g.p (gridPoints g) 0) := by
    refine ⟨mem_gridPoints.1 ?_, fun y hy => hmin y (List.mem_cons_of_mem _ (mem_gridPoints.2 hy))⟩
    rcases List.mem_cons.1 hmem with hm | hm
    · rw [hm]
      exact h0
    · exact hm
  unfold onsetError
  rw [hnear.unique h]

/-! ## Engines that differ in their notes of an onset (entry 51) -/

/-- Engine `t` is `X` but for its note of a detector onset, which it has only where `X` has one. -/
def Engine.butHeard (t X : Engine) : Prop := t = { X with heard := t.heard } ∧ (X.heard = none → t.heard = none)

theorem Engine.butHeard.refl (X : Engine) : X.butHeard X := ⟨rfl, id⟩

/-- An operation of the follower that does not read the notes. -/
theorem Engine.butHeard.onFollower {f : Engine → Engine} (hf : ∀ (E : Engine) heard, f { E with heard := heard } =
    { f E with heard := heard }) {t X : Engine} (h : t.butHeard X) : (onFollower f t).butHeard (f X) := by
  obtain ⟨ht, hnone⟩ := h
  have hheard : ∀ E : Engine, (f E).heard = E.heard := fun E => by
    have h := congrArg (fun T : Engine => T.heard) (hf E E.heard)
    exact h
  obtain ⟨heard, hkeep, hgives⟩ := onFollower_gives (hheard t)
  have hft : f t = { f X with heard := t.heard } := (congrArg f ht).trans (hf X t.heard)
  refine ⟨?_, fun hn => ?_⟩
  · rw [hgives, hft]
  · rw [hgives]
    exact hkeep (hnone ((hheard X).symm.trans hn))

theorem Engine.butHeard.countCues {t X : Engine} (h : t.butHeard X) (b : Boundary) (w : Nat) :
    (countCues b w t).butHeard { X with cues := { X.cues with list := countList b w X.cues.list } } := by
  obtain ⟨ht, hnone⟩ := h
  have hcues : t.cues = X.cues := by rw [ht]
  refine ⟨?_, fun hn => ?_⟩
  · rw [Machine.countCues, hcues]
    exact congrArg (fun E : Engine => { E with
      cues := { X.cues with list := countList b w X.cues.list }
      heard := t.heard.map fun h : Heard => { h with cues := countList b w h.cues } }) ht
  · show Option.map _ t.heard = none
    rw [hnone hn]
    rfl

theorem givesButHeard_answered {o : Host.Outcome State Fault Refusal} {s : State} {m : Message} {rest : List Message} {st : Status}
    {data : List ReplyItem} {t X : Engine} (ho : o = .next (s.answered m rest st data t)) (h : t.butHeard X) :
    givesButHeard o (s.answered m rest st data X) := by
  obtain ⟨ht, hnone⟩ := h
  refine ⟨t.heard, hnone, ho.trans ?_⟩
  exact congrArg (fun E => Host.Outcome.next (s.answered m rest st data E)) ht

/-! ## TAP -/

/-- What the measurement of an onset does to the follower, but for the notes of an onset. -/
def measures (kind : OnsetKind) (e : Engine) : Engine :=
  match measured kind e with
  | none => e
  | some g =>
    let err := onsetError g
    let ok := decide (err.natAbs ≤ e.fol.window)
    let e1 := { e with fol := { e.fol with lastOnset := some { err := err, kind := kind, accepted := ok } } }
    if ok then acceptOnset err g.beatLength e1 else e1

theorem measures_none {kind : OnsetKind} {e : Engine} (h : measured kind e = none) : measures kind e = e := by
  rw [measures, h]

theorem measures_rejects {kind : OnsetKind} {e : Engine} {g : OnsetGrid} (h : measured kind e = some g)
    (hw : e.fol.window < (onsetError g).natAbs) : measures kind e =
      { e with fol := { e.fol with lastOnset := some { err := onsetError g, kind := kind, accepted := false } } } := by
  rw [measures, h]
  have hok : decide ((onsetError g).natAbs ≤ e.fol.window) = false := decide_eq_false (by omega)
  simp only [hok, Bool.false_eq_true, if_false]

/-- The follower once it has accepted an onset: E filtered, TRACKING, its trim computed (R30, R31). -/
def Follower.accepts (f : Follower) (err : Int) (kind : OnsetKind) (beat : Nat) : Follower :=
  { f with
    lastOnset := some { err := err, kind := kind, accepted := true }
    err := f.err + (err * 65536 - f.err) / (2 ^ f.shift : Nat), state := .tracking, beatCount := 0, coastDue := false
    delta := max (-(f.deltaMax : Int)) (min f.deltaMax
      (-(Int.tdiv (f.err + (err * 65536 - f.err) / (2 ^ f.shift : Nat)) ((f.span * beat : Nat) : Int)))) }

theorem measures_accepts {kind : OnsetKind} {e : Engine} {g : OnsetGrid} (h : measured kind e = some g)
    (hw : (onsetError g).natAbs ≤ e.fol.window) : measures kind e =
      (fun e1 : Engine => if e.fol.state = .waiting then e1.reports (.followState .tracking .onset) else e1)
        { e with fol := e.fol.accepts (onsetError g) kind (g.len / g.beats) } := by
  rw [measures, h]
  have hok : decide ((onsetError g).natAbs ≤ e.fol.window) = true := decide_eq_true hw
  simp only [hok, if_true]
  unfold acceptOnset
  dsimp only
  unfold trimWith
  have htrim : ∀ (f : Follower) (beat : Nat), trimOf f beat
      = max (-(f.deltaMax : Int)) (min f.deltaMax (-(Int.tdiv f.err ((f.span * beat : Nat) : Int)))) := fun f beat => by
    unfold trimOf towardZeroDiv
    exact clampInt_eq (by omega) _
  by_cases hs : e.fol.state = .waiting
  · rw [if_pos hs, if_pos hs, if_pos (by rfl), htrim]
    rfl
  · rw [if_neg hs, if_neg hs, if_pos (by rfl), htrim]
    rfl

theorem measures_heard (kind : OnsetKind) (e : Engine) (heard : Option Heard) :
    measures kind { e with heard := heard } = { measures kind e with heard := heard } := by
  unfold measures
  rw [show measured kind { e with heard := heard } = measured kind e from rfl]
  cases measured kind e with
  | none => rfl
  | some g =>
    dsimp only
    split
    · unfold acceptOnset trimWith
      dsimp only
      by_cases hs : e.fol.state = .waiting
      · rw [if_pos hs, if_pos hs]
        rfl
      · rw [if_neg hs, if_neg hs]
        rfl
    · rfl

theorem tap_open {e : Engine} (h : e.clk.frameOpen = true) : tap [] e = (handOnset .tap e, { status := .ok, data := [] }) := by
  unfold tap
  rw [if_neg (by decide), if_pos h]

theorem tap_closed {e : Engine} (h : e.clk.frameOpen = false) :
    tap [] e = ({ e with cyc := { e.cyc with owedTaps := e.cyc.owedTaps + 1 } }, { status := .ok, data := [] }) := by
  unfold tap
  rw [if_neg (by decide), if_neg (by rw [h]; decide)]

/-- The tap of a frame on which neither an AUTO_CLOSE nor a COAST is due. -/
theorem handOnset_butHeard {e : Engine} (ha : autoCloseDue e = false) (hc : e.fol.coastDue = false) :
    (handOnset .tap e).butHeard (measures .tap { e with cues := { e.cues with list := countList .onset 0 e.cues.list } }) := by
  have hcoast : (coast e).butHeard e := by
    have hset : (if e.fol.coastDue = true then setFollowState .waiting .coast e else e) = e := if_neg (by rw [hc]; decide)
    obtain ⟨heard, hnone, hgives⟩ := onFollower_gives (e := e)
      (f := fun e => if e.fol.coastDue = true then setFollowState .waiting .coast e else e) (by rw [hset])
    rw [hset] at hgives
    refine ⟨?_, fun hn => ?_⟩
    · rw [show coast e = _ from hgives]
    · rw [show coast e = _ from hgives]
      exact hnone hn
  unfold handOnset
  rw [autoClose_not_due ha]
  exact (hcoast.countCues .onset 0).onFollower (f := measures .tap) (measures_heard .tap)

end Sys2Proof.Machine

namespace Sys2Proof.Settled
open Sys2Proof.Machine

/-- Settles O29: what is due on the frame first, then the cues that await the onset, then its measurement. -/
theorem tapMakesOnset : Obligations.TapMakesOnset := by
  have hcount : ∀ list : List Cue, countList .onset 0 list = list.mapIdx fun i c =>
      if c.quantum = .onset ∧ 0 < c.remaining then c.counts 0 (list.take i) else c := fun list => by
    rw [countList_eq]
    refine List.mapIdx_eq_mapIdx_iff.2 fun i _ => ?_
    unfold Cue.count Cue.counts
    rw [Nat.zero_max]
    exact if_congr (and_congr_left fun _ => beq_iff_eq) rfl rfl
  have htap : ∀ {s : State} {m : Message} {rest : List Message} {E : Engine}, s.Takes 15 m [] rest → s.eng.clk.frameOpen = true →
      E.clk = s.eng.clk → handOnset .tap E = handOnset .tap s.eng → exec .tap s = exec .tap (s.giving E) :=
    fun {s m rest E} h hf hclk hhand => by
      have ht : (s.giving E).Takes 15 m [] rest :=
        { powered := h.powered, started := by rw [← h.started, ← hclk]; rfl, head := h.head, kind := h.kind, whole := h.whole
          payload := h.payload }
      refine (commandRow_answers h (tap_open hf)).trans (Eq.trans ?_ (commandRow_answers ht (tap_open ?_)).symm)
      · rw [show (s.giving E).eng = E from rfl, hhand]
        rfl
      · rw [show (s.giving E).eng = E from rfl, hclk]
        exact hf
  refine ⟨fun s m rest h => ⟨fun hf => commandRow_answers h (tap_closed hf), fun hf => ⟨?_, fun ha => ?_⟩,
    fun hf ha hc hoff => ?_⟩, fun s m rest grid g h hf ha hc hsrc hst hgrid hb => ?_⟩
  · exact ⟨_, engineRow_on h.powered _, htap h hf (autoClose_sides (.refl s.eng)).clk (by
      unfold handOnset
      rw [autoClose_once])⟩
  · refine ⟨_, engineRow_on h.powered _, htap h hf (coast_sides (.refl s.eng)).clk ?_⟩
    obtain ⟨fol, evq, heard, hcoast⟩ := coast_only s.eng
    have honce := coast_once s.eng
    have hdue : autoCloseDue (Machine.coast s.eng) = false := by
      rw [hcoast]
      exact ha
    unfold handOnset
    rw [autoClose_not_due hdue, autoClose_not_due ha, honce]
  · intro list
    refine givesButHeard_answered (commandRow_answers h (tap_open hf)) ?_
    have hX := handOnset_butHeard ha hc
    rw [hcount, measures_none] at hX
    · exact hX
    · unfold measured
      split
      next hn =>
        obtain ⟨hstate, hsource⟩ := hn
        rcases hoff with h | h | h
        · rw [show s.eng.fol.state = .off from h] at hstate
          rcases hstate with h | h <;> cases h
        · exact h
        · rcases hsource with h' | h'
          · cases h'
          · exact absurd h h'
      next => rfl
  · intro list counted beat points dist hg hmin err f
    have hX := handOnset_butHeard ha hc
    rw [hcount] at hX
    have hrow := commandRow_answers h (tap_open hf)
    have herr : onsetError grid = err := onsetError_nearest hb ⟨hg, hmin⟩
    have hmeasured : measured .tap counted = some grid := by
      unfold measured
      rw [if_pos]
      · exact hgrid
      · refine ⟨?_, .inr hsrc⟩
        cases hfs : s.eng.fol.state with
        | off => exact absurd hfs hst
        | waiting => exact .inl rfl
        | tracking => exact .inr rfl
    refine ⟨fun hw => ?_, fun hw => ?_⟩
    · intro big q f1 e1
      refine givesButHeard_answered hrow ?_
      rw [measures_accepts (g := grid) hmeasured (by rw [herr]; exact hw), herr] at hX
      exact hX
    · intro f1
      refine givesButHeard_answered hrow ?_
      rw [measures_rejects (g := grid) hmeasured (by rw [herr]; exact hw), herr] at hX
      exact hX

end Sys2Proof.Settled
end

section
/-! LOCK_ACQUIRED and LOCK_LOST, and the ends of the elastic buffer's fill and recoveries (R146, R149 to R152). -/

set_option Elab.async false

namespace Sys2Proof.Machine

/-! ## The waiting frames that find P0 SEARCHING (R149; entry 18) -/

/-- The good run after the judged frames of a list. -/
def goodRun (n : Nat) (ws : List (Option (Sample × Sample))) : Nat :=
  ws.foldl (fun n w => if w.isSome = true then min 8 (n + 1) else 0) n

theorem search_fold (ws : List (Option (Sample × Sample))) (q : Port) :
    ws.foldl (fun q w => q.search w.isSome) q = { q with good := goodRun q.good ws } := by
  induction ws generalizing q with
  | nil => rfl
  | cons w rest ih => exact ih _

/-- Good frames only: the run rises to 8 at most. -/
theorem goodRun_good (n : Nat) (hn : n ≤ 8) (good : List (Sample × Sample)) :
    goodRun n (good.map some) = min 8 (n + good.length) := by
  induction good generalizing n with
  | nil => exact (Nat.min_eq_right hn).symm
  | cons g rest ih =>
    refine (ih (min 8 (n + 1)) (Nat.min_le_left _ _)).trans ?_
    rw [List.length_cons]
    omega

/-- What comes before the last bad frame does not count. -/
theorem goodRun_split {before : List (Option (Sample × Sample))} (h : before = [] ∨ before.getLast? = some none)
    (good : List (Sample × Sample)) : goodRun 0 (before ++ good.map some) = min 8 good.length := by
  have hzero : goodRun 0 before = 0 := by
    obtain rfl | h := h
    · rfl
    · obtain ⟨front, rfl⟩ := List.getLast?_eq_some_iff.1 h
      unfold goodRun
      rw [List.foldl_append]
      rfl
  have happend : goodRun 0 (before ++ good.map some) = goodRun (goodRun 0 before) (good.map some) :=
    List.foldl_append
  rw [happend, hzero, goodRun_good 0 (by decide), Nat.zero_add]

/-! ## LOCK_LOST (R146, R149) -/

section
variable {e : Engine} {p : PortIx}

/-- A port with its fourth bad frame, as it stands before it tells of its lock. -/
def Engine.lost (e : Engine) (p : PortIx) : Engine :=
  ({ e with ports := upd e.ports p fun _ => (e.ports[p]).drained .searching } : Engine).slipEnded p e.ports[p]

/-- A port that has told of its lost lock: P0 gives way when it was the clock source, and none of its frames waits. -/
def Engine.given (quiet e : Engine) (p : PortIx) : Engine :=
  if p = 0 ∧ e.clk.active = .port0 then (quiet.reports (.laneLock p .searching)).fallenBack
  else (quiet.reports (.laneLock p .searching)).unawaited p

theorem Engine.given_of_plain {quiet : Engine} (h : ¬(p = 0 ∧ e.clk.active = .port0)) :
    quiet.given e p = (quiet.reports (.laneLock p .searching)).unawaited p := if_neg h

theorem Engine.given_of_source {quiet : Engine} (h : p = 0 ∧ e.clk.active = .port0) :
    quiet.given e p = (quiet.reports (.laneLock p .searching)).fallenBack := if_pos h

theorem lost_keeps : (e.lost p).clk = e.clk ∧ (e.lost p).ports = upd e.ports p fun _ => (e.ports[p]).drained .searching := by
  unfold Engine.lost Engine.slipEnded
  split <;> exact ⟨rfl, rfl⟩

theorem given_keeps (quiet e : Engine) (p : PortIx) :
    (quiet.given e p).ports = quiet.ports ∧ (p = 0 → (quiet.given e p).clk.p0Frames = []) := by
  unfold Engine.given Engine.unawaited
  split
  · exact ⟨rfl, fun _ => rfl⟩
  · split
    · exact ⟨rfl, fun _ => rfl⟩
    · next hp => exact ⟨rfl, fun h => absurd h hp⟩

theorem loseLock_lost (hl : e.ports[p].lock = .locked) (hb : 4 ≤ e.ports[p].bad) :
    ∃ quiet : Engine, quiet.silences (e.lost p) p ∧ (e.unheard p → quiet = e.lost p)
      ∧ (quiet.given e p).silent e p
      ∧ (quiet.given e p).ports[p] = (e.ports[p]).drained .searching
      ∧ loseLock p e = { quiet.given e p with
          ports := upd (quiet.given e p).ports p fun q =>
            { q with good := goodRun q.good (if p = 0 then e.clk.p0Frames else []) } } := by
  obtain ⟨quiet, hq, hu, hlock⟩ := dropLock_leaves (e := e) (p := p) (r := e.ports[p]) (k := .searching) ⟨rfl, rfl, rfl⟩ hl
    (by decide)
  have hsilent := leaves_silent hq (.laneLock p .searching)
  have hentered : e.entered p e.ports[p] .searching = e.lost p := by
    unfold Engine.entered Engine.lost
    rw [Port.drained_eq hl]
  rw [hentered] at hq hu
  have hsame : ({ e with ports := upd e.ports p fun _ => e.ports[p] } : Engine) = e := by rw [upd_id e.ports p rfl]
  have hdue : lockLostDue e.ports[p] = true := by
    unfold lockLostDue
    rw [hl, decide_eq_true hb]
    rfl
  refine ⟨quiet, hq, hu, hsilent, ?_, ?_⟩
  · rw [(given_keeps quiet e p).1, hq.rest]
    exact (congrArg (fun ports : Vector Port 4 => ports[p]) lost_keeps.2).trans (upd_self e.ports p _)
  · unfold loseLock
    rw [if_pos hdue, ← hsame, hlock, hsame]
    have hfold : (fun q : Port => (if p = 0 then e.clk.p0Frames else []).foldl (fun q w => q.search w.isSome) q)
        = fun q => { q with good := goodRun q.good (if p = 0 then e.clk.p0Frames else []) } :=
      funext fun q => search_fold _ q
    refine (congrArg (fun f => modPort p f _) hfold).trans ?_
    rfl

/-- No frame of P0 waits: the port stays as it is once it has told of its lock. -/
theorem loseLock_unwaited (hl : e.ports[p].lock = .locked) (hb : 4 ≤ e.ports[p].bad) (hu : e.unheard p)
    (hw : p = 0 → e.clk.p0Frames = []) : loseLock p e = (e.lost p).given e p := by
  obtain ⟨quiet, -, hquiet, -, hport, hlose⟩ := loseLock_lost hl hb
  rw [hquiet hu] at hport hlose
  have hnone : (if p = 0 then e.clk.p0Frames else []) = [] := by
    split
    next hp => exact hw hp
    next => rfl
  rw [hlose, hnone]
  generalize (e.lost p).given e p = T
  have hsame : upd T.ports p (fun q => { q with good := goodRun q.good [] }) = T.ports := upd_id T.ports p rfl
  rw [hsame]

/-- The frames of P0 that wait find it SEARCHING: those after the last bad one count. -/
theorem loseLock_waited {before : List (Option (Sample × Sample))} {good : List (Sample × Sample)}
    (hl : e.ports[p].lock = .locked) (hb : 4 ≤ e.ports[p].bad) (hbefore : before = [] ∨ before.getLast? = some none)
    (hw : (if p = 0 then e.clk.p0Frames else []) = before ++ good.map some) :
    ∃ quiet : Engine, quiet.silences (e.lost p) p ∧ (quiet.given e p).ports[p] = (e.ports[p]).drained .searching
      ∧ loseLock p e = { quiet.given e p with
          ports := upd (quiet.given e p).ports p fun q => { q with good := min 8 good.length } } := by
  obtain ⟨quiet, hq, -, -, hport, hlose⟩ := loseLock_lost hl hb
  refine ⟨quiet, hq, hport, ?_⟩
  rw [hlose, hw]
  generalize quiet.given e p = T at hport
  have hgood : T.ports[p].good = 0 := by rw [hport]; rfl
  have hrun : goodRun T.ports[p].good (before ++ good.map some) = min 8 good.length := by
    rw [hgood, goodRun_split hbefore]
  have hupd : upd T.ports p (fun q => { q with good := goodRun q.good (before ++ good.map some) })
      = upd T.ports p fun q => { q with good := min 8 good.length } := 
    upd_congr T.ports p _ _ (congrArg (fun n => ({ T.ports[p] with good := n } : Port)) hrun)
  rw [hupd]

/-! ## LOCK_ACQUIRED and the elastic buffer's events (R146, R149 to R152) -/

theorem acquireLock_locks (hl : e.ports[p].lock = .searching) (hg : 8 ≤ e.ports[p].good) : acquireLock p e =
    let e1 := ({ e with ports := upd e.ports p fun _ =>
      { e.ports[p] with lock := .locked, bad := 0, filling := true, buf := [] } } : Engine).reports (.laneLock p .locked)
    if p = 0 ∧ e.clk.selected = .port0 ∧ e.clk.pllLocked = true then adoptPort0 .lock e1 else e1 := by
  have hdue : lockDue e.ports[p] = true := by
    unfold lockDue
    rw [hl, decide_eq_true hg]
    rfl
  unfold acquireLock
  rw [if_pos hdue, modPort, upd_value]
  rfl

theorem fillDone_fills (hl : e.ports[p].lock = .locked) (hf : e.ports[p].filling = true)
    (hb : e.ports[p].fill ≤ e.ports[p].buf.length) :
    fillDone p e = { e with ports := upd e.ports p fun _ => { e.ports[p] with filling := false } } := by
  have hdue : fillDue e.ports[p] = true := by
    unfold fillDue
    rw [hl, hf, decide_eq_true hb]
    rfl
  unfold fillDone
  rw [if_pos hdue, modPort, upd_value]

theorem slipEnd_reports {k : Recovery} (hs : e.ports[p].slipEnds = true) (hr : e.ports[p].recovery = k) (hk : k ≠ .none) :
    slipEnd k p e = ({ e with ports := upd e.ports p fun _ =>
      { e.ports[p] with recovery := .none, slip := 0, slipEnds := false } } : Engine).reports
        (.slip p k e.ports[p].slip) := by
  unfold slipEnd
  dsimp only
  rw [if_pos ⟨hs, hr, hk⟩]
  unfold endRecovery
  dsimp only
  rw [if_neg (by rw [hr]; exact hk), hr, modPort, upd_value]
  rfl

end

end Sys2Proof.Machine

namespace Sys2Proof.Settled
open Sys2Proof.Machine

/-- Settles O57: one equation for a port that loses its lock, whose silenced lanes `silenceLanes_spec` describes, with the
run of the frames that wait counted by `goodRun`; the other events act on their port alone. -/
theorem portEvents : Obligations.PortEvents := by
  unfold Obligations.PortEvents
  intro s p hon e q put locked adopted slipped
  have hlost : (put (q.drained .searching)).slipEnded p q = e.lost p := rfl
  refine ⟨fun hl hg hno => ?_, fun hl hg hp hs hpll => ?_, fun hl hb => ?_, fun hl hb hu hno hw => ?_,
    fun hl hb hu hp ha hw => ?_, fun before good hl hb hp hbefore hw => ?_, fun before good hl hb hbefore hw => ?_,
    fun hl hf hb => ?_, fun hs hr => ?_, fun hs hr => ?_⟩
  · refine (engineRow_on hon (acquireLock p)).trans ?_
    rw [acquireLock_locks hl hg]
    exact congrArg (fun t => Host.Outcome.next (s.giving t)) (if_neg hno)
  · refine (engineRow_on hon (acquireLock p)).trans ?_
    rw [acquireLock_locks hl hg]
    refine congrArg (fun t => Host.Outcome.next (s.giving t)) ((if_pos ⟨hp, hs, hpll⟩).trans ?_)
    subst hp
    unfold adoptPort0
    simp only [modPort, Engine.reports, upd_upd]
    rfl
  · obtain ⟨quiet, -, -, hsilent, -, hlose⟩ := loseLock_lost hl hb
    refine ⟨_, engineRow_on hon (loseLock p), ?_⟩
    show (loseLock p e).silent e p
    rw [hlose]
    exact hsilent.of ⟨rfl, rfl, rfl, rfl, rfl⟩ ⟨rfl, rfl, rfl⟩
  · refine (engineRow_on hon (loseLock p)).trans ?_
    have hclk : ((e.lost p).reports (.laneLock p .searching)).unawaited p = (e.lost p).reports (.laneLock p .searching) := by
      unfold Engine.unawaited
      split
      next hp =>
        have hnone : ((e.lost p).reports (.laneLock p .searching)).clk.p0Frames = [] :=
          (congrArg Clock.p0Frames lost_keeps.1).trans (hw hp)
        rw [← hnone]
      next => rfl
    rw [loseLock_unwaited hl hb hu hw, Engine.given_of_plain hno, hclk]
    rfl
  · refine (engineRow_on hon (loseLock p)).trans ?_
    rw [loseLock_unwaited hl hb hu fun _ => hw, Engine.given_of_source ⟨hp, ha⟩]
    rfl
  · obtain ⟨quiet, -, hport, hlose⟩ := loseLock_waited hl hb hbefore ((if_pos hp).trans hw)
    refine ⟨_, engineRow_on hon (loseLock p), ?_, ?_⟩
    · show (loseLock p e).clk.p0Frames = []
      rw [hlose]
      exact (given_keeps quiet e p).2 hp
    · show (loseLock p e).ports[p] = _
      rw [hlose]
      exact (upd_self _ p _).trans (congrArg (fun q : Port => { q with good := min 8 good.length }) hport)
  · obtain ⟨quiet, hq, -, hlose⟩ := loseLock_waited hl hb hbefore hw
    refine ⟨quiet, hq, (engineRow_on hon (loseLock p)).trans ?_⟩
    rw [hlose]
    rfl
  · refine (engineRow_on hon (fillDone p)).trans ?_
    rw [fillDone_fills hl hf hb]
  · refine (engineRow_on hon (slipEnd .under p)).trans ?_
    rw [slipEnd_reports hs hr (by decide)]
  · refine (engineRow_on hon (slipEnd .over p)).trans ?_
    rw [slipEnd_reports hs hr (by decide)]

end Sys2Proof.Settled

end

section
/-! What is settled as a frame ends, and what the next frame does, leave alone (entry 3): a fact of the engine that holds
whatever the voices, slots, layers, memory and reports are is carried through. -/

set_option Elab.async false

namespace Sys2Proof.Machine

/-! ## As a frame ends -/

/-- A fact of the engine that stands whatever voices, slots, reports and mixer it has. -/
structure Sounds (I : Engine → Prop) : Prop where
  voices : ∀ {e : Engine} x, I e → I { e with voices := x }
  slots : ∀ {e : Engine} x, I e → I { e with slots := x }
  evq : ∀ {e : Engine} x, I e → I { e with evq := x }
  mix : ∀ {e : Engine} x, I e → I { e with mix := x }

/-- One that stands also whatever layers, memory, splice and transfer the engine has, and whatever its lanes note of what
was staged. -/
structure Settles (I : Engine → Prop) : Prop extends Sounds I where
  layers : ∀ {e : Engine} x, I e → I { e with layers := x }
  mem : ∀ {e : Engine} x, I e → I { e with mem := x }
  xfer : ∀ {e : Engine} x, I e → I { e with xfer := x }
  splice : ∀ {e : Engine} x, I e → I { e with cyc := { e.cyc with splice := x } }
  taken : ∀ {e : Engine} (l : LaneIx) (x : Lane → List (LayerIx × Nat × Nat)), I e →
    I (modLane l (fun ln => { ln with taken := x ln }) e)

section
variable {I : Engine → Prop} (hI : Settles I) {e : Engine}

theorem ite_of {c : Prop} [Decidable c] {x y : Engine} (hx : I x) (hy : I y) : I (if c then x else y) := by
  split
  · exact hx
  · exact hy

include hI

theorem Settles.modVoices (f : Engine → LayerIx → Voice → Voice) (vs : List LayerIx) (h : I e) :
    I (vs.foldl (fun e v => modVoice v (f e v) e) e) :=
  foldl_induct (fun _ _ h => hI.voices _ h) vs h

theorem Settles.post (ev : Event) (h : I e) : I (post ev e) := hI.evq _ h

theorem Settles.setLayerState (l : LayerIx) (st : LayerState) (c : LayerCause) (n : Nat) (h : I e) :
    I (setLayerState l st c n e) := hI.post _ (hI.layers _ h)

theorem Settles.playVoice (l : LayerIx) (h : I e) : I (playVoice l e) := ite_of (hI.voices _ h) h

theorem Settles.closeGap (s : SlotIx) (h : I e) : I (closeGap s e) := by
  unfold Machine.closeGap
  split
  · exact hI.post _ (hI.slots _ h)
  · exact h

theorem Settles.releaseSlot (l : LayerIx) (h : I e) : I (releaseSlot l e) := by
  unfold Machine.releaseSlot
  split
  · exact hI.layers _ (hI.slots _ h)
  · exact h

theorem Settles.grantHolds (h : I e) : I (grantHolds e) :=
  eachLayer_induct (fun _ _ h => ite_of (hI.post _ (hI.layers _ h)) h) h

theorem Settles.abandonSplice (r : SkipReason) (h : I e) : I (abandonSplice r e) := by
  unfold Machine.abandonSplice
  split
  · exact hI.post _ (hI.modVoices _ _ (hI.splice _ h))
  · exact h

theorem Settles.endCrossfade (h : I e) : I (endCrossfade e) := by
  unfold Machine.endCrossfade
  split
  · exact hI.modVoices _ _ (hI.splice _ h)
  · exact h

/-! ### Voices -/

theorem Settles.recoverVoice (l : LayerIx) (h : I e) : I (recoverVoice l e) := by
  unfold Machine.recoverVoice
  exact ite_of (hI.post _ (hI.voices _ h)) (hI.voices _ h)

theorem Settles.recoverDone (l : LayerIx) (h : I e) : I (recoverDone l e) := by
  unfold Machine.recoverDone
  extract_lets e1
  have h1 : I e1 := hI.recoverVoice l h
  split
  · exact hI.slots _ h1
  · exact h1

theorem Settles.recoverFrame (l : LayerIx) (h : I e) : I (recoverFrame l e) := by
  unfold Machine.recoverFrame
  extract_lets e1
  have h1 : I e1 := hI.recoverDone l h
  exact ite_of (hI.mix _ h1) h1

theorem Settles.settleVoice (l : LayerIx) (h : I e) : I (settleVoice l e) := by
  unfold Machine.settleVoice
  extract_lets e1
  have h1 : I e1 := ite_of (hI.recoverFrame l h) h
  exact ite_of (hI.voices _ h1) h1

theorem Settles.settleFade (l : LayerIx) (h : I e) : I (settleFade l e) := by
  unfold Machine.settleFade
  extract_lets e1
  have h1 : I e1 := ite_of (hI.voices _ (hI.mem _ h)) h
  have h2 : I (clearFadeDone l e1) := ite_of (hI.voices _ (hI.voices _ h1)) (hI.voices _ h1)
  exact ite_of h2 h1

/-! ### Slots -/

theorem Settles.stageNew (s : SlotIx) (l : LayerIx) (key pos : Nat) (x : Sample) (h : I e) :
    I (stageNew s l key pos x e) := ite_of (hI.slots _ h) (hI.slots _ (hI.closeGap s h))

theorem Settles.stageWrite (s : SlotIx) (l : LayerIx) (w : SlotWrite) (h : I e) : I (stageWrite s l w e) := by
  have hagain : ∀ key pos x, I (stageAgain s l key pos x e) := fun key pos x => by
    unfold stageAgain
    split
    · exact h
    · exact ite_of (hI.slots _ h) (hI.stageNew s l key pos x h)
    · exact hI.stageNew s l key pos x h
  unfold Machine.stageWrite
  split
  · exact ite_of (hagain _ _ _) (hI.stageNew _ _ _ _ _ h)
  · exact h

theorem Settles.commitWrite (s : SlotIx) (w : SlotWrite) (h : I e) : I (commitWrite s e w) := by
  have hgrow : ∀ l {E : Engine}, I E → I (growWritten l E) := fun l E h => by
    unfold growWritten
    split
    · exact hI.layers _ h
    · exact h
  unfold Machine.commitWrite
  extract_lets sl
  split
  · exact h
  next l _ =>
    split
    · exact h
    · exact hI.slots _ (hI.stageWrite s l w (ite_of (hI.layers _ (hI.mem _ h)) h))
    · exact hI.slots _ (hI.stageWrite s l w h)
    · extract_lets e1
      have h1 : I e1 := hI.slots _ (hI.stageWrite s l w h)
      exact ite_of h1 (hgrow l h1)

theorem Settles.commitSlot (s : SlotIx) (h : I e) : I (commitSlot s e) :=
  hI.slots _ (foldl_induct (fun w _ h => hI.commitWrite s w h) e.slots[s].pendingWrites h)

theorem Settles.noteTaken (s : SlotIx) (l : LayerIx) (h : I e) : I (noteTaken s l e) := by
  unfold Machine.noteTaken
  dsimp only
  split
  · exact hI.taken _ _ h
  · exact h

theorem Settles.completeFixed (s : SlotIx) (h : I e) : I (completeFixed s e) := by
  unfold Machine.completeFixed
  split
  · exact hI.grantHolds (hI.playVoice _ (hI.closeGap s (hI.setLayerState _ _ _ _
      (hI.releaseSlot _ (hI.commitSlot s (hI.noteTaken s _ h))))))
  · exact h

theorem Settles.settleSlot (s : SlotIx) (h : I e) : I (settleSlot s e) :=
  ite_of (hI.completeFixed s h) (hI.commitSlot s h)

/-! ### The mixer's reports -/

theorem Settles.reportClip (h : I e) : I (reportClip e) := by
  unfold Machine.reportClip
  split
  · exact h
  · exact ite_of (hI.mix _ h) (hI.post _ (hI.mix _ h))

theorem Settles.clipWindowEnd (h : I e) : I (clipWindowEnd e) := ite_of (hI.mix _ h) h

/-! ### The arbiter -/

theorem Settles.alignStreams (h : I e) : I (alignStreams e) := by
  unfold Machine.alignStreams
  split
  · exact hI.modVoices _ _ h
  · exact h

theorem Settles.zeroFeed (l : LayerIx) (h : I e) : I (zeroFeed l e) := by
  unfold Machine.zeroFeed
  extract_lets len pos n e1 stream spos
  have h1 : I e1 := ite_of (hI.voices _ h) h
  exact ite_of (hI.voices _ h1) h1

theorem Settles.arbitrate (h : I e) : I (arbitrate e) := by
  unfold Machine.arbitrate
  split
  · exact h
  · exact hI.mem _ (eachLayer_induct (fun l _ h => hI.zeroFeed l h) h)

theorem Settles.settleSplice (h : I e) : I (settleSplice e) := by
  unfold Machine.settleSplice
  extract_lets e1
  have h1 : I e1 := hI.arbitrate (hI.alignStreams h)
  exact ite_of (hI.abandonSplice _ h1) h1

theorem Settles.pageWrite (l : LayerIx) (key pos : Nat) (x : Sample) (h : I e) : I (pageWrite l key pos x e) := by
  unfold Machine.pageWrite
  split
  · exact hI.mem _ h
  · exact h

theorem Settles.chainWrites (l : LayerIx) (key : Nat) (xs : List Sample) (pos : Nat) (h : I e) :
    I (chainWrites l key pos xs e) := by
  induction xs generalizing pos e with
  | nil => exact h
  | cons x rest ih =>
    refine ih _ (?_ : I (chainWrite l key pos x e))
    unfold chainWrite
    exact ite_of (eachSlot_induct (fun _ _ h => hI.slots _ h) h) (hI.pageWrite l key pos x h)

theorem Settles.drainDone (g : Grant) (s : SlotIx) (h : I e) : I (drainDone g s e) := by
  have hwrites : ∀ (ws : List (Nat × Sample)) {E : Engine}, I E → I (drainWrites g.layer g.key ws E) := fun ws => by
    induction ws with
    | nil => exact fun h => h
    | cons w rest ih => exact fun h => ih (hI.pageWrite g.layer g.key w.1 w.2 h)
  exact hI.slots _ (hwrites _ h)

theorem Settles.jobDone (l : LayerIx) (k : FillKind) (h : I e) : I (jobDone l k e) :=
  hI.grantHolds (hI.post _ (hI.mem _ h))

theorem Settles.fillerDone (g : Grant) (h : I e) : I (fillerDone g e) := by
  have hzero : ∀ l {E : Engine}, I E → I (zeroFillDone l E) := fun l E h => by
    unfold zeroFillDone
    extract_lets e1 e2
    have h1 : I e1 := hI.jobDone l .zeroFill h
    have h2 : I e2 := ite_of (hI.mem _ h1) h1
    exact ite_of (hI.voices _ h2) h2
  unfold Machine.fillerDone
  split
  · exact h
  · split
    · split
      · extract_lets xs e1 mem e2
        have h2 : I e2 := hI.mem _ (hI.chainWrites g.layer g.key xs g.first h)
        split
        · exact ite_of (hI.jobDone _ _ (hI.layers _ h2)) (hI.layers _ h2)
        · exact h2
      · exact hI.mem _ h
    · extract_lets e1 done
      have h1 : I e1 := hI.chainWrites g.layer g.key _ g.first h
      exact ite_of (hzero _ h1) (hI.mem _ h1)

theorem Settles.transferDone (g : Grant) (h : I e) : I (transferDone g e).1 := by
  unfold Machine.transferDone
  split
  · exact h
  next t _ =>
    extract_lets e1 data t1 e2 e3
    have h1 : I e1 := ite_of (hI.chainWrites _ _ _ _ h) h
    have h3 : I e3 := ite_of (hI.layers _ (hI.xfer _ h1)) (hI.xfer _ h1)
    split
    · exact h3
    · exact hI.xfer _ h1

theorem Settles.completeGrant (h : I e) : I (completeGrant e).1 := by
  unfold Machine.completeGrant
  split
  · exact h
  next g _ =>
    extract_lets mem e0 out
    have h0 : I e0 := hI.mem _ h
    have hout : I out.1 := by
      unfold out
      split
      · exact h0
      · split
        · exact hI.drainDone g _ h0
        · exact ite_of h0 (hI.voices _ h0)
        · exact ite_of (hI.voices _ h0) h0
        · exact hI.transferDone g h0
        · exact hI.fillerDone g h0
    exact hI.arbitrate hout

/-- What the units settle as a frame ends, once cues and grant have. -/
theorem Settles.settleUnits (h : I e) :
    I (eachLayer Machine.settleFade (eachSlot Machine.settleSlot (eachLayer Machine.settleVoice e))) :=
  eachLayer_induct (fun l _ h => hI.settleFade l h) (eachSlot_induct (fun s _ h => hI.settleSlot s h)
    (eachLayer_induct (fun l _ h => hI.settleVoice l h) h))

end

/-! ## The frame's own work -/

/-- What the detector of a follower goes by (R26). -/
def Follower.detector (f : Follower) : BeatSource × Bool × Nat × Nat × Bool × Bool × Nat :=
  (f.source, f.held, f.threshold, f.holdOff, f.armed, f.arming, f.holdCount)

/-- A fact of the engine that stands whatever voices, memory, reports, mixer, cues and noted onset it has, whatever the
cycle clock holds in the same state with the same taps owed, and whatever the follower holds with the same detector. -/
structure Advances (I : Engine → Prop) : Prop where
  voices : ∀ {e : Engine} x, I e → I { e with voices := x }
  mem : ∀ {e : Engine} x, I e → I { e with mem := x }
  evq : ∀ {e : Engine} x, I e → I { e with evq := x }
  mix : ∀ {e : Engine} x, I e → I { e with mix := x }
  cues : ∀ {e : Engine} x, I e → I { e with cues := x }
  heard : ∀ {e : Engine} x, I e → I { e with heard := x }
  cyc : ∀ {e : Engine} (x : Cycle), x.state = e.cyc.state ∧ x.owedTaps = e.cyc.owedTaps → I e → I { e with cyc := x }
  fol : ∀ {e : Engine} (x : Follower), x.detector = e.fol.detector → I e → I { e with fol := x }

section
variable {I : Engine → Prop} (hI : Advances I) {e : Engine}
include hI

theorem Advances.modVoices (f : Engine → LayerIx → Voice → Voice) (vs : List LayerIx) (h : I e) :
    I (vs.foldl (fun e v => modVoice v (f e v) e) e) :=
  foldl_induct (fun _ _ h => hI.voices _ h) vs h

theorem Advances.post (ev : Event) (h : I e) : I (post ev e) := hI.evq _ h

theorem Advances.onFollower {f : Engine → Engine} (hf : ∀ e, I e → I (f e)) (h : I e) : I (onFollower f e) := by
  obtain ⟨heard, he⟩ := onFollower_only f e
  rw [he]
  exact hI.heard _ (hf e h)

theorem Advances.setFollowState (st : FollowState) (c : FollowCause) (h : I e) : I (setFollowState st c e) := by
  unfold Machine.setFollowState
  exact ite_of (hI.fol _ rfl h) (hI.post _ (hI.fol _ rfl h))

theorem Advances.coast (h : I e) : I (coast e) :=
  hI.onFollower (fun _ h => ite_of (hI.setFollowState _ _ h) h) h

theorem Advances.clearDecision (h : I e) : I (clearDecision e) := hI.onFollower (fun _ h => hI.fol _ rfl h) h

theorem Advances.trimWith (n : Nat) (h : I e) : I (trimWith n e) := ite_of (hI.fol _ rfl h) h

theorem Advances.countCues (b : Boundary) (w : Nat) (h : I e) : I (countCues b w e) := by
  have hcues := hI.cues { e.cues with list := countList b w e.cues.list } h
  exact hI.heard (e.heard.map fun h => { h with cues := countList b w h.cues }) hcues

theorem Advances.beatBoundary (w : Nat) (h : I e) : I (beatBoundary w e) := by
  have hbeat : ∀ {E : Engine}, I E → I (followBeat E) := hI.onFollower fun _ h => ite_of (hI.fol _ rfl h) h
  exact hbeat (hI.countCues _ w (hI.post _ h))

theorem Advances.bareBoundary (w : Nat) (h : I e) : I (bareBoundary w e) :=
  hI.beatBoundary w (hI.countCues _ w (hI.mix _ h))

theorem Advances.cycleBoundary (w : Nat) (h : I e) : I (cycleBoundary w e) :=
  eachLayer_induct (fun _ _ h => ite_of (hI.countCues _ w (hI.post _ h)) h) (hI.bareBoundary w h)

theorem Advances.abandonSplice (r : SkipReason) (h : I e) : I (abandonSplice r e) := by
  unfold Machine.abandonSplice
  split
  · exact hI.post _ (hI.modVoices _ _ (hI.cyc _ ⟨rfl, rfl⟩ h))
  · exact h

theorem Advances.wrapCycle (h : I e) : I (wrapCycle e) := by
  unfold Machine.wrapCycle
  extract_lets e1 e2 e3
  have h2 : I e2 := hI.clearDecision (hI.abandonSplice _ (hI.cyc _ ⟨rfl, rfl⟩ h))
  exact hI.cycleBoundary 0 (ite_of (hI.trimWith _ h2) h2)

theorem Advances.fireBeats (q fuel : Nat) (h : I e) : I (fireBeats q fuel e) := by
  induction fuel generalizing e with
  | zero => exact h
  | succ fuel ih => exact ite_of (ih (hI.beatBoundary 0 (hI.cyc _ ⟨rfl, rfl⟩ h))) h

theorem Advances.takeJump (h : I e) : I (takeJump e).1 := by
  unfold Machine.takeJump
  split
  · split
    · exact hI.abandonSplice _ h
    · exact hI.cyc _ ⟨rfl, rfl⟩ h
  · exact h

theorem Advances.decideSplice (h : I e) : I (decideSplice e) := by
  have hrequest : ∀ j {E : Engine}, I E → I (requestSplice j E) := fun j E h => by
    unfold requestSplice
    exact ite_of (hI.modVoices _ _ (hI.cyc _ ⟨rfl, rfl⟩ h)) h
  exact ite_of h (ite_of (hI.fol _ rfl h) (hrequest _ (hI.fol _ rfl h)))

theorem Advances.landJump (r : SpliceRec) (h : I e) : I (landJump r e) := by
  have hjump : ∀ v {E : Engine}, I E → I (jumpVoice r v E) := fun v E h => by
    unfold jumpVoice
    dsimp only
    split
    · exact hI.voices _ (hI.mem _ h)
    · exact hI.voices _ (hI.mem _ h)
    · exact ite_of (hI.voices _ (hI.mem _ h)) h
    · exact h
  exact eachLayer_induct (fun v _ h => hjump v h)
    (hI.post _ (ite_of (hI.trimWith _ (hI.fol _ rfl (hI.fireBeats _ _ h))) (hI.fireBeats _ _ h)))

theorem Advances.advanceCycle (jump : Bool) (h : I e) : I (advanceCycle jump e) := by
  unfold Machine.advanceCycle
  extract_lets e1 q out e2 e3
  have h1 : I e1 := hI.cyc _ ⟨rfl, rfl⟩ h
  have hout : I out.1 := by
    unfold out
    split
    · exact hI.takeJump h1
    · exact h1
  have h2 : I e2 := hI.fireBeats _ _ hout
  have h3 : I e3 := ite_of (hI.decideSplice h2) h2
  split
  · exact hI.wrapCycle h1
  · split
    · exact h3
    · exact hI.landJump _ h3

theorem Advances.cycleFrame (jump : Bool) (h : I e) : I (cycleFrame jump e) :=
  ite_of (hI.bareBoundary 0 (hI.cyc _ ⟨rfl, rfl⟩ h)) (ite_of (hI.advanceCycle jump h) h)

theorem Advances.noteGrid (h : I e) : I (noteGrid e) := hI.cyc _ ⟨rfl, rfl⟩ h

theorem Advances.measureOnset (k : OnsetKind) (h : I e) : I (measureOnset k e) := by
  have haccept : ∀ err n {E : Engine}, I E → I (acceptOnset err n E) := fun err n E h => by
    unfold acceptOnset
    extract_lets f e1 e2
    have h1 : I e1 := hI.fol _ rfl h
    exact hI.trimWith _ (ite_of (hI.post _ h1) h1)
  exact hI.onFollower (fun e h => by
    dsimp only
    split
    · exact h
    · exact ite_of (haccept _ _ (hI.fol _ rfl h)) (hI.fol _ rfl h)) h

variable (hclose : ∀ {E : Engine}, I E → I (autoClose E))
include hclose

theorem Advances.handOnset (k : OnsetKind) (h : I e) : I (handOnset k e) :=
  hI.measureOnset k (hI.countCues _ 0 (hI.coast (hclose h)))

theorem Advances.handTaps (n : Nat) (h : I e) : I (handTaps n e) := by
  induction n generalizing e with
  | zero => exact h
  | succ n ih => exact ih (hI.handOnset hclose .tap h)

end

/-! ## The sound of the frame -/

section
variable {I : Engine → Prop} (hI : Sounds I) {e : Engine}
include hI

theorem Sounds.runVoice (adv : Nat) (l : LayerIx) (h : I e) : I (runVoice adv l e) := by
  unfold Machine.runVoice
  dsimp only
  exact ite_of (hI.evq _ (hI.voices _ h)) (hI.voices _ h)

theorem Sounds.mixFrame (h : I e) : I (mixFrame e) := by
  unfold Machine.mixFrame
  extract_lets e1
  exact ite_of (hI.mix _ (hI.mix _ h)) (hI.mix _ (hI.mix _ (hI.mix _ h)))

/-- What slots, voices and mixer do on a frame once the lanes have their samples. -/
theorem Sounds.frame (adv : Nat) (h : I e) :
    I (Machine.mixFrame (eachLayer (Machine.runVoice adv) (eachSlot formWrites e))) :=
  hI.mixFrame (eachLayer_induct (fun l _ h => hI.runVoice adv l h) (eachSlot_induct (fun _ _ h => hI.slots _ h) h))

end

end Sys2Proof.Machine

end

section
/-! The ports and the lanes on a FRAME, and the frames that arrive at a port (R148 to R153, R156). -/

set_option Elab.async false

namespace Sys2Proof.Machine

/-! ## Clock, ports and lanes as a frame ends -/

/-- Engine `t` has the clock, the ports and the lanes of engine `a`, but for what the lanes note of staged samples. -/
structure Fed (a t : Engine) : Prop where
  clk : t.clk = a.clk
  ports : t.ports = a.ports
  lane : ∀ l : LaneIx, t.lanes[l] = { a.lanes[l] with taken := t.lanes[l].taken }

theorem Fed.refl (a : Engine) : Fed a a := ⟨rfl, rfl, fun _ => rfl⟩

theorem Fed.trans {a b c : Engine} (h : Fed a b) (h' : Fed b c) : Fed a c :=
  ⟨h'.clk.trans h.clk, h'.ports.trans h.ports, fun l => (h'.lane l).trans (by rw [h.lane l])⟩

theorem Sides.fed {a t : Engine} (h : Sides a t) : Fed a t := ⟨h.clk, h.ports, fun l => by rw [h.lanes]⟩

theorem Fed.settles (a : Engine) : Settles (Fed a) where
  voices := fun _ h => { h with }
  slots := fun _ h => { h with }
  layers := fun _ h => { h with }
  mem := fun _ h => { h with }
  evq := fun _ h => { h with }
  mix := fun _ h => { h with }
  xfer := fun _ h => { h with }
  splice := fun _ h => { h with }
  taken := fun {e} l x h => { h with
    lane := fun i => by
      by_cases hi : l = i
      · subst hi
        have hself : (modLane l (fun ln => { ln with taken := x ln }) e).lanes[l] = { e.lanes[l] with taken := x e.lanes[l] } :=
          upd_self e.lanes l _
        rw [hself, h.lane l]
      · have hother : (modLane l (fun ln => { ln with taken := x ln }) e).lanes[i] = e.lanes[i] :=
          upd_other e.lanes l i _ hi
        rw [hother]
        exact h.lane i }

theorem settleClock_sides {a e : Engine} (h : Sides a e) : Sides a (settleClock e) := by
  unfold settleClock
  extract_lets e1
  have h1 : Sides a e1 := coast_sides (Sides.ite { h with } h)
  exact Sides.ite (endCrossfade_sides h1) h1

/-- What the engine settles as a frame ends once cues and grant have. -/
def settleRest (e : Engine) : Engine :=
  let e1 := eachLayer settleFade (eachSlot settleSlot (eachLayer settleVoice e))
  settleSplice (clipWindowEnd (reportClip (samplingEvent e1.ped.pins e1)))

theorem settle_eq (s : State) :
    settle s = (settleGrant ((settleBoot (s.onEng settleClock)).onEng settleCues)).onEng settleRest := rfl

/-- What is settled as a frame ends leaves the clock, the ports and the lanes. -/
theorem settle_fed {s : State} (h : s.eng.clk.starting = false) : Fed s.eng (settle s).eng := by
  have hS := Fed.settles s.eng
  have hclock := settleClock_sides (.refl s.eng)
  have hboot : settleBoot (s.onEng settleClock) = s.onEng settleClock := if_neg (by
    have : (settleClock s.eng).clk.starting = false := (congrArg Clock.starting hclock.clk).trans h
    have hon : (s.onEng settleClock).eng = settleClock s.eng := rfl
    rw [hon]
    simp [bootDue, this])
  rw [settle_eq, hboot, State.onEng_eng]
  have hcues : Fed s.eng ((s.onEng settleClock).onEng settleCues).eng := (settleCues_sides hclock).fed
  have hgrant : Fed s.eng (settleGrant ((s.onEng settleClock).onEng settleCues)).eng := by
    generalize (s.onEng settleClock).onEng settleCues = u at hcues
    unfold settleGrant
    split
    · dsimp only
      split
      · exact hS.completeGrant hcues
      · exact hS.completeGrant hcues
    · exact hcues
  generalize settleGrant ((s.onEng settleClock).onEng settleCues) = u at hgrant
  have hunits := hS.settleUnits hgrant
  unfold settleRest
  extract_lets e1
  have hlast : ∀ {e1 : Engine}, Fed s.eng e1 →
      Fed s.eng (settleSplice (clipWindowEnd (reportClip (samplingEvent e1.ped.pins e1)))) := fun {e1} h1 => by
    obtain ⟨layers, mix, ped, hsampled, -⟩ := samplingEvent_only e1.ped.pins e1
    have h2 : Fed s.eng (samplingEvent e1.ped.pins e1) := by
      rw [hsampled]
      exact { h1 with }
    exact hS.settleSplice (hS.clipWindowEnd (hS.reportClip h2))
  have h1 : Fed s.eng e1 := hunits
  clear_value e1
  exact hlast h1

/-! ## FRAME on a part with calm ports -/

section
variable {s : State}

theorem settlePorts_calm (h : ∀ p : PortIx, (s.eng.ports[p]).calm) : settlePorts s = s := by
  have hall : ∀ ps : List PortIx, ps.foldl (fun e p => settlePort p e) s.eng = s.eng := fun ps => by
    induction ps with
    | nil => rfl
    | cons p rest ih => rw [List.foldl_cons, settlePort_calm (h p), ih]
  unfold settlePorts State.onEng eachQuad
  rw [hall]

theorem frame_runs (hon : s.powered = true) (h : ∀ p : PortIx, (s.eng.ports[p]).calm) (hr : framesRun s.eng.clk = true) :
    exec .frame s = .next (settle s).newFrame := by
  refine (congrArg Host.Outcome.next (if_pos hon) : exec .frame s = .next s.frame).trans ?_
  unfold State.frame
  rw [settlePorts_calm h]
  exact congrArg Host.Outcome.next (if_pos hr)

/-- No FRAME occurs while the clock source has none. -/
theorem frame_waits (hon : s.powered = true) (h : ∀ p : PortIx, (s.eng.ports[p]).calm) (hr : framesRun s.eng.clk = false) :
    exec .frame s = .next s := by
  refine (congrArg Host.Outcome.next (if_pos hon) : exec .frame s = .next s.frame).trans ?_
  unfold State.frame
  rw [settlePorts_calm h]
  exact congrArg Host.Outcome.next (if_neg (by rw [hr]; decide))

/-- The new frame, but for the report of a store write that completes on it. -/
theorem newFrame_runs (hr : framesRun s.eng.clk = true) : ∃ evq, s.newFrame.eng = { runFrame s.eng with evq := evq } := by
  have hrun : s.newFrame = (s.onEng runFrame).finishWrite := if_pos hr
  obtain ⟨T, hT⟩ : ∃ T, T = s.onEng runFrame := ⟨_, rfl⟩
  have hT' : T.eng = runFrame s.eng := (congrArg State.eng hT).trans (State.onEng_eng runFrame s)
  rw [hrun, ← hT, ← hT']
  unfold State.finishWrite
  split
  · split
    · exact ⟨_, rfl⟩
    · exact ⟨_, rfl⟩
  · exact ⟨_, rfl⟩

end

/-! ## One frame at the ports and lanes -/

/-- A removal of a frame from a port, unless it is bypassed. -/
def Port.removed (bypass : Bool) (q : Port) : Port :=
  if q.lock ≠ .locked ∨ bypass = true then q
  else
    let q1 := if fillDue q then { q with filling := false } else q
    if q1.filling then q1 else q1.remove

theorem removeFrame_eq (p : PortIx) (e : Engine) :
    removeFrame p e = { e with ports := upd e.ports p (Port.removed (bypassed e p)) } := by
  have hvalue : ∀ f : Port → Port, upd e.ports p f = upd e.ports p fun _ => f e.ports[p] := fun f => upd_value e.ports p f
  rw [hvalue]
  unfold removeFrame Port.removed fillDone
  by_cases h : e.ports[p].lock ≠ .locked ∨ bypassed e p = true
  · rw [if_pos h, if_pos h, upd_id e.ports p rfl]
  · rw [if_neg h, if_neg h]
    by_cases hf : fillDue e.ports[p] = true
    · have hport : (modPort p (fun q => { q with filling := false }) e).ports[p] = { e.ports[p] with filling := false } :=
        upd_self e.ports p _
      rw [if_pos hf, if_pos hf]
      dsimp only
      rw [hport]
      simp only [Bool.false_eq_true, if_false, modPort, upd_upd]
      rw [hvalue]
      rfl
    · rw [if_neg hf, if_neg hf]
      dsimp only
      split
      · rw [upd_id e.ports p rfl]
      · rw [modPort, hvalue]

theorem eachQuad_removeFrame (e : Engine) : eachQuad removeFrame e =
    { e with ports := quadIxs.foldl (fun v p => upd v p (Port.removed (bypassed e p))) e.ports } := by
  have hfold : ∀ (ps : List PortIx) (E : Engine), ps.foldl (fun e p => removeFrame p e) E =
      { E with ports := ps.foldl (fun v p => upd v p (Port.removed (bypassed E p))) E.ports } := fun ps => by
    induction ps with
    | nil => exact fun E => rfl
    | cons p rest ih =>
      intro E
      rw [List.foldl_cons, removeFrame_eq, ih]
      rfl
  exact hfold quadIxs e

/-- A lane as it forms its sample of a frame from these ports. -/
def Lane.ran (e : Engine) (ln : Lane) : Lane :=
  { ln with x := laneSample e ln, peak := max ln.peak (magnitude (laneSample e ln)), formed := ln.source
            peakBefore := ln.peak, taken := [] }

theorem laneSample_ports {a b : Engine} (h : b.ports = a.ports) (ln : Lane) : laneSample b ln = laneSample a ln := by
  unfold laneSample
  rw [h]

theorem Lane.ran_ports {a b : Engine} (h : b.ports = a.ports) : Lane.ran b = Lane.ran a := funext fun ln => by
  unfold Lane.ran
  rw [laneSample_ports h]

theorem eachQuad_runLane (e : Engine) : eachQuad runLane e =
    { e with lanes := quadIxs.foldl (fun v l => upd v l (Lane.ran e)) e.lanes } := by
  have hfold : ∀ (ls : List LaneIx) (E : Engine), E.ports = e.ports → ls.foldl (fun e l => runLane l e) E =
      { E with lanes := ls.foldl (fun v l => upd v l (Lane.ran e)) E.lanes } := fun ls => by
    induction ls with
    | nil => exact fun E _ => rfl
    | cons l rest ih =>
      intro E hE
      have hrun : runLane l E = { E with lanes := upd E.lanes l (Lane.ran e) } := by
        have hvalue : upd E.lanes l (Lane.ran e) = upd E.lanes l fun _ => Lane.ran e E.lanes[l] := upd_value E.lanes l _
        rw [hvalue]
        unfold runLane modLane Lane.ran
        rw [← laneSample_ports hE]
        dsimp only
        rw [← upd_value E.lanes l fun ln => { ln with
          x := laneSample E E.lanes[l], peak := max ln.peak (magnitude (laneSample E E.lanes[l])), formed := ln.source
          peakBefore := ln.peak, taken := [] }]
      exact (congrArg (fun E => rest.foldl (fun e l => runLane l e) E) hrun).trans (ih _ hE)
  exact hfold quadIxs e rfl


/-! ## Clock, ports and lanes on the frame itself -/

/-- Engine `t` has the clock, the ports and the lanes of engine `a`. -/
structure Wired (a t : Engine) : Prop where
  clk : t.clk = a.clk
  ports : t.ports = a.ports
  lanes : t.lanes = a.lanes

theorem Wired.refl (a : Engine) : Wired a a := ⟨rfl, rfl, rfl⟩

theorem Wired.trans {a b c : Engine} (h : Wired a b) (h' : Wired b c) : Wired a c :=
  ⟨h'.clk.trans h.clk, h'.ports.trans h.ports, h'.lanes.trans h.lanes⟩

theorem Sides.wired {a t : Engine} (h : Sides a t) : Wired a t := ⟨h.clk, h.ports, h.lanes⟩

theorem Wired.sounds (a : Engine) : Sounds (Wired a) where
  voices := fun _ h => { h with }
  slots := fun _ h => { h with }
  evq := fun _ h => { h with }
  mix := fun _ h => { h with }

theorem Wired.advances (a : Engine) : Advances (Wired a) where
  voices := fun _ h => { h with }
  mem := fun _ h => { h with }
  evq := fun _ h => { h with }
  mix := fun _ h => { h with }
  cues := fun _ h => { h with }
  heard := fun _ h => { h with }
  cyc := fun _ _ h => { h with }
  fol := fun _ _ h => { h with }

section
variable {a e : Engine}

theorem latchTargets_wired (e : Engine) : Wired e (latchTargets e) := by
  have h0 : Wired e (eachLayer (fun l e => modVoice l (fun v => { v with target := voiceTarget e l }) e) e) :=
    eachLayer_induct (fun _ _ h => { h with }) (.refl e)
  exact { h0 with }

/-- The ports once the oldest frame of P0 that waits has made an engine frame. -/
def sourced (waiting : List (Option (Sample × Sample))) (ports : Vector Port 4) : Vector Port 4 :=
  match waiting with
  | [] => ports
  | w :: _ => upd ports 0 (Port.source w)

theorem takeP0_eq (e : Engine) : takeP0 e =
    { e with clk := { e.clk with p0Frames := e.clk.p0Frames.tail }, ports := sourced e.clk.p0Frames e.ports } := by
  unfold takeP0 sourced
  split
  next h =>
    have hclk : ({ e.clk with p0Frames := [] } : Clock) = e.clk := by rw [← h]
    rw [h, List.tail_nil, hclk]
  next w rest h => rw [h]; rfl

theorem openFrame_clk (e : Engine) :
    (openFrame e).clk = { e.clk with p0Frames := e.clk.p0Frames.tail, frameOpen := true } := by
  have hopen : (openFrame e).clk = { (takeP0 (latchTargets e)).clk with frameOpen := true } := rfl
  rw [hopen, takeP0_eq, (latchTargets_wired e).clk]

theorem openFrame_ports (e : Engine) : (openFrame e).ports = sourced e.clk.p0Frames e.ports := by
  have hopen : (openFrame e).ports = (takeP0 (latchTargets e)).ports := rfl
  rw [hopen, takeP0_eq, (latchTargets_wired e).clk, (latchTargets_wired e).ports]

theorem openFrame_lanes (e : Engine) : (openFrame e).lanes = e.lanes := by
  have hopen : (openFrame e).lanes = (takeP0 (latchTargets e)).lanes := rfl
  rw [hopen, takeP0_eq, (latchTargets_wired e).lanes]

theorem frameOnsets_wired (h : Wired a e) : Wired a (frameOnsets e) := by
  have hA := Wired.advances a
  have hclose : ∀ {E : Engine}, Wired a E → Wired a (autoClose E) := fun h =>
    h.trans (autoClose_sides (.refl _)).wired
  unfold frameOnsets
  extract_lets cyc e1 d
  have h1 : Wired a e1 := hA.handTaps hclose _ { h with }
  have hd : Wired a d.1 := by
    unfold d detect
    split
    · exact h1
    · split
      · exact { h1 with }
      · split
        · exact { h1 with }
        · exact h1
  split
  · exact ite_of (hA.heard _ (hA.handOnset hclose .detector hd)) hd
  · exact hd

/-- What a frame leaves at the clock, each port and each lane. -/
theorem runFrame_wired (e : Engine) :
    (runFrame e).clk = { e.clk with p0Frames := e.clk.p0Frames.tail, frameOpen := true }
      ∧ (∀ p : PortIx, (runFrame e).ports[p]
          = ((openFrame e).ports[p]).removed (p == 0 && e.clk.active == .port0))
      ∧ ∀ l : LaneIx, (runFrame e).lanes[l] = (e.lanes[l]).ran (runFrame e) := by
  have hopen : Wired (openFrame e)
      (countCues .frame 0 (noteGrid (cycleFrame (readyToJump e) (openFrame e)))) :=
    (Wired.advances _).countCues _ 0 ((Wired.advances _).noteGrid ((Wired.advances _).cycleFrame _ (.refl _)))
  have hstep : ∃ X Y : Engine, Wired (openFrame e) X ∧ Y = eachQuad runLane (eachQuad removeFrame X) ∧ Wired Y (runFrame e) := by
    refine ⟨_, _, hopen, rfl, ?_⟩
    unfold runFrame
    extract_lets adv e1
    refine frameOnsets_wired ?_
    have hsound := (Wired.sounds _).frame adv (.refl (eachQuad runLane (eachQuad removeFrame e1)))
    have htick : ∀ {a b : Engine}, Wired a b → Wired a (tickGrant (tickSampling b)) := fun {a b} h => by
      have h1 : Wired a (tickSampling b) := ite_of { h with } { h with }
      exact { h1 with }
    exact htick hsound
  clear hopen
  obtain ⟨X, Y, hX, hY, hrun⟩ := hstep
  have hclk := openFrame_clk e
  have hlanes := openFrame_lanes e
  rw [eachQuad_runLane, eachQuad_removeFrame] at hY
  have hports : Y.ports = quadIxs.foldl (fun v p => upd v p (Port.removed (bypassed X p))) (openFrame e).ports := by
    rw [hY, ← hX.ports]
  have hYlanes : Y.lanes = quadIxs.foldl (fun v l => upd v l (Lane.ran Y)) e.lanes := by
    have hran : Lane.ran Y = Lane.ran { X with
        ports := quadIxs.foldl (fun v p => upd v p (Port.removed (bypassed X p))) X.ports } :=
      Lane.ran_ports (hports.trans (by rw [← hX.ports]))
    rw [hran, hY, ← hlanes, ← hX.lanes]
  refine ⟨?_, fun p => ?_, fun l => ?_⟩
  · rw [hrun.clk, hY]
    exact hX.clk.trans hclk
  · rw [hrun.ports, hports]
    refine (foldl_quadIxs_get (fun p => Port.removed (bypassed X p)) _ p).trans ?_
    unfold bypassed
    rw [hX.clk, hclk]
    rfl
  · rw [Lane.ran_ports hrun.ports, hrun.lanes]
    refine (congrArg (fun x : Vector Lane 4 => x[l]) hYlanes).trans ?_
    exact foldl_quadIxs_get (fun _ => Lane.ran Y) e.lanes l

end

end Sys2Proof.Machine

end

section
/-! PortFrames: the elastic buffer and the lanes on a FRAME, P0 as the clock source, and the frames that arrive (R148 to
R153, R156). -/

set_option Elab.async false

namespace Sys2Proof.Machine

/-! ## The removal (R150 to R152) -/

section
variable {q : Port}

theorem removed_unlocked {bypass : Bool} (h : q.lock ≠ .locked) : q.removed bypass = q := if_pos (.inl h)

theorem removed_bypassed : q.removed true = q := if_pos (.inr rfl)

theorem removed_filling {bypass : Bool} (hf : q.filling = true) (hb : q.buf.length < q.fill) : q.removed bypass = q := by
  have hdue : ¬fillDue q = true := by
    unfold fillDue
    rw [decide_eq_false (by omega), Bool.and_false]
    decide
  unfold Port.removed
  rw [if_neg hdue]
  dsimp only
  rw [if_pos hf, ite_self]

/-- A LOCKED port whose buffer has reached the initial fill, or had before, gives a frame. -/
theorem removed_gives (hl : q.lock = .locked) (h : q.filling = false ∨ q.fill ≤ q.buf.length) :
    q.removed false = ({ q with filling := false } : Port).remove := by
  have hon : (if fillDue q = true then { q with filling := false } else q) = { q with filling := false } := by
    by_cases hf : q.filling = false
    · rw [← hf, ite_self]
    · refine if_pos ?_
      unfold fillDue
      rw [hl, decide_eq_true (h.resolve_left hf), Bool.eq_true_of_not_eq_false hf]
      rfl
  unfold Port.removed
  rw [if_neg (by rw [hl]; decide), hon]
  rfl

end

/-- A port that is LOCKED, fills no more and holds a frame. -/
theorem remove_next {q : Port} {w : Sample × Sample} {rest : List (Sample × Sample)} (hr : q.recovery = .none)
    (hb : q.buf = w :: rest) : q.remove = { q with buf := rest, last := w } := by
  unfold Port.remove
  rw [hr, hb]

theorem remove_lacks {q : Port} (hr : q.recovery = .none) (hb : q.buf = []) :
    q.remove = { q with recovery := .under, slip := 1 } := by
  unfold Port.remove
  rw [hr, hb]

theorem remove_repeats {q : Port} (hr : q.recovery = .under) (hb : q.buf.length < q.fill) :
    q.remove = { q with slip := q.slip + 1 } := by
  unfold Port.remove
  rw [hr]
  cases h : q.buf with
  | nil => rfl
  | cons w rest =>
    rw [h] at hb
    exact if_neg (by omega)

theorem remove_recovers {q : Port} {w : Sample × Sample} {rest : List (Sample × Sample)} (hr : q.recovery = .under)
    (hf : q.fill ≤ q.buf.length) (hb : q.buf = w :: rest) : q.remove = { q with buf := rest, last := w, slipEnds := true } := by
  unfold Port.remove
  rw [hr]
  rw [hb] at hf ⊢
  exact if_pos hf

theorem remove_drains {q : Port} {w : Sample × Sample} {rest : List (Sample × Sample)} (hr : q.recovery = .over)
    (hb : q.buf = w :: rest) : q.remove = { q with buf := rest, last := w, slipEnds := decide (rest.length ≤ q.fill) } := by
  unfold Port.remove
  rw [hr, hb]

/-! ## The frames of P0 as the clock source (R153) -/

/-- A frame that makes an engine frame leaves what the removal goes by. -/
theorem source_keeps (w : Option (Sample × Sample)) (q : Port) :
    (q.source w).lock = q.lock ∧ (q.source w).filling = q.filling ∧ (q.source w).buf = q.buf ∧ (q.source w).fill = q.fill := by
  unfold Port.source
  split
  · exact ⟨rfl, rfl, rfl, rfl⟩
  · cases w <;> exact ⟨rfl, rfl, rfl, rfl⟩

/-- The frame that makes an engine frame, at a port that gives none from its buffer. -/
theorem source_removed {q : Port} {bypass : Bool} (w : Option (Sample × Sample))
    (h : bypass = true ∨ (q.lock = .locked ∧ q.filling = true ∧ q.buf.length < q.fill)) :
    (q.source w).removed bypass = q.source w := by
  obtain ⟨-, hfill, hbuf, hlevel⟩ := source_keeps w q
  obtain rfl | ⟨-, hf, hb⟩ := h
  · exact removed_bypassed
  · exact removed_filling (hfill.trans hf) (by rw [hbuf, hlevel]; exact hb)

/-! ## The frames that arrive (R148, R149) -/

section
variable {q : Port} {w : Sample × Sample}

theorem offer_joins (hr : q.recovery ≠ .over) (hb : q.buf.length < 16) : q.offer w = { q with buf := q.buf ++ [w] } := by
  unfold Port.offer
  split
  next h => exact absurd h hr
  · exact if_neg (by omega)
  · exact if_neg (by omega)

theorem offer_discards (hr : q.recovery = .under) (hb : 16 ≤ q.buf.length) : q.offer w = q := by
  unfold Port.offer
  rw [hr]
  exact if_pos hb

theorem offer_overruns (hr : q.recovery = .none) (hb : 16 ≤ q.buf.length) :
    q.offer w = { q with recovery := .over, slip := 1 } := by
  unfold Port.offer
  rw [hr]
  exact if_pos hb

theorem offer_slips (hr : q.recovery = .over) : q.offer w = { q with slip := q.slip + 1 } := by
  unfold Port.offer
  rw [hr]

end

/-- A port at a frame marker. -/
def Port.marked (q : Port) : Port := { q with markerSeen := true, frameLsb := q.lsbFirst }

section
variable {e : Engine} {p : PortIx}

theorem modPort_put (f : Port → Port) : modPort p f e = { e with ports := upd e.ports p fun _ => f e.ports[p] } := by
  rw [modPort, upd_value]

theorem modPort_marked (f : Port → Port) : modPort p Port.marked (modPort p f e) =
    { e with ports := upd e.ports p fun _ => (f e.ports[p]).marked } := by
  simp only [modPort, upd_upd]
  rw [upd_value]
  rfl

variable (hc : (e.ports[p]).calm)
include hc

theorem portArrival_disabled (bits : List Bool) (hl : e.ports[p].lock = .disabled) : portArrival p bits e = e := by
  unfold portArrival
  rw [settlePort_calm hc]
  exact if_pos hl

theorem silentPeriod_disabled (hl : e.ports[p].lock = .disabled) : silentPeriod p e = e := by
  unfold silentPeriod badFrame
  rw [settlePort_calm hc]
  dsimp only
  rw [hl]
  exact ite_self e

theorem portArrival_unjudged (bits : List Bool) (hl : e.ports[p].lock ≠ .disabled)
    (h : e.ports[p].markerSeen = false ∨ e.clk.pllLocked = false) : portArrival p bits e = modPort p Port.marked e := by
  unfold portArrival
  rw [settlePort_calm hc]
  refine (if_neg hl).trans ?_
  dsimp only
  rw [if_pos h]
  rfl

theorem portArrival_judged (bits : List Bool) (hl : e.ports[p].lock ≠ .disabled) (hm : e.ports[p].markerSeen = true)
    (hp : e.clk.pllLocked = true) : portArrival p bits e = modPort p Port.marked
      (if bits.length = 48 then goodFrame p (frameWords e.ports[p].frameLsb bits) e else badFrame p e) := by
  unfold portArrival
  rw [settlePort_calm hc]
  refine (if_neg hl).trans ?_
  dsimp only
  rw [if_neg (by rw [hm, hp]; decide)]
  rfl

theorem silentPeriod_eq (hp : e.clk.pllLocked = true) : silentPeriod p e = badFrame p e := by
  unfold silentPeriod
  rw [settlePort_calm hc]
  exact if_pos hp

theorem silentPeriod_unlocked (hp : e.clk.pllLocked = false) : silentPeriod p e = e := by
  unfold silentPeriod
  rw [settlePort_calm hc]
  exact if_neg (by rw [hp]; decide)

end

section
variable {e : Engine} {p : PortIx} (w : Sample × Sample)

theorem bypassed_iff : bypassed e p = true ↔ p = 0 ∧ e.clk.active = .port0 := by simp [bypassed]

theorem goodFrame_searching (h : e.ports[p].lock = .searching) : goodFrame p w e = modPort p (Port.search true) e := by
  unfold goodFrame
  rw [h]

theorem goodFrame_plain (h : e.ports[p].lock = .locked) (hp : ¬(p = 0 ∧ e.clk.active = .port0)) :
    goodFrame p w e = modPort p (fun q => { q with bad := 0 }.offer w) e := by
  unfold goodFrame
  rw [h]
  exact if_neg fun hb => hp (bypassed_iff.1 hb)

theorem goodFrame_source (h : e.ports[p].lock = .locked) (hp : p = 0 ∧ e.clk.active = .port0) :
    goodFrame p w e = queueP0 (some w) e := by
  unfold goodFrame
  rw [h]
  exact if_pos (bypassed_iff.2 hp)

theorem badFrame_searching (h : e.ports[p].lock = .searching) : badFrame p e = modPort p (Port.search false) e := by
  unfold badFrame
  rw [h]

theorem badFrame_plain (h : e.ports[p].lock = .locked) (hp : ¬(p = 0 ∧ e.clk.active = .port0)) :
    badFrame p e = modPort p (fun q => { q with bad := q.bad + 1 }) e := by
  unfold badFrame
  rw [h]
  exact if_neg fun hb => hp (bypassed_iff.1 hb)

theorem badFrame_source (h : e.ports[p].lock = .locked) (hp : p = 0 ∧ e.clk.active = .port0) :
    badFrame p e = queueP0 none e := by
  unfold badFrame
  rw [h]
  exact if_pos (bypassed_iff.2 hp)

end

/-- What a FRAME leaves at the clock, each port and each lane of a part whose ports are calm. -/
theorem frame_wired {s : State} (hon : s.powered = true) (hst : s.eng.clk.starting = false)
    (hc : ∀ p : PortIx, (s.eng.ports[p]).calm) (hr : framesRun s.eng.clk = true) :
    ∃ t, exec .frame s = .next t
      ∧ t.eng.clk = { s.eng.clk with p0Frames := s.eng.clk.p0Frames.tail, frameOpen := true }
      ∧ (∀ p : PortIx, t.eng.ports[p]
          = ((sourced s.eng.clk.p0Frames s.eng.ports)[p]).removed (p == 0 && s.eng.clk.active == .port0))
      ∧ ∀ l : LaneIx, t.eng.lanes[l] = (s.eng.lanes[l]).ran t.eng := by
  have hfed := settle_fed hst
  obtain ⟨evq, ht⟩ := newFrame_runs (s := settle s) (by rw [hfed.clk]; exact hr)
  obtain ⟨hclk, hports, hlanes⟩ := runFrame_wired (settle s).eng
  have hexec := frame_runs hon hc hr
  generalize runFrame (settle s).eng = R at ht hclk hports hlanes
  generalize (settle s).newFrame = t at ht hexec
  refine ⟨t, hexec, ?_, fun p => ?_, fun l => ?_⟩
  · rw [ht]
    exact hclk.trans (by rw [hfed.clk])
  · rw [ht]
    refine (hports p).trans ?_
    rw [openFrame_ports, hfed.clk, hfed.ports]
  · rw [ht]
    refine (hlanes l).trans ?_
    have hran : ∀ ln : Lane, ∀ taken, ({ ln with taken := taken } : Lane).ran R = ln.ran R := fun _ _ => rfl
    rw [hfed.lane l, hran]
    exact congrFun (Lane.ran_ports rfl) _

end Sys2Proof.Machine

namespace Sys2Proof.Settled
open Sys2Proof.Machine

/-- Settles O56: what a FRAME leaves at the ports and lanes (`frame_wired`), with the removal from a port taken case by
case; a frame that arrives acts on its port alone, or waits for its engine frame. -/
theorem portFrames : Obligations.PortFrames := by
  unfold Obligations.PortFrames
  refine ⟨fun s h => ?_, fun s hon hst hpll hc => ?_, fun s p bits hon hc => ?_⟩
  · have hcalm : ∀ p : PortIx, (s.eng.ports[p]).calm := h.ports
    have hruns : framesRun s.eng.clk = true := by
      unfold framesRun
      rw [h.frames.2, h.clock.2]
      rfl
    obtain ⟨t, ht, -, hports, hlanes⟩ := frame_wired h.powered h.started hcalm hruns
    refine ⟨t, ht, fun p => ?_, fun l => hlanes l⟩
    intro q now on
    have hnow : now = q.removed false := by
      have hsource : (p == 0 && s.eng.clk.active == .port0) = false := by
        rw [h.clock.2]
        exact Bool.and_false _
      refine (hports p).trans ?_
      rw [h.waiting, hsource]
      rfl
    clear_value now
    rw [hnow]
    refine ⟨removed_unlocked, fun hl hf hb => removed_filling hf hb, fun hl hgive => ?_⟩
    rw [removed_gives hl hgive]
    exact ⟨fun w rest hr hb => remove_next (q := on) hr hb, fun hr hb => remove_lacks (q := on) hr hb,
      fun hr hb => remove_repeats (q := on) hr hb, fun w rest hr hf hb => remove_recovers (q := on) hr hf hb,
      fun w rest hr hb => remove_drains (q := on) hr hb⟩
  · intro clk q
    refine ⟨fun ha hw => frame_waits hon hc ?_, fun w more hgive hw => ?_⟩
    · show (clk.pllLocked && (clk.active == .internal || !clk.p0Frames.isEmpty)) = false
      rw [ha, hw]
      exact Bool.and_false _
    · have hruns : framesRun s.eng.clk = true := by
        show (clk.pllLocked && (clk.active == .internal || !clk.p0Frames.isEmpty)) = true
        rw [hw]
        have hlocked : clk.pllLocked = true := hpll
        rw [hlocked]
        exact Bool.or_true _
      obtain ⟨t, ht, hclk, hports, -⟩ := frame_wired hon hst hc hruns
      have hport : t.eng.ports[(0 : PortIx)] = (q.source w).removed (clk.active == .port0) := by
        refine (hports 0).trans ?_
        show ((sourced clk.p0Frames s.eng.ports)[(0 : PortIx)]).removed _ = _
        rw [hw]
        exact congrArg (fun q : Port => q.removed (clk.active == .port0)) (upd_self s.eng.ports 0 (Port.source w))
      have hgives : clk.active = .port0 ∨ (q.lock = .locked ∧ q.filling = true ∧ q.buf.length < q.fill) →
          (q.source w).removed (clk.active == .port0) = q.source w := fun h =>
        source_removed w (h.imp (fun ha => by rw [ha]; rfl) id)
      rw [hgives hgive] at hport
      refine ⟨t, ht, hclk.trans (by rw [show s.eng.clk.p0Frames = w :: more from hw]; rfl), fun hl => ?_,
        fun words hl hsome => ?_, fun hl hnone => ?_⟩
      · rw [hport]
        exact if_pos hl
      · rw [hport, hsome]
        exact if_neg fun h => h hl
      · rw [hport, hnone]
        exact if_neg fun h => h hl
  · intro e q put marked judged plain side w
    have hexec : exec (.portFrameArrival p bits) s = .next (s.giving (portArrival p bits e)) := engineRow_on hon _
    have hsilent : exec (.silentPeriod p) s = .next (s.giving (silentPeriod p e)) := engineRow_on hon _
    have hgiving : s.giving e = s := rfl
    have hwords : frameWords q.frameLsb bits = w := by
      unfold frameWords
      rw [wordOf_eq, wordOf_eq]
    have hgood : q.lock = .searching → min 8 (q.good + 1) = q.good + 1 := fun hl => by
      have hlow : q.good < 8 := hc.1 hl
      omega
    have hsearching : q.lock = .searching → q.lock ≠ .disabled := fun h => by rw [h]; decide
    have harrives : ∀ {f : Port → Port} {x : Port}, judged → (if bits.length = 48
        then goodFrame p (frameWords q.frameLsb bits) e else badFrame p e) = modPort p f e → f q = x →
        exec (.portFrameArrival p bits) s = .next (put (marked x)) := fun {f x} hj hjudge hx => by
      obtain ⟨hl, hm, hp⟩ := hj
      rw [hexec, portArrival_judged hc bits hl hm hp, hjudge, modPort_marked, ← hx]
      rfl
    have hwaits : ∀ {x : Option (Sample × Sample)}, judged → (if bits.length = 48
        then goodFrame p (frameWords q.frameLsb bits) e else badFrame p e) = queueP0 x e →
        exec (.portFrameArrival p bits) s = .next (s.giving { e with
          clk := { e.clk with p0Frames := e.clk.p0Frames ++ [x] }, ports := upd e.ports p fun _ => marked q }) :=
      fun {x} hj hjudge => by
        obtain ⟨hl, hm, hp⟩ := hj
        rw [hexec, portArrival_judged hc bits hl hm hp, hjudge, modPort_put]
        rfl
    have hoffers : ∀ {x : Port}, judged → bits.length = 48 → q.lock = .locked → plain → { q with bad := 0 }.offer w = x →
        exec (.portFrameArrival p bits) s = .next (put (marked x)) := fun {x} hj h48 hl hp hx =>
      harrives hj ((if_pos h48).trans ((goodFrame_plain _ hl hp).trans (by rw [hwords]))) hx
    refine ⟨fun hl => ⟨?_, ?_⟩, fun hl h => ?_, fun hp => ?_, fun hj h48 hl => ?_,
      fun hj h48 hl hp => ⟨fun hr hb => ?_, fun hr hb => ?_, fun hr hb => ?_, fun hr => ?_⟩, fun hj h48 hl hp => ?_,
      fun hj h48 hl => ?_, fun hj h48 hl hp => ?_, fun hj h48 hl hp => ?_, fun hp hl => ?_, fun hp hl hpl => ?_,
      fun hp hl hpl => ?_⟩
    · rw [hexec, portArrival_disabled hc bits hl, hgiving]
    · rw [hsilent, silentPeriod_disabled hc hl, hgiving]
    · rw [hexec, portArrival_unjudged hc bits hl h, modPort_put]
      rfl
    · rw [hsilent, silentPeriod_unlocked hc hp, hgiving]
    · refine harrives hj ((if_pos h48).trans (goodFrame_searching _ hl)) ?_
      unfold Port.search
      rw [if_pos rfl, hgood hl]
    · exact hoffers hj h48 hl hp (offer_joins (q := { q with bad := 0 }) hr hb)
    · exact hoffers hj h48 hl hp (offer_discards (q := { q with bad := 0 }) hr hb)
    · exact hoffers hj h48 hl hp (offer_overruns (q := { q with bad := 0 }) hr hb)
    · exact hoffers hj h48 hl hp (offer_slips (q := { q with bad := 0 }) hr)
    · exact hwaits hj ((if_pos h48).trans ((goodFrame_source _ hl (not_not.1 hp)).trans (by rw [hwords])))
    · exact harrives hj ((if_neg h48).trans (badFrame_searching hl)) rfl
    · exact harrives hj ((if_neg h48).trans (badFrame_plain hl hp)) rfl
    · exact hwaits hj ((if_neg h48).trans (badFrame_source hl (not_not.1 hp)))
    · rw [hsilent, silentPeriod_eq hc hp, badFrame_searching hl, modPort_put]
      rfl
    · rw [hsilent, silentPeriod_eq hc hp, badFrame_plain hl hpl, modPort_put]
    · rw [hsilent, silentPeriod_eq hc hp, badFrame_source hl (not_not.1 hpl)]
      rfl

end Sys2Proof.Settled

end

section
/-! The frame of a steady part: what is settled as the frame before it ends, and the detector (R25, R26, R32, R139). -/

set_option Elab.async false

namespace Sys2Proof.Machine

/-! ## Coast and auto-close where they are not due -/

section
variable {e : Engine}

/-- A follower with no coast due keeps all but what it notes of an onset. -/
theorem coast_waits (h : e.fol.coastDue = false) : ∃ heard, coast e = { e with heard := heard } := by
  obtain ⟨heard, he⟩ := onFollower_only (fun e => if e.fol.coastDue = true then setFollowState .waiting .coast e else e) e
  refine ⟨heard, (show coast e = _ from he).trans ?_⟩
  dsimp only
  rw [if_neg (by rw [h]; decide)]

theorem autoCloseDue_open (h : e.cyc.state ≠ .baseCapture) : autoCloseDue e = false := by
  have hb : (e.cyc.state == .baseCapture) = false := by
    cases hs : e.cyc.state <;> first | rfl | exact absurd hs h
  unfold autoCloseDue
  split
  · rw [hb]
    rfl
  · rfl

end

/-! ## What a steady part settles -/

/-- The detector is armed by the next frame once its hold-off has run (R26). -/
def Follower.clocked (f : Follower) : Follower :=
  if (f.holdCount == 0 && !f.armed && !f.arming) = true then { f with arming := true } else f

/-- The splice and the voices once a crossfade that has reached its end is over (R23). -/
def Engine.uncrossed (e : Engine) : Engine := if crossfadeEndDue e = true then endCrossfade e else e

theorem uncrossed_only (e : Engine) : ∃ voices splice,
    e.uncrossed = { e with voices := voices, cyc := { e.cyc with splice := splice } } := by
  unfold Engine.uncrossed
  split
  · cases h : e.cyc.splice with
    | idle => exact ⟨_, _, (splice_idle h).2.1⟩
    | fetching r => exact ⟨_, _, endCrossfade_fetching h⟩
    | crossfading r => exact ⟨_, _, endCrossfade_eq h⟩
  · exact ⟨_, _, rfl⟩

theorem settleClock_waits {e : Engine} (h : e.fol.coastDue = false) :
    ∃ heard, settleClock e = { e.uncrossed with fol := e.fol.clocked, heard := heard } := by
  have hfol : (if holdOffEndDue e = true then endHoldOff e else e) = { e with fol := e.fol.clocked } := by
    unfold holdOffEndDue Follower.clocked
    split <;> rfl
  have hdue : ({ e with fol := e.fol.clocked } : Engine).fol.coastDue = false := by
    refine (?_ : e.fol.clocked.coastDue = e.fol.coastDue).trans h
    unfold Follower.clocked
    split <;> rfl
  obtain ⟨heard, hcoast⟩ := coast_waits hdue
  refine ⟨heard, ?_⟩
  unfold settleClock Engine.uncrossed
  rw [hfol, hcoast]
  dsimp only
  have hx : crossfadeEndDue { e with fol := e.fol.clocked, heard := heard } = crossfadeEndDue e := rfl
  rw [hx]
  by_cases hd : crossfadeEndDue e = true
  · rw [if_pos hd, if_pos hd]
    cases hs : e.cyc.splice with
    | idle =>
      rw [(splice_idle hs).2.1]
      exact (splice_idle (e := { e with fol := e.fol.clocked, heard := heard }) hs).2.1
    | fetching r =>
      rw [endCrossfade_fetching hs]
      exact endCrossfade_fetching (e := { e with fol := e.fol.clocked, heard := heard }) hs
    | crossfading r =>
      rw [endCrossfade_eq hs]
      exact endCrossfade_eq (e := { e with fol := e.fol.clocked, heard := heard }) hs
  · rw [if_neg hd, if_neg hd]

section
variable {I : Engine → Prop} (hI : Settles I) {e : Engine}
include hI

/-- With no sampling event due the rest of a frame's end leaves what stands whatever the units settle. -/
theorem Settles.settleRest (hped : ∀ {e : Engine}, I e → e.ped.due = false) (h : I e) : I (settleRest e) := by
  unfold Machine.settleRest
  extract_lets e1
  have h1 : I e1 := hI.settleUnits h
  clear_value e1
  rw [samplingEvent_not_due (hped h1)]
  exact hI.settleSplice (hI.clipWindowEnd (hI.reportClip h1))

end

/-- Engine `t` has what the units that settle as a frame ends leave of engine `a`: clock, cycle, follower, cues, ports,
pedals and what is noted of an onset. -/
structure Timed (a t : Engine) : Prop where
  clk : t.clk = a.clk
  cyc : t.cyc = { a.cyc with splice := t.cyc.splice }
  fol : t.fol = a.fol
  cues : t.cues = a.cues
  ports : t.ports = a.ports
  ped : t.ped = a.ped
  heard : t.heard = a.heard

theorem Timed.refl (a : Engine) : Timed a a := ⟨rfl, rfl, rfl, rfl, rfl, rfl, rfl⟩

theorem Timed.settles (a : Engine) : Settles (Timed a) where
  voices := fun _ h => { h with }
  slots := fun _ h => { h with }
  layers := fun _ h => { h with }
  mem := fun _ h => { h with }
  evq := fun _ h => { h with }
  mix := fun _ h => { h with }
  xfer := fun _ h => { h with }
  splice := fun {e} x h => { h with
    cyc := by
      show ({ e.cyc with splice := x } : Cycle) = { a.cyc with splice := x }
      rw [h.cyc] }
  taken := fun _ _ h => { h with }

theorem settleRest_timed {e : Engine} (h : e.ped.due = false) : Timed e (settleRest e) :=
  (Timed.settles e).settleRest (fun ht => by rw [ht.ped]; exact h) (.refl e)

section
variable {s : State} (h : s.Steady) (ha : autoCloseDue s.eng = false)
include h ha

/-- A steady part as its frame ends: hold-off and crossfade, then voices, slots, the mixer's reports and the splice. -/
theorem settle_steady : ∃ heard, settle s = s.giving (settleRest
    { s.eng.uncrossed with fol := s.eng.fol.clocked, heard := heard }) := by
  obtain ⟨heard, hclock⟩ := settleClock_waits h.coast
  obtain ⟨voices, splice, hx⟩ := uncrossed_only s.eng
  have hboot : settleBoot (s.onEng settleClock) = s.onEng settleClock := if_neg (by
    have hst : (s.onEng settleClock).eng.clk.starting = false := by
      rw [State.onEng_eng, hclock, hx]
      exact h.started
    rw [bootDue, hst]
    exact fun hn => nomatch hn)
  have hcues : ∃ heard', settleCues (settleClock s.eng) =
      { s.eng.uncrossed with fol := s.eng.fol.clocked, heard := heard' } := by
    have hdue : (settleClock s.eng).fol.coastDue = false := by
      rw [hclock]
      refine (?_ : s.eng.fol.clocked.coastDue = s.eng.fol.coastDue).trans h.coast
      unfold Follower.clocked
      split <;> rfl
    obtain ⟨heard', hcoast⟩ := coast_waits hdue
    refine ⟨heard', ?_⟩
    rw [settleCues_idle (firstDue_idle ?_) ?_, hcoast, hclock]
    · rw [hclock, hx]
      exact h.undue
    · rw [hclock, hx]
      exact ha
  obtain ⟨heard', hcues⟩ := hcues
  refine ⟨heard', ?_⟩
  have hgrant : settleGrant ((s.onEng settleClock).onEng settleCues) = (s.onEng settleClock).onEng settleCues := if_neg (by
    rw [State.onEng_eng, State.onEng_eng, hcues, hx]
    unfold grantDue
    show ¬(match s.eng.mem.grant with | some g => g.left == 0 | none => false) = true
    cases hg : s.eng.mem.grant with
    | none => exact fun hn => nomatch hn
    | some g =>
      have hleft := h.grant g hg
      simp
      omega)
  rw [settle_eq, hboot, hgrant]
  unfold State.onEng State.giving
  dsimp only
  rw [hcues]

/-- The frame of a steady part. -/
theorem frame_steady : ∃ heard, exec .frame s = .next (s.giving (runFrame (settleRest
    { s.eng.uncrossed with fol := s.eng.fol.clocked, heard := heard }))) := by
  obtain ⟨heard, hsettle⟩ := settle_steady h ha
  refine ⟨heard, ?_⟩
  have hruns : framesRun s.eng.clk = true := by
    unfold framesRun
    rw [h.frames.2, h.clock.2]
    rfl
  obtain ⟨voices, splice, hx⟩ := uncrossed_only s.eng
  rw [frame_runs h.powered h.ports hruns, hsettle]
  have htimed : Timed { s.eng.uncrossed with fol := s.eng.fol.clocked, heard := heard }
      (settleRest { s.eng.uncrossed with fol := s.eng.fol.clocked, heard := heard }) :=
    settleRest_timed (by rw [hx]; exact h.pedals)
  have huncrossed : s.eng.uncrossed.clk = s.eng.clk := by rw [hx]
  have hclk := htimed.clk.trans huncrossed
  clear htimed hsettle
  generalize settleRest { s.eng.uncrossed with fol := s.eng.fol.clocked, heard := heard } = X at hclk
  unfold State.newFrame
  have hX : framesRun (s.giving X).eng.clk = true := (congrArg framesRun hclk).trans hruns
  rw [if_pos hX]
  unfold State.finishWrite
  have hjob : ((s.giving X).onEng runFrame).store.job = none := h.store
  rw [hjob]
  rfl

end

/-! ## The detector on a frame (R26) -/

/-- Engine `t` has the cycle's state and the detector of a follower, and owes no taps. -/
structure Detects (st : CycleState) (f : Follower) (t : Engine) : Prop where
  state : t.cyc.state = st
  owed : t.cyc.owedTaps = 0
  detector : t.fol.detector = f.detector

theorem Detects.advances (st : CycleState) (f : Follower) : Advances (Detects st f) where
  voices := fun _ h => { h with }
  mem := fun _ h => { h with }
  evq := fun _ h => { h with }
  mix := fun _ h => { h with }
  cues := fun _ h => { h with }
  heard := fun _ h => { h with }
  cyc := fun _ hx h => { h with state := hx.1.trans h.state, owed := hx.2.trans h.owed }
  fol := fun _ hx h => { h with detector := hx.trans h.detector }

theorem Detects.sounds (st : CycleState) (f : Follower) : Sounds (Detects st f) where
  voices := fun _ h => { h with }
  slots := fun _ h => { h with }
  evq := fun _ h => { h with }
  mix := fun _ h => { h with }

/-! ## The frame opens (R53, R131, R138) -/

/-- A voice with the target of the frame that begins (R53). -/
def Engine.aim (e : Engine) (l : LayerIx) (v : Voice) : Voice := { v with target := voiceTarget e l }

/-- The voices with the targets of the frame that begins. -/
def Engine.aimed (e : Engine) : Vector Voice 16 := layerIxs.foldl (fun vs l => upd vs l (e.aim l)) e.voices

theorem aimed_get (e : Engine) (l : LayerIx) : e.aimed[l] = e.aim l e.voices[l] := by
  have h := foldl_upd_get e.aim l layerIxs layerIxs_nodup e.voices
  rw [if_pos (mem_layerIxs l)] at h
  exact h

theorem voiceTarget_congr {a b : Engine} {l : LayerIx} (hl : a.layers = b.layers) (hr : a.voices[l].rs = b.voices[l].rs)
    (hc : a.cyc = b.cyc) : voiceTarget a l = voiceTarget b l := by
  unfold voiceTarget
  rw [hl, hr, hc]

/-- The lanes' live values with the targets of the frame that begins (R136). -/
def Mixer.aimed (mx : Mixer) : Vector Live 4 :=
  quadIxs.foldl (fun lv i => upd lv i fun x => { x with target := if x.mute then 0 else 4096 }) mx.live

theorem latchTargets_eq (e : Engine) :
    latchTargets e = { e with voices := e.aimed, mix := { e.mix with live := e.mix.aimed } } := by
  have hfold : ∀ (ls : List LayerIx) (E : Engine), E.layers = e.layers → E.cyc = e.cyc →
      (∀ i : LayerIx, E.voices[i].rs = e.voices[i].rs) →
      ls.foldl (fun e l => modVoice l (fun v => { v with target := voiceTarget e l }) e) E =
        { E with voices := ls.foldl (fun vs l => upd vs l (e.aim l)) E.voices } := fun ls => by
    induction ls with
    | nil => exact fun E _ _ _ => rfl
    | cons l rest ih =>
      intro E hl hc hr
      rw [List.foldl_cons, voiceTarget_congr hl (hr l) hc]
      refine ih (modVoice l (e.aim l) E) hl hc fun i => ?_
      by_cases hi : l = i
      · subst hi
        exact (congrArg Voice.rs (upd_self E.voices l (e.aim l))).trans (hr l)
      · exact (congrArg Voice.rs (upd_other E.voices l i (e.aim l) hi)).trans (hr i)
  have hall : eachLayer (fun l e => modVoice l (fun v => { v with target := voiceTarget e l }) e) e
      = { e with voices := e.aimed } := hfold layerIxs e rfl rfl fun _ => rfl
  unfold latchTargets
  rw [hall]
  rfl

/-- The engine as a frame opens, one without a frame of P0 that waits. -/
theorem openFrame_eq {e : Engine} (h : e.clk.p0Frames = []) : openFrame e = { e with
    clk := { e.clk with frameOpen := true }, voices := e.aimed
    mix := { e.mix with live := e.mix.aimed, sending := e.mix.computed }
    heard := none, fol := e.fol.openFrame
    cyc := { e.cyc with splice := countSplice e.cyc.splice, captureThisPass := e.cyc.captureThisPass || slotBusy e } } := by
  have hclk : ({ e.clk with p0Frames := e.clk.p0Frames.tail } : Clock) = e.clk := by rw [h, List.tail_nil, ← h]
  have htake : takeP0 (latchTargets e) = { e with voices := e.aimed, mix := { e.mix with live := e.mix.aimed } } := by
    rw [latchTargets_eq, takeP0_eq]
    dsimp only
    rw [hclk, h]
    rfl
  unfold openFrame
  rw [htake]
  rfl

theorem openFrame_rest (e : Engine) : (openFrame e).fol = e.fol.openFrame ∧ (openFrame e).cyc = { e.cyc with
    splice := countSplice e.cyc.splice, captureThisPass := e.cyc.captureThisPass || slotBusy e } := by
  have hfol : (openFrame e).fol = (takeP0 (latchTargets e)).fol.openFrame := rfl
  have hcyc : (openFrame e).cyc = { (takeP0 (latchTargets e)).cyc with
    splice := countSplice (takeP0 (latchTargets e)).cyc.splice
    captureThisPass := (takeP0 (latchTargets e)).cyc.captureThisPass || slotBusy (takeP0 (latchTargets e)) } := rfl
  rw [hfol, hcyc, takeP0_eq, latchTargets_eq]
  exact ⟨rfl, rfl⟩

/-- A frame in its parts. -/
theorem runFrame_eq (e : Engine) : runFrame e = frameOnsets (tickGrant (tickSampling (frameAudio (integerAdvance e)
    (countCues .frame 0 (noteGrid (cycleFrame (readyToJump e) (openFrame e))))))) := rfl

/-! ## The detector's onset (R26, R28) -/

theorem magnitude_eq (x : Sample) : magnitude x = x.toInt.natAbs := rfl

section
variable {e : Engine} {l : LaneIx} (howed : e.cyc.owedTaps = 0) (hl : detectorLane e.fol = some l)
include howed hl

theorem frameOnsets_lane : frameOnsets e = if (detect e).2 = true then hearOnset l e (detect e).1 else (detect e).1 := by
  have hcyc : ({ e.cyc with owedTaps := 0 } : Cycle) = e.cyc := by rw [← howed]
  unfold frameOnsets
  dsimp only
  rw [howed, hcyc]
  show (match detectorLane e.fol with | some l => _ | none => _) = _
  rw [hl]
  rfl

theorem frameOnsets_counts (h : 0 < e.fol.holdCount) :
    frameOnsets e = { e with fol := { e.fol with holdCount := e.fol.holdCount - 1 } } := by
  have hd : detect e = ({ e with fol := { e.fol with holdCount := e.fol.holdCount - 1 } }, false) := by
    unfold detect
    rw [hl]
    exact if_pos h
  rw [frameOnsets_lane howed hl, hd]
  rfl

theorem frameOnsets_hears (h : e.fol.holdCount = 0) (ha : e.fol.armed = true)
    (hx : e.fol.threshold < (e.lanes[l].x).toInt.natAbs) :
    frameOnsets e = hearOnset l e { e with fol := { e.fol with armed := false, holdCount := e.fol.holdOff } } := by
  have hd : detect e = ({ e with fol := { e.fol with armed := false, holdCount := e.fol.holdOff } }, true) := by
    unfold detect
    rw [hl]
    refine (if_neg (by omega)).trans ?_
    exact if_pos ⟨ha, hx⟩
  rw [frameOnsets_lane howed hl, hd]
  rfl

theorem frameOnsets_still (h : e.fol.holdCount = 0) (hx : (e.lanes[l].x).toInt.natAbs ≤ e.fol.threshold) :
    frameOnsets e = e := by
  have hd : detect e = (e, false) := by
    unfold detect
    rw [hl]
    refine (if_neg (by omega)).trans ?_
    exact if_neg fun hn => absurd hn.2 (by rw [magnitude_eq]; omega)
  rw [frameOnsets_lane howed hl, hd]
  rfl

end

/-- The parts of a frame before its onsets leave state and detector as they are. -/
theorem frame_detects {e : Engine} {st : CycleState} {f : Follower} (jump : Bool) (adv : Nat) (h : Detects st f e) :
    Detects st f (tickGrant (tickSampling (frameAudio adv (countCues .frame 0 (noteGrid (cycleFrame jump e)))))) := by
  have hA := Detects.advances st f
  have h1 := hA.countCues .frame 0 (hA.noteGrid (hA.cycleFrame jump h))
  generalize countCues .frame 0 (noteGrid (cycleFrame jump e)) = E at h1
  have h2 : Detects st f (eachQuad runLane (eachQuad removeFrame E)) := by
    rw [eachQuad_runLane, eachQuad_removeFrame]
    exact { h1 with }
  have h3 : Detects st f (frameAudio adv E) := (Detects.sounds st f).frame adv h2
  have htick : ∀ {E : Engine}, Detects st f E → Detects st f (tickGrant (tickSampling E)) := fun {E} h => by
    have h4 : Detects st f (tickSampling E) := ite_of { h with } { h with }
    exact { h4 with }
  exact htick h3

end Sys2Proof.Machine

end

section
/-! TimersEnd: the detector on a FRAME, and the ends of hold-off, coast and clip window (R25, R26, R32, R139). -/

set_option Elab.async false

namespace Sys2Proof.Machine

theorem detector_iff {f g : Follower} : f.detector = g.detector ↔
    f.source = g.source ∧ f.held = g.held ∧ f.threshold = g.threshold ∧ f.holdOff = g.holdOff ∧ f.armed = g.armed
      ∧ f.arming = g.arming ∧ f.holdCount = g.holdCount := by
  unfold Follower.detector
  simp only [Prod.mk.injEq]

theorem clocked_only (f : Follower) : f.clocked = { f with arming := f.clocked.arming }
    ∧ (f.holdCount = 0 → (f.armed || f.clocked.arming) = true)
    ∧ (0 < f.holdCount → f.clocked.arming = f.arming) := by
  unfold Follower.clocked
  split
  next h =>
    simp only [Bool.and_eq_true, beq_iff_eq] at h
    exact ⟨rfl, fun _ => Bool.or_true _, fun hc => by omega⟩
  next h =>
    refine ⟨rfl, fun h0 => ?_, fun _ => rfl⟩
    rw [h0] at h
    revert h
    cases f.armed <;> cases f.arming <;> decide

/-- The onset of a frame leaves the detector it fired from, which what is noted of it holds armed. -/
theorem hearOnset_detects {st : CycleState} {f g : Follower} {l : LaneIx} {e d : Engine} (hst : st ≠ .baseCapture)
    (he : Detects st f e) (hd : Detects st g d) : Detects st g (hearOnset l e d)
      ∧ ∃ h, (hearOnset l e d).heard = some h ∧ h.lane = l ∧ h.without.detector = f.detector := by
  have hclose : ∀ {f : Follower} {E : Engine}, Detects st f E → Detects st f (autoClose E) := fun {f E} h => by
    rw [autoClose_not_due (autoCloseDue_open (by rw [h.state]; exact hst))]
    exact h
  have hafter : Detects st g (handOnset .detector d) := (Detects.advances st g).handOnset hclose .detector hd
  have hbefore : Detects st f (coast (autoClose e)) := (Detects.advances st f).coast (hclose he)
  unfold hearOnset
  dsimp only
  exact ⟨{ hafter with }, _, rfl, rfl, hbefore.detector⟩

/-- What a FRAME of a part that is still does to the detector of a lane, the cycle being in no base capture. -/
theorem frame_detector {s : State} {l : LaneIx} (h : s.Still) (hb : s.eng.cyc.state ≠ .baseCapture)
    (hs : s.eng.fol.source = .lane l) (hh : s.eng.fol.held = false) :
    ∃ E : Engine, ∃ f : Follower, exec .frame s = .next (s.giving (frameOnsets E)) ∧ Detects s.eng.cyc.state f E
      ∧ f = { s.eng.fol with armed := f.armed, arming := false }
      ∧ (s.eng.fol.holdCount = 0 → f.armed = true)
      ∧ (0 < s.eng.fol.holdCount → f.armed = (s.eng.fol.armed || s.eng.fol.arming)) := by
  obtain ⟨heard, hexec⟩ := frame_steady h.toSteady (autoCloseDue_open hb)
  obtain ⟨voices, splice, hx⟩ := uncrossed_only s.eng
  have htimed := settleRest_timed (e := { s.eng.uncrossed with fol := s.eng.fol.clocked, heard := heard })
    (by rw [hx]; exact h.pedals)
  have hcyc : s.eng.uncrossed.cyc = { s.eng.cyc with splice := splice } := by rw [hx]
  have hfol := htimed.fol
  have hc := htimed.cyc
  clear htimed
  generalize settleRest { s.eng.uncrossed with fol := s.eng.fol.clocked, heard := heard } = X at hexec hfol hc
  have hc' : X.cyc.state = s.eng.cyc.state ∧ X.cyc.owedTaps = s.eng.cyc.owedTaps := by
    rw [hc]
    dsimp only
    rw [hcyc]
    exact ⟨rfl, rfl⟩
  have hopen : Detects s.eng.cyc.state s.eng.fol.clocked.openFrame (openFrame X) := by
    obtain ⟨hfolOpen, hcycOpen⟩ := openFrame_rest X
    refine ⟨?_, ?_, ?_⟩
    · rw [hcycOpen]
      exact hc'.1
    · rw [hcycOpen]
      exact hc'.2.trans h.owed.2
    · rw [hfolOpen, hfol]
  rw [runFrame_eq] at hexec
  obtain ⟨honly, hzero, hcount⟩ := clocked_only s.eng.fol
  refine ⟨_, _, hexec, frame_detects (readyToJump X) (integerAdvance X) hopen, ?_, fun h0 => ?_, fun h0 => ?_⟩
  · unfold Follower.openFrame
    rw [honly]
  · unfold Follower.openFrame
    rw [honly]
    exact hzero h0
  · unfold Follower.openFrame
    rw [honly]
    exact congrArg (s.eng.fol.armed || ·) (hcount h0)

end Sys2Proof.Machine

namespace Sys2Proof.Settled
open Sys2Proof.Machine

/-- Settles O43: the detector through the parts of a frame (`frame_detector`), which are followed by its own three cases;
the events themselves are rows of the engine. -/
theorem timersEnd : Obligations.TimersEnd := by
  unfold Obligations.TimersEnd
  refine ⟨fun s l h hb hs hh => ?_, fun s hon => ⟨fun h0 ha hg => ?_, fun hnot => ?_, fun f hf => ?_, fun hd ht => ?_,
    fun hd => ?_, fun hrun hw => ?_, fun hnot => ?_⟩⟩
  · intro fol
    obtain ⟨E, f, hexec, hE, hf, hzero, hcount⟩ := frame_detector h hb hs hh
    have hkeeps := detector_iff.1 hE.detector
    rw [hf] at hkeeps
    obtain ⟨hsource, hheld, hthreshold, hholdOff, harmed, -, hholdCount⟩ := hkeeps
    dsimp only at hsource hheld hthreshold hholdOff harmed hholdCount
    have hlane : detectorLane E.fol = some l := by
      unfold detectorLane
      rw [hsource, hs]
      dsimp only
      rw [hheld, hh]
      rfl
    have hwired := frameOnsets_wired (.refl E)
    refine ⟨_, hexec, fun hpos => ?_, fun h0 hx => ?_, fun h0 hx => ?_⟩
    · have hrun := frameOnsets_counts hE.owed hlane (by rw [hholdCount]; exact hpos)
      show (frameOnsets E).fol.holdCount = _ ∧ (frameOnsets E).fol.armed = _
      rw [hrun]
      exact ⟨congrArg (· - 1) hholdCount, harmed.trans (hcount hpos)⟩
    · have hx' : E.fol.threshold < (E.lanes[l].x).toInt.natAbs := by
        rw [hthreshold, ← hwired.lanes]
        exact hx
      have hrun := frameOnsets_hears hE.owed hlane (by rw [hholdCount]; exact h0) (by rw [harmed]; exact hzero h0) hx'
      obtain ⟨hdet, hd, hheard, hl, hwithout⟩ := hearOnset_detects (l := l)
        (d := { E with fol := { E.fol with armed := false, holdCount := E.fol.holdOff } })
        (g := { E.fol with armed := false, holdCount := E.fol.holdOff }) hb hE ⟨hE.state, hE.owed, rfl⟩
      show (frameOnsets E).fol.armed = _ ∧ (frameOnsets E).fol.holdCount = _ ∧ ((frameOnsets E).heard.map _) = _
      rw [hrun]
      obtain ⟨-, -, -, -, hnow, -, hcountNow⟩ := detector_iff.1 hdet.detector
      obtain ⟨-, -, -, -, hwas, -, hcountWas⟩ := detector_iff.1 hwithout
      refine ⟨hnow, hcountNow.trans hholdOff, ?_⟩
      rw [hheard, Option.map_some, hl, hwas, hcountWas, hzero h0]
      have hf0 : f.holdCount = 0 := by rw [hf]; exact h0
      rw [hf0]
    · have hx' : (E.lanes[l].x).toInt.natAbs ≤ E.fol.threshold := by
        rw [hthreshold, ← hwired.lanes]
        exact hx
      have hrun := frameOnsets_still hE.owed hlane (by rw [hholdCount]; exact h0) hx'
      show (frameOnsets E).fol.armed = _ ∧ (frameOnsets E).fol.holdCount = _
      rw [hrun]
      exact ⟨harmed.trans (hzero h0), hholdCount.trans h0⟩
  · have hdue : holdOffEndDue s.eng = true := by
      unfold holdOffEndDue
      rw [h0, ha, hg]
      rfl
    refine (engineRow_on hon (whenDue holdOffEndDue endHoldOff)).trans ?_
    rw [whenDue_due hdue]
    rfl
  · have hdue : holdOffEndDue s.eng = false := by
      unfold holdOffEndDue
      obtain hp | ha | hg := hnot
      · rw [beq_eq_false_iff_ne.2 (by omega)]
        rfl
      · rw [ha, Bool.not_true, Bool.and_false]
        rfl
      · rw [hg, Bool.not_true, Bool.and_false]
    refine (engineRow_on hon (whenDue holdOffEndDue endHoldOff)).trans ?_
    rw [whenDue_not hdue]
    rfl
  · unfold Follower.openFrame
    rw [hf]
    exact Bool.or_true _
  · intro fol
    obtain ⟨heard, hcoast⟩ := onFollower_only
      (fun e => if e.fol.coastDue = true then setFollowState .waiting .coast e else e) s.eng
    have hmoves : (if s.eng.fol.coastDue = true then setFollowState .waiting .coast s.eng else s.eng)
        = ({ s.eng with fol := fol } : Engine).reports (.followState .waiting .coast) := by
      rw [if_pos hd, setFollowState_moves _ (by rw [ht]; decide)]
    rw [hmoves] at hcoast
    refine ⟨heard, fun hn => ?_, (engineRow_on hon coast).trans (congrArg (fun e => Host.Outcome.next (s.giving e)) hcoast)⟩
    have hkeeps : coast s.eng = _ := onFollower_unheard (e := s.eng) hn _
    have := congrArg Engine.heard ((show coast s.eng = _ from hcoast).symm.trans hkeeps)
    exact this.trans ((congrArg Engine.heard hmoves).trans hn)
  · obtain ⟨heard, hcoast⟩ := coast_waits hd
    refine ⟨heard, fun hn => ?_, (engineRow_on hon coast).trans (congrArg (fun e => Host.Outcome.next (s.giving e)) hcoast)⟩
    exact (congrArg Engine.heard (hcoast.symm.trans (coast_not_due hd hn))).trans hn
  · intro mx
    have hdue : clipWindowDue s.eng = true := by
      unfold clipWindowDue
      rw [decide_eq_true hw, Bool.and_true, bne_iff_ne]
      exact hrun
    refine (engineRow_on hon clipWindowEnd).trans ?_
    exact congrArg (fun e => Host.Outcome.next (s.giving e)) (if_pos hdue)
  · have hdue : ¬clipWindowDue s.eng = true := by
      unfold clipWindowDue
      obtain hr | hw := hnot
      · rw [hr]
        exact fun h => nomatch h
      · rw [decide_eq_false (by omega), Bool.and_false]
        decide
    refine (engineRow_on hon clipWindowEnd).trans ?_
    exact congrArg (fun e => Host.Outcome.next (s.giving e)) (if_neg hdue)

end Sys2Proof.Settled

end

section
/-! A quiet part as its frame ends: what the units settle where no slot is taken and no splice stands (entry 3). -/

set_option Elab.async false

namespace Sys2Proof.Machine

/-! ## Voices that settle alone -/

/-- Nothing is due on the voice. -/
def Engine.rests (e : Engine) (l : LayerIx) : Prop :=
  primingDue e l = false ∧ voiceIdleDue e l = false ∧ clearFadeDue e l = false

/-- Engine `t` is `e` with other voices, each of which is as it was or has begun to read. -/
structure Primed (e t : Engine) : Prop where
  only : t = { e with voices := t.voices }
  voice : ∀ l : LayerIx, t.voices[l] = e.voices[l] ∨ (primingDue e l = true ∧ t.voices[l].rs = .reading)

section
variable {e : Engine}

theorem Primed.rested {t : Engine} (h : Primed e t) {l : LayerIx} (hl : primingDue e l = false) :
    t.voices[l] = e.voices[l] :=
  (h.voice l).resolve_right fun hn => by rw [hl] at hn; exact nomatch hn.1

theorem recoveryDue_voices {V : Vector Voice 16} {l : LayerIx} (hv : V[l] = e.voices[l]) :
    recoveryDue { e with voices := V } l = recoveryDue e l := by
  have hlen : layerLen { e with voices := V } l = layerLen e l := rfl
  unfold recoveryDue
  dsimp only
  rw [hlen, hv]

theorem primingDue_voices {V : Vector Voice 16} {l : LayerIx} (hv : V[l] = e.voices[l]) :
    primingDue { e with voices := V } l = primingDue e l := by
  have hlen : layerLen { e with voices := V } l = layerLen e l := rfl
  have hzero : zeroFilling { e with voices := V } l = zeroFilling e l := rfl
  unfold primingDue
  dsimp only
  rw [hlen, hv, hzero]

theorem primes_voices (h : ∀ l, recoveryDue e l = false) : Primed e (eachLayer settleVoice e) := by
  refine eachLayer_induct (I := Primed e) (fun l t ht => ?_) ⟨rfl, fun l => .inl rfl⟩
  obtain ⟨honly, hvoice⟩ := ht
  have hrec : recoveryDue t l = false := by
    obtain hv | ⟨-, hv⟩ := hvoice l
    · rw [honly, recoveryDue_voices hv]
      exact h l
    · have hs : (t.voices[l].rs == ReadState.starved) = false := by rw [hv]; decide
      unfold recoveryDue
      dsimp only
      rw [hs, Bool.false_and, Bool.false_and]
  have hoff : (if recoveryDue t l = true then recoverFrame l t else t) = t := if_neg (by rw [hrec]; exact nofun)
  unfold settleVoice
  rw [hoff]
  by_cases hp : primingDue t l = true
  · rw [if_pos hp]
    have hdue : primingDue e l = true := by
      obtain hv | ⟨hd, -⟩ := hvoice l
      · rw [honly, primingDue_voices hv] at hp
        exact hp
      · exact hd
    refine ⟨?_, fun i => ?_⟩
    · unfold primingDone modVoice
      dsimp only
      rw [honly]
    · by_cases hi : l = i
      · subst hi
        exact .inr ⟨hdue, congrArg Voice.rs (upd_self t.voices l _)⟩
      · have hother : (primingDone l t).voices[i] = t.voices[i] := upd_other t.voices l i _ hi
        rw [hother]
        exact hvoice i
  · rw [if_neg hp]
    exact ⟨honly, hvoice⟩

end

/-! ## The ends of fades -/

/-- Engine `t` is `e` with other voices, those at rest as they were, and a grant in progress cancelled at most. -/
structure Faded (e t : Engine) : Prop where
  only : t = { e with voices := t.voices, mem := { e.mem with grant := t.mem.grant } }
  voice : ∀ l : LayerIx, voiceIdleDue e l = false → clearFadeDue e l = false → t.voices[l] = e.voices[l]
  idle : e.mem.grant = none → t.mem.grant = none

section
variable {e t : Engine} {l : LayerIx}

theorem Faded.start (e : Engine) : Faded e e := ⟨rfl, fun _ _ _ => rfl, id⟩

/-- A voice of its own is changed, with a grant cancelled at most. -/
theorem Faded.next (h : Faded e t) {f : Voice → Voice} {g : Option Grant} (hg : t.mem.grant = none → g = none)
    (hdue : voiceIdleDue e l = true ∨ clearFadeDue e l = true) :
    Faded e { t with voices := upd t.voices l f, mem := { t.mem with grant := g } } := by
  obtain ⟨honly, hvoice, hidle⟩ := h
  refine ⟨?_, fun i h1 h2 => ?_, fun hn => hg (hidle hn)⟩
  · dsimp only
    rw [honly]
  · have hne : l ≠ i := fun hi => by
      subst hi
      rw [h1, h2] at hdue
      exact hdue.elim (fun h => nomatch h) fun h => nomatch h
    exact (upd_other t.voices l i f hne).trans (hvoice i h1 h2)

theorem settleFade_rests (h1 : voiceIdleDue e l = false) (h2 : clearFadeDue e l = false) : settleFade l e = e := by
  have hoff : (if voiceIdleDue e l = true then idleVoice l e else e) = e := if_neg (by rw [h1]; exact nofun)
  unfold settleFade
  rw [hoff]
  exact if_neg (by rw [h2]; exact nofun)

theorem fades_voices : Faded e (eachLayer settleFade e) := by
  have hfold : ∀ (ls : List LayerIx), ls.Nodup → ∀ t, Faded e t → (∀ l ∈ ls, t.voices[l] = e.voices[l]) →
      Faded e (ls.foldl (fun t l => settleFade l t) t) := fun ls => by
    induction ls with
    | nil => exact fun _ t ht _ => ht
    | cons l rest ih =>
      intro hn t ht hv
      obtain ⟨hl, hrest⟩ := List.nodup_cons.1 hn
      have hvl := hv l List.mem_cons_self
      have hidle : voiceIdleDue t l = voiceIdleDue e l := by
        have hlayers : t.layers = e.layers := by rw [ht.only]
        unfold voiceIdleDue
        rw [hvl, hlayers]
      have hclear : clearFadeDue t l = clearFadeDue e l := by
        unfold clearFadeDue
        rw [hvl]
      have hstep : Faded e (settleFade l t) ∧ ∀ i, l ≠ i → (settleFade l t).voices[i] = t.voices[i] := by
        by_cases hd : voiceIdleDue e l = true ∨ clearFadeDue e l = true
        · have hdone : ∀ {u : Engine}, Faded e u → (∀ i : LayerIx, l ≠ i → u.voices[i] = t.voices[i]) →
              Faded e (clearFadeDone l u) ∧ ∀ i : LayerIx, l ≠ i → (clearFadeDone l u).voices[i] = t.voices[i] :=
            fun {u} hu hi => by
              have h1 := hu.next (l := l) (f := fun _ => Voice.reset) (g := u.mem.grant) id hd
              have hi1 : ∀ i : LayerIx, l ≠ i → (modVoice l (fun _ => Voice.reset) u).voices[i] = t.voices[i] :=
                fun i hne => (upd_other u.voices l i _ hne).trans (hi i hne)
              unfold clearFadeDone
              dsimp only
              split
              · exact ⟨h1.next (l := l) (g := u.mem.grant) id hd,
                  fun i hne => (upd_other _ l i _ hne).trans (hi1 i hne)⟩
              · exact ⟨h1, hi1⟩
          have hidled : Faded e (idleVoice l t) ∧ ∀ i : LayerIx, l ≠ i → (idleVoice l t).voices[i] = t.voices[i] :=
            ⟨ht.next (l := l) (f := fun _ => Voice.reset) (g := (discardRefill l t).mem.grant)
              (fun hn => by unfold discardRefill cancelGrant; rw [hn]; rfl) hd,
              fun i hne => upd_other t.voices l i _ hne⟩
          unfold settleFade
          extract_lets u
          have hu : Faded e u ∧ ∀ i : LayerIx, l ≠ i → u.voices[i] = t.voices[i] := by
            unfold u
            split
            · exact hidled
            · exact ⟨ht, fun _ _ => rfl⟩
          clear_value u
          split
          · exact hdone hu.1 hu.2
          · exact hu
        · simp only [not_or, Bool.not_eq_true] at hd
          rw [settleFade_rests (hidle.trans hd.1) (hclear.trans hd.2)]
          exact ⟨ht, fun _ _ => rfl⟩
      refine ih hrest _ hstep.1 fun i hi => ?_
      have hne : l ≠ i := fun h => hl (h ▸ hi)
      exact (hstep.2 i hne).trans (hv i (List.mem_cons_of_mem _ hi))
  exact hfold layerIxs layerIxs_nodup e (.start e) fun _ _ => rfl

end

/-! ## Free slots, the mixer's reports, and the arbiter without a splice -/

section
variable {e : Engine}

theorem settleSlot_free {i : SlotIx} (h : e.slots[i].use = .free ∧ e.slots[i].pendingWrites = []) : settleSlot i e = e := by
  have hdue : fixedCompleteDue e i = false := by
    unfold fixedCompleteDue
    dsimp only
    rw [h.1]
  unfold settleSlot
  rw [if_neg (by rw [hdue]; decide)]
  unfold commitSlot
  rw [h.2]
  refine (congrArg (fun slots => ({ e with slots := slots } : Engine)) (upd_id e.slots i ?_)).trans rfl
  rw [← h.2]

theorem eachSlot_free (h : ∀ i : SlotIx, e.slots[i].use = .free ∧ e.slots[i].pendingWrites = []) :
    eachSlot settleSlot e = e := by
  have hall : ∀ is : List SlotIx, is.foldl (fun e i => settleSlot i e) e = e := fun is => by
    induction is with
    | nil => rfl
    | cons i rest ih => rw [List.foldl_cons, settleSlot_free (h i), ih]
  exact hall slotIxs

/-- What the mixer's reports touch. -/
theorem clips_only (e : Engine) : ∃ clipping reported window evq, clipWindowEnd (reportClip e) =
    { e with mix := { e.mix with clipping := clipping, clipReported := reported, window := window }, evq := evq } := by
  have hclip : ∃ clipping reported evq, reportClip e =
      { e with mix := { e.mix with clipping := clipping, clipReported := reported }, evq := evq } := by
    unfold reportClip
    split
    · exact ⟨e.mix.clipping, e.mix.clipReported, e.evq, rfl⟩
    · split
      · exact ⟨_, _, e.evq, rfl⟩
      · exact ⟨_, _, _, rfl⟩
  obtain ⟨clipping, reported, evq, hclip⟩ := hclip
  rw [hclip]
  unfold clipWindowEnd
  split
  · exact ⟨_, _, _, _, rfl⟩
  · exact ⟨_, _, e.mix.window, _, rfl⟩

/-- Engine `t` is `e` with other voices, each fed zeros at most, and those of a layer without a written range not even those. -/
structure ZeroFed (e t : Engine) : Prop where
  only : t = { e with voices := t.voices }
  voice : ∀ l : LayerIx, (e.layers[l].written = none → t.voices[l] = e.voices[l])
    ∧ ∃ (n : Nat) (flag : Bool), t.voices[l] = { e.voices[l] with
        flag := flag, main := { e.voices[l].main with frames := e.voices[l].main.frames ++ List.replicate n 0 } }

theorem zeroFeed_idle {t : Engine} {l : LayerIx} (hs : t.cyc.splice = .idle) :
    zeroFeed l t = t ∨ (t.layers[l].written ≠ none ∧ ∃ n : Nat, zeroFeed l t = modVoice l (fun v =>
      updFlag (layerLen t l) t.cyc.splice.crossing
        { v with main := { v.main with frames := v.main.frames ++ List.replicate n 0 } }) t) := by
  have hasks : ∀ u : Engine, u.cyc.splice = .idle → spliceAsks u l = false := fun u hu => by
    unfold spliceAsks
    rw [hu]
  unfold zeroFeed
  extract_lets len pos n e1 stream spos
  have h1 : e1.cyc.splice = .idle := by
    unfold e1
    split
    · exact hs
    · exact hs
  have hlast : ∀ m : Engine, (if spliceAsks e1 l = true ∧ (e1.layers[l].written.isSome = true) ∧ readSource e1 l spos = none
      then m else e1) = e1 := fun m => if_neg fun h => by rw [hasks e1 h1] at h; exact nomatch h.1
  refine (hlast _).symm ▸ ?_
  unfold e1
  split
  next h =>
    refine .inr ⟨fun hn => ?_, n, rfl⟩
    rw [hn] at h
    exact nomatch h.2.1
  · exact .inl rfl

theorem zeroFed_voices (hs : e.cyc.splice = .idle) : ZeroFed e (eachLayer zeroFeed e) := by
  have hfold : ∀ (ls : List LayerIx), ls.Nodup → ∀ t, ZeroFed e t → (∀ l ∈ ls, t.voices[l] = e.voices[l]) →
      ZeroFed e (ls.foldl (fun t l => zeroFeed l t) t) := fun ls => by
    induction ls with
    | nil => exact fun _ t ht _ => ht
    | cons l rest ih =>
      intro hn t ht hv
      obtain ⟨hl, hrest⟩ := List.nodup_cons.1 hn
      obtain ⟨honly, hvoice⟩ := ht
      have hsame : t.layers = e.layers ∧ t.cyc = e.cyc := by
        rw [honly]
        exact ⟨rfl, rfl⟩
      rw [List.foldl_cons]
      obtain hz | ⟨hw, n, hz⟩ := zeroFeed_idle (l := l) (t := t) (by rw [hsame.2]; exact hs)
      · rw [hz]
        exact ih hrest t ⟨honly, hvoice⟩ fun i hi => hv i (List.mem_cons_of_mem _ hi)
      · have hself : (zeroFeed l t).voices[l] = updFlag (layerLen t l) t.cyc.splice.crossing
            { e.voices[l] with main := { e.voices[l].main with
              frames := e.voices[l].main.frames ++ List.replicate n 0 } } := by
          rw [hz]
          refine (upd_self t.voices l _).trans ?_
          rw [show t.voices[l.val] = e.voices[l] from hv l List.mem_cons_self]
        have hother : ∀ i, l ≠ i → (zeroFeed l t).voices[i] = t.voices[i] := fun i hi => by
          rw [hz]
          exact upd_other t.voices l i _ hi
        refine ih hrest _ ⟨?_, fun i => ?_⟩ fun i hi => ?_
        · rw [hz]
          unfold modVoice
          dsimp only
          rw [honly]
        · by_cases hi : l = i
          · subst hi
            rw [hself]
            refine ⟨fun hn => absurd (by rw [hsame.1]; exact hn) hw, n, _, rfl⟩
          · rw [hother i hi]
            exact hvoice i
        · have hne : l ≠ i := fun h => hl (h ▸ hi)
          rw [hother i hne]
          exact hv i (List.mem_cons_of_mem _ hi)
  exact hfold layerIxs layerIxs_nodup e ⟨rfl, fun l => ⟨fun _ => rfl, 0, e.voices[l].flag, by simp⟩⟩ fun _ _ => rfl

theorem settleSplice_idle (hs : e.cyc.splice = .idle) : settleSplice e = arbitrate e := by
  have hz := zeroFed_voices hs
  have hcyc : (arbitrate e).cyc.splice = .idle := by
    unfold arbitrate
    split
    · exact hs
    · unfold grantNext
      rw [hz.only]
      exact hs
  have hlimit : waitLimitDue (arbitrate e) = false := by
    unfold waitLimitDue
    rw [hcyc]
  unfold settleSplice
  rw [(splice_idle hs).2.2.2.1]
  dsimp only
  exact if_neg (by rw [hlimit]; decide)

end

/-! ## The whole -/

/-- What a quiet part settles as its frame ends: its voices, a grant on an idle port, and the mixer's reports. -/
structure QuietEnd (e t : Engine) : Prop where
  only : ∃ clipping reported window, t = { e with
    voices := t.voices, mem := { e.mem with grant := t.mem.grant }, evq := t.evq
    mix := { e.mix with clipping := clipping, clipReported := reported, window := window } }
  goes : (∀ l, e.rests l) → ∀ g, e.mem.grant = some g → t.mem.grant = some g
  picks : e.mem.grant = none → t.picks t.mem.grant ∧ ∀ l : LayerIx, e.rests l →
    (e.layers[l].written = none → t.voices[l] = e.voices[l])
    ∧ ∃ (n : Nat) (flag : Bool), t.voices[l] = { e.voices[l] with
        flag := flag, main := { e.voices[l].main with frames := e.voices[l].main.frames ++ List.replicate n 0 } }

theorem settleRest_quiet {e : Engine} (hrec : ∀ l, recoveryDue e l = false)
    (hfree : ∀ i : SlotIx, e.slots[i].use = .free ∧ e.slots[i].pendingWrites = []) (hs : e.cyc.splice = .idle)
    (hp : e.ped.due = false) : QuietEnd e (settleRest e) := by
  obtain ⟨E1, hE1⟩ : ∃ E1, E1 = eachLayer settleVoice e := ⟨_, rfl⟩
  have h1 : Primed e E1 := hE1 ▸ primes_voices hrec
  have hslots : eachSlot settleSlot E1 = E1 := eachSlot_free (by rw [h1.only]; exact hfree)
  obtain ⟨E2, hE2⟩ : ∃ E2, E2 = eachLayer settleFade E1 := ⟨_, rfl⟩
  have h2 : Faded E1 E2 := hE2 ▸ fades_voices
  obtain ⟨clipping, reported, window, evq, hclips⟩ := clips_only E2
  have hrest : settleRest e = arbitrate { E2 with
      mix := { E2.mix with clipping := clipping, clipReported := reported, window := window }, evq := evq } := by
    unfold settleRest
    rw [← hE1, hslots, ← hE2]
    dsimp only
    have hdue : E2.ped.due = false := by
      rw [h2.only, h1.only]
      exact hp
    rw [samplingEvent_not_due hdue, hclips]
    exact settleSplice_idle (by dsimp only; rw [h2.only, h1.only]; exact hs)
  obtain ⟨E3, hE3⟩ : ∃ E3 : Engine, E3 = { E2 with
      mix := { E2.mix with clipping := clipping, clipReported := reported, window := window }, evq := evq } := ⟨_, rfl⟩
  rw [← hE3] at hrest
  rw [hrest]
  have hform : E3 = { e with voices := E2.voices, mem := { e.mem with grant := E2.mem.grant }, evq := evq
                             mix := { e.mix with clipping := clipping, clipReported := reported, window := window } } := by
    rw [hE3, h2.only, h1.only]
  have hvoice : ∀ l, e.rests l → E3.voices[l] = e.voices[l] := fun l ⟨hpr, hid, hcl⟩ => by
    have hv := h1.rested hpr
    have hv3 : E3.voices[l] = E2.voices[l] := by rw [hE3]
    refine hv3.trans ((h2.voice l ?_ ?_).trans hv)
    · refine (?_ : voiceIdleDue E1 l = voiceIdleDue e l).trans hid
      have hlayers : E1.layers = e.layers := by rw [h1.only]
      unfold voiceIdleDue
      rw [hv, hlayers]
    · refine (?_ : clearFadeDue E1 l = clearFadeDue e l).trans hcl
      unfold clearFadeDue
      rw [hv]
  have hall' : (∀ l, e.rests l) → E2 = e := fun hall => by
    have hE : E1 = e := by
      have hv : E1.voices = e.voices := Vector.ext fun j hj => h1.rested (l := ⟨j, hj⟩) (hall ⟨j, hj⟩).1
      rw [h1.only, hv]
    have hsteps : ∀ ls : List LayerIx, ls.foldl (fun e l => settleFade l e) e = e := fun ls => by
      induction ls with
      | nil => rfl
      | cons l rest ih => rw [List.foldl_cons, settleFade_rests (hall l).2.1 (hall l).2.2, ih]
    rw [hE2, hE]
    exact hsteps layerIxs
  have hidle3 : e.mem.grant = none → E3.mem.grant = none := fun hn => by
    have hm : E1.mem.grant = none := by
      rw [h1.only]
      exact hn
    rw [hE3]
    exact h2.idle hm
  have hsplice : E3.cyc.splice = .idle := by
    rw [hform]
    exact hs
  cases hg : E3.mem.grant with
  | some g =>
    have harb : arbitrate E3 = E3 := by
      unfold arbitrate
      rw [hg]
    rw [harb]
    refine ⟨⟨clipping, reported, window, ?_⟩, fun hall g' hg' => ?_, fun hn => ?_⟩
    · rw [hform]
    · rw [hE3, hall' hall]
      exact hg'
    · rw [hidle3 hn] at hg
      exact nomatch hg
  | none =>
    have hz := zeroFed_voices hsplice
    have harb : arbitrate E3 = grantNext (eachLayer zeroFeed E3) := by
      unfold arbitrate
      rw [hg]
    have hpicks := arbitrate_picks hg
    rw [harb] at hpicks ⊢
    generalize eachLayer zeroFeed E3 = E4 at hz hpicks
    refine ⟨⟨clipping, reported, window, ?_⟩, fun hall g' hg' => ?_, fun hn => ⟨hpicks, fun l hl => ?_⟩⟩
    · unfold grantNext
      dsimp only
      rw [hz.only, hform]
    · exfalso
      have hgrant : E3.mem.grant = some g' := by
        rw [hE3, hall' hall]
        exact hg'
      rw [hgrant] at hg
      exact nomatch hg
    · have hv := hz.voice l
      have hw : E3.layers = e.layers := by rw [hform]
      rw [hvoice l hl, hw] at hv
      exact hv

end Sys2Proof.Machine

end

section
/-! The frame's own work on a quiet part: boundaries, the decision, the sound and the onsets (R13 to R17, R34, R68). -/

set_option Elab.async false

namespace Sys2Proof.Machine

/-! ## Boundaries on a frame without an onset so far -/

section
variable {e : Engine} (hh : e.heard = none)
include hh

theorem followBeat_counted : followBeat e = { e with fol := e.fol.counted } := by
  refine (onFollower_unheard hh _ : followBeat e = _).trans ?_
  unfold Follower.counted
  dsimp only
  split <;> rfl

theorem countCues_unheard (b : Boundary) (w : Nat) :
    countCues b w e = { e with cues := { e.cues with list := countList b w e.cues.list } } := by
  unfold countCues
  rw [hh]
  rfl

theorem beatBoundary_unheard (w : Nat) : beatBoundary w e = { e with
    evq := queueReport (.beat e.cyc.beat) e.cyc.k e.cyc.p e.evq
    cues := { e.cues with list := countList .beat w e.cues.list }, fol := e.fol.counted } := by
  have hposted : (post (.beat e.cyc.beat) e).heard = none := hh
  unfold beatBoundary
  rw [countCues_unheard hposted]
  exact followBeat_counted (e := { post (.beat e.cyc.beat) e with
    cues := { e.cues with list := countList .beat w e.cues.list } }) hh

theorem cycleBoundary_unheard (w : Nat) : cycleBoundary w e = { e with
    mix := { e.mix with clipReported := false }, fol := e.fol.counted
    cues := { e.cues with list := countedBy (awaitsAny (layerIxs.filter (wrapsNow e))) w e.cues.list }
    evq := (cycleBoundary w e).evq } := by
  have hbare : (bareBoundary w e).heard = none ∧ (bareBoundary w e).fol = e.fol.counted := by
    have h1 : countCues .cycle w { e with mix := { e.mix with clipReported := false } } =
        { e with mix := { e.mix with clipReported := false }
                 cues := { e.cues with list := countList .cycle w e.cues.list } } := countCues_unheard (by exact hh) .cycle w
    unfold bareBoundary
    rw [h1, beatBoundary_unheard (by exact hh)]
    exact ⟨hh, rfl⟩
  have hkeeps : (cycleBoundary w e).heard = none ∧ (cycleBoundary w e).fol = e.fol.counted :=
    eachLayer_induct (I := fun t => t.heard = none ∧ t.fol = e.fol.counted) (fun l t ht => by
      split
      · refine ⟨?_, ht.2⟩
        have hnone : (post (.wrap l) t).heard = none := ht.1
        unfold layerBoundary
        rw [countCues_unheard hnone]
        exact ht.1
      · exact ht) hbare
  obtain ⟨fol, heard, honly⟩ := cycleBoundary_only w e
  have hfol : fol = e.fol.counted := by
    rw [← hkeeps.2, honly]
  have hheard : heard = e.heard := by
    rw [hh, ← hkeeps.1, honly]
  rw [honly, hfol, hheard]

end

section
variable {e : Engine} {q : Nat}

theorem fireBeats_succ (fuel : Nat) : fireBeats q (fuel + 1) e =
    if e.cyc.beat + 1 < e.cyc.beats ∧ (e.cyc.beat + 1) * e.cyc.beatLength ≤ q then
      fireBeats q fuel (beatBoundary 0 { e with cyc := { e.cyc with beat := e.cyc.beat + 1 } })
    else e := rfl

/-- No grid point is reached. -/
theorem bringBeats_none (h : e.cyc.beats ≤ e.cyc.beat + 1 ∨ q < (e.cyc.beat + 1) * e.cyc.beatLength) : bringBeats q e = e := by
  unfold bringBeats
  cases hb : e.cyc.beats with
  | zero => rfl
  | succ fuel =>
    rw [fireBeats_succ]
    refine if_neg fun hn => ?_
    omega

/-- One grid point is reached. -/
theorem bringBeats_one (h1 : e.cyc.beat + 1 < e.cyc.beats) (h2 : (e.cyc.beat + 1) * e.cyc.beatLength ≤ q)
    (h3 : e.cyc.beats ≤ e.cyc.beat + 2 ∨ q < (e.cyc.beat + 2) * e.cyc.beatLength) (hh : e.heard = none) :
    bringBeats q e = beatBoundary 0 { e with cyc := { e.cyc with beat := e.cyc.beat + 1 } } := by
  obtain ⟨fuel, hb⟩ : ∃ fuel, e.cyc.beats = fuel + 1 := ⟨e.cyc.beats - 1, by omega⟩
  have hstep : bringBeats q e = fireBeats q fuel (beatBoundary 0 { e with cyc := { e.cyc with beat := e.cyc.beat + 1 } }) := by
    unfold bringBeats
    rw [hb, fireBeats_succ]
    exact if_pos ⟨h1, h2⟩
  rw [hstep, beatBoundary_unheard (by exact hh)]
  cases fuel with
  | zero => rfl
  | succ fuel =>
    rw [fireBeats_succ]
    refine if_neg fun hn => ?_
    obtain ⟨hn1, hn2⟩ := hn
    have hn1 : e.cyc.beat + 2 < e.cyc.beats := hn1
    have hn2 : (e.cyc.beat + 2) * e.cyc.beatLength ≤ q := hn2
    omega

end

/-! ## The decision (R34) -/

theorem requestSplice_only (j : Int) (e : Engine) : ∃ voices splice,
    requestSplice j e = { e with voices := voices, cyc := { e.cyc with splice := splice } } := by
  have hfold : ∀ (vs : List LayerIx) (E : Engine), ∃ voices : Vector Voice 16,
      vs.foldl (fun e v => modVoice v (fun x =>
        { x with spl := { base := backBy (layerLen e v) ((layerPos e v).getD 0) j, frames := [] } }) e) E
        = { E with voices := voices } := fun vs => by
    induction vs with
    | nil => exact fun E => ⟨E.voices, rfl⟩
    | cons v rest ih =>
      intro E
      obtain ⟨voices, h⟩ := ih (modVoice v (fun x =>
        { x with spl := { base := backBy (layerLen E v) ((layerPos E v).getD 0) j, frames := [] } }) E)
      exact ⟨voices, h⟩
  unfold requestSplice
  split
  · obtain ⟨voices, h⟩ := hfold (playingVoices e) { e with cyc := { e.cyc with
      splice := .fetching { j := j, x := e.mix.cross, voices := playingVoices e, count := 0 } } }
    exact ⟨voices, _, h⟩
  · exact ⟨_, _, rfl⟩

theorem decideSplice_only (e : Engine) : ∃ voices splice,
    decideSplice e = { e with voices := voices, cyc := { e.cyc with splice := splice },
                              fol := { e.fol with decisionMade := true } }
      ∧ (e.fol.decisionMade = true ∨ spliceWanted e.fol = 0 → splice = e.cyc.splice) := by
  unfold decideSplice
  by_cases hd : e.fol.decisionMade = true
  · rw [if_pos hd]
    exact ⟨e.voices, e.cyc.splice, by rw [← hd], fun _ => rfl⟩
  · rw [if_neg hd]
    dsimp only
    by_cases hj : spliceWanted e.fol = 0
    · rw [if_pos hj]
      exact ⟨_, _, rfl, fun _ => rfl⟩
    · rw [if_neg hj]
      obtain ⟨voices, splice, h⟩ := requestSplice_only (spliceWanted e.fol)
        { e with fol := { e.fol with decisionMade := true } }
      exact ⟨voices, splice, h, fun hn => absurd hn (by rw [not_or]; exact ⟨hd, hj⟩)⟩

/-! ## The sound, the counts and the grant -/

/-- The sampling count on a frame (R159). -/
def Pedals.ticked (p : Pedals) : Pedals := if p.count + 1 = 32 then { p with count := 0, due := true } else { p with count := p.count + 1 }

/-- What the parts of a frame between its boundaries and its onsets leave of an engine whose slots are free. -/
structure FrameRun (e t : Engine) : Prop where
  only : ∃ live window computed sums clipping, t = { e with
    ports := t.ports, lanes := t.lanes, voices := t.voices, evq := t.evq, ped := e.ped.ticked
    cyc := { e.cyc with onset := if e.cyc.state = .running then some { p := e.cyc.p, len := e.cyc.c, beats := e.cyc.beats }
                                 else none }
    cues := { e.cues with list := countList .frame 0 e.cues.list }
    mix := { e.mix with live := live, window := window, computed := computed, sums := sums, clipping := clipping }
    mem := { e.mem with grant := e.mem.grant.map fun g => { g with left := g.left - 1 } } }

/-- Engine `t` is `e` with other voices, reports, live values, window and pair. -/
structure Sounded (e t : Engine) : Prop where
  only : ∃ live window computed sums clipping, t = { e with
    voices := t.voices, evq := t.evq
    mix := { e.mix with live := live, window := window, computed := computed, sums := sums, clipping := clipping } }

theorem Sounded.refl (e : Engine) : Sounded e e :=
  ⟨e.mix.live, e.mix.window, e.mix.computed, e.mix.sums, e.mix.clipping, rfl⟩

theorem runVoice_sounded {e t : Engine} (h : Sounded e t) (adv : Nat) (l : LayerIx) : Sounded e (runVoice adv l t) := by
  obtain ⟨live, window, computed, sums, clipping, h⟩ := h.only
  unfold runVoice
  dsimp only
  split
  · exact ⟨live, window, computed, sums, clipping, by unfold post modVoice; dsimp only; rw [h]⟩
  · exact ⟨live, window, computed, sums, clipping, by unfold modVoice; dsimp only; rw [h]⟩

theorem mixFrame_sounded {e t : Engine} (h : Sounded e t) : Sounded e (mixFrame t) := by
  obtain ⟨live, window, computed, sums, clipping, h⟩ := h.only
  have hstep : stepLive t = { t with mix := { t.mix with live := (stepLive t).mix.live } } := rfl
  have hform : ∀ m : FrameMix, (stepLive t).mix.form m = { t.mix with
      live := (stepLive t).mix.live, computed := ((stepLive t).mix.form m).computed, sums := m
      clipping := ((stepLive t).mix.form m).clipping } := fun m => rfl
  unfold mixFrame
  dsimp only
  rw [hform]
  unfold tickWindow
  split
  · exact ⟨_, window, _, _, _, by dsimp only; rw [hstep, h]⟩
  · exact ⟨_, _, _, _, _, by dsimp only; rw [hstep, h]⟩

theorem formWrites_free {e : Engine} {i : SlotIx} (h : e.slots[i].use = .free ∧ e.slots[i].pendingWrites = []) :
    formWrites i e = e := by
  have hnone : slotWrites e i = [] := by
    unfold slotWrites
    dsimp only
    split
    · rw [h.1]
    · rfl
  unfold formWrites
  rw [hnone]
  refine (congrArg (fun slots => ({ e with slots := slots } : Engine)) (upd_id e.slots i ?_)).trans rfl
  rw [← h.2]

theorem frameRun_quiet {e : Engine} (hh : e.heard = none)
    (hfree : ∀ i : SlotIx, e.slots[i].use = .free ∧ e.slots[i].pendingWrites = []) (adv : Nat) :
    FrameRun e (tickGrant (tickSampling (frameAudio adv (countCues .frame 0 (noteGrid e))))) := by
  have hnote : (noteGrid e).heard = none := hh
  rw [countCues_unheard hnote]
  obtain ⟨Y, hY⟩ : ∃ Y : Engine, Y = { noteGrid e with cues := { e.cues with list := countList .frame 0 e.cues.list } } := ⟨_, rfl⟩
  have hsame : ({ noteGrid e with cues := { (noteGrid e).cues with list := countList .frame 0 (noteGrid e).cues.list } }
      : Engine) = Y := hY.symm
  rw [hsame]
  have haudio : ∃ Z, Sounded { Y with ports := Z.ports, lanes := Z.lanes } Z ∧ frameAudio adv Y = Z := by
    refine ⟨_, ?_, rfl⟩
    unfold frameAudio
    rw [eachQuad_runLane, eachQuad_removeFrame]
    dsimp only
    generalize quadIxs.foldl _ Y.ports = ports
    generalize quadIxs.foldl _ Y.lanes = lanes
    have hforms : eachSlot formWrites { Y with ports := ports, lanes := lanes } = { Y with ports := ports, lanes := lanes } := by
      have hall : ∀ is : List SlotIx, is.foldl (fun e i => formWrites i e) { Y with ports := ports, lanes := lanes }
          = { Y with ports := ports, lanes := lanes } := fun is => by
        induction is with
        | nil => rfl
        | cons i rest ih =>
          rw [List.foldl_cons, formWrites_free (by rw [hY]; exact hfree i)]
          exact ih
      exact hall slotIxs
    rw [hforms]
    have hsound : Sounded { Y with ports := ports, lanes := lanes }
        (mixFrame (eachLayer (runVoice adv) { Y with ports := ports, lanes := lanes })) :=
      mixFrame_sounded (eachLayer_induct (I := Sounded { Y with ports := ports, lanes := lanes })
        (fun l _ h => runVoice_sounded h adv l) (.refl _))
    generalize mixFrame (eachLayer (runVoice adv) { Y with ports := ports, lanes := lanes }) = Z at hsound
    obtain ⟨live, window, computed, sums, clipping, h⟩ := hsound.only
    have hp : Z.ports = ports ∧ Z.lanes = lanes := by
      rw [h]
      exact ⟨rfl, rfl⟩
    rw [hp.1, hp.2]
    exact hsound
  obtain ⟨Z, hZ, hrun⟩ := haudio
  obtain ⟨live, window, computed, sums, clipping, hZ⟩ := hZ.only
  rw [hrun]
  have hped : Z.ped = e.ped ∧ Z.mem = e.mem := by
    rw [hZ, hY]
    exact ⟨rfl, rfl⟩
  have htick : tickGrant (tickSampling Z) = { Z with
      ped := e.ped.ticked
      mem := { e.mem with grant := e.mem.grant.map fun g => { g with left := g.left - 1 } } } := by
    unfold tickSampling Pedals.ticked
    rw [hped.1]
    split
    · unfold tickGrant
      dsimp only
      rw [hped.2]
    · unfold tickGrant
      dsimp only
      rw [hped.2]
  rw [htick]
  refine ⟨live, window, computed, sums, clipping, ?_⟩
  dsimp only
  rw [hZ, hY]
  rfl

/-! ## The onsets -/

theorem setFollowState_only (st : FollowState) (c : FollowCause) (e : Engine) : ∃ fol evq,
    setFollowState st c e = { e with fol := fol, evq := evq } := by
  unfold setFollowState
  dsimp only
  split
  · exact ⟨_, e.evq, rfl⟩
  · exact ⟨_, _, rfl⟩

theorem measureOnset_only (k : OnsetKind) (e : Engine) : ∃ fol evq heard,
    measureOnset k e = { e with fol := fol, evq := evq, heard := heard } := by
  have haccept : ∀ err n (E : Engine), ∃ fol evq, acceptOnset err n E = { E with fol := fol, evq := evq } := fun err n E => by
    unfold acceptOnset trimWith
    dsimp only
    split
    · split
      · exact ⟨_, _, rfl⟩
      · exact ⟨_, _, rfl⟩
    · split
      · exact ⟨_, E.evq, rfl⟩
      · exact ⟨_, E.evq, rfl⟩
  have hfollower : ∀ f : Engine → Engine, (∃ fol evq, f e = { e with fol := fol, evq := evq }) →
      ∃ fol evq heard, onFollower f e = { e with fol := fol, evq := evq, heard := heard } := fun f ⟨fol, evq, hf⟩ => by
    obtain ⟨heard, h⟩ := onFollower_only f e
    exact ⟨fol, evq, heard, by rw [h, hf]⟩
  refine hfollower _ ?_
  dsimp only
  split
  · exact ⟨e.fol, e.evq, rfl⟩
  · split
    · obtain ⟨fol, evq, h⟩ := haccept _ _ _
      rw [h]
      exact ⟨fol, evq, rfl⟩
    · exact ⟨_, e.evq, rfl⟩

theorem handOnset_open {e : Engine} (k : OnsetKind) (hb : e.cyc.state ≠ .baseCapture) : ∃ fol evq heard,
    handOnset k e = { e with fol := fol, evq := evq, heard := heard,
                             cues := { e.cues with list := countList .onset 0 e.cues.list } } := by
  obtain ⟨fol, evq, heard, hc⟩ := coast_only e
  obtain ⟨fol', evq', heard', hm⟩ := measureOnset_only k (countCues .onset 0 (coast e))
  refine ⟨fol', evq', heard', ?_⟩
  unfold handOnset
  rw [autoClose_not_due (autoCloseDue_open hb), hm]
  unfold countCues
  rw [hc]

/-- The onsets of a frame that owes no taps: none, or the detector's. -/
theorem frameOnsets_open {e : Engine} (ho : e.cyc.owedTaps = 0) (hb : e.cyc.state ≠ .baseCapture) (hh : e.heard = none) :
    ∃ fol evq heard, frameOnsets e = { e with
        fol := fol, evq := evq, heard := heard
        cues := { e.cues with list := if heard.isSome = true then countList .onset 0 e.cues.list else e.cues.list } }
      ∧ (heard = none → fol = { e.fol with armed := fol.armed, arming := fol.arming, holdCount := fol.holdCount }) := by
  have hnone : ({ e with heard := none } : Engine) = e := by rw [← hh]
  cases hl : detectorLane e.fol with
  | none =>
    have hcyc : ({ e.cyc with owedTaps := 0 } : Cycle) = e.cyc := by rw [← ho]
    have hd : detect e = (e, false) := by
      unfold detect
      rw [hl]
    have hrun : frameOnsets e = e := by
      unfold frameOnsets
      dsimp only
      rw [ho, hcyc]
      show (match detectorLane e.fol with | some l => _ | none => _) = _
      rw [hl]
      exact congrArg Prod.fst hd
    exact ⟨e.fol, e.evq, none, hrun.trans hnone.symm, fun _ => rfl⟩
  | some l =>
    by_cases h0 : e.fol.holdCount = 0
    · by_cases hx : e.fol.armed = true ∧ e.fol.threshold < (e.lanes[l].x).toInt.natAbs
      · rw [frameOnsets_hears ho hl h0 hx.1 hx.2]
        unfold hearOnset
        obtain ⟨fol, evq, heard, h⟩ := handOnset_open .detector
          (e := { e with fol := { e.fol with armed := false, holdCount := e.fol.holdOff } }) hb
        dsimp only
        rw [h]
        exact ⟨fol, evq, some _, rfl, fun hn => nomatch hn⟩
      · have hd : detect e = (e, false) := by
          unfold detect
          rw [hl]
          refine (if_neg (by omega)).trans ?_
          exact if_neg hx
        have hrun : frameOnsets e = e := by
          rw [frameOnsets_lane ho hl, hd]
          rfl
        exact ⟨e.fol, e.evq, none, hrun.trans hnone.symm, fun _ => rfl⟩
    · rw [frameOnsets_counts ho hl (by omega)]
      refine ⟨{ e.fol with holdCount := e.fol.holdCount - 1 }, e.evq, none, ?_, fun _ => rfl⟩
      exact congrArg (fun h => ({ e with fol := { e.fol with holdCount := e.fol.holdCount - 1 }, heard := h } : Engine)) hh

/-! ## The cues of a frame -/

/-- Where no cue is due those that answer the predicate count a boundary, in wave 0. -/
theorem countedBy_undue {list : List Cue} (h : ∀ c ∈ list, c.remaining ≠ 0) (p : Cue → Bool) :
    countedBy p 0 list = list.map fun c => if p c = true then { c with remaining := c.remaining - 1, wave := 0 } else c := by
  have hwave : ∀ older : List Cue, (∀ c ∈ older, c.remaining ≠ 0) → dueWave older = 0 := fun older => by
    induction older with
    | nil => exact fun _ => rfl
    | cons c rest ih =>
      intro hr
      unfold dueWave
      rw [if_neg (hr c List.mem_cons_self), ih fun d hd => hr d (List.mem_cons_of_mem _ hd)]
      rfl
  refine List.ext_getElem? fun i => ?_
  rw [countedBy_getElem?, List.getElem?_map]
  cases hc : list[i]? with
  | none => rfl
  | some c =>
    have hr : 0 < c.remaining := Nat.pos_of_ne_zero (h c (List.mem_of_getElem? hc))
    simp only [Option.map_some]
    by_cases hp : p c = true
    · rw [if_pos ⟨hp, hr⟩, if_pos hp]
      unfold Cue.counts
      rw [hwave _ fun d hd => h d (List.mem_of_mem_take hd)]
      rfl
    · rw [if_neg (fun hn => hp hn.1), if_neg hp]

end Sys2Proof.Machine

end

section
/-! Frame: the cycle clock, the cues, the follower and the memory port on the frame of a quiet part (R3, R8, R13 to R16,
R31, R32, R34, R68, R118 to R123, R138, R159). -/

set_option Elab.async false

namespace Sys2Proof.Machine

/-! ## The frame of a quiet part, whatever the cycle clock does on it -/

/-- Engine `t` is `e` but for the cycle clock, the follower, the cues, the voices, the reports and the clip flag. -/
structure Clocked (e t : Engine) : Prop where
  only : ∃ reported, t = { e with
    cyc := t.cyc, fol := t.fol, cues := t.cues, voices := t.voices, evq := t.evq
    mix := { e.mix with clipReported := reported } }
  state : t.cyc.state = e.cyc.state
  owed : t.cyc.owedTaps = e.cyc.owedTaps
  queue : t.cues.nextNumber = e.cues.nextNumber ∧ t.cues.list.length = e.cues.list.length

section
variable {e : Engine}

theorem Clocked.refl (e : Engine) : Clocked e e := ⟨⟨e.mix.clipReported, rfl⟩, rfl, rfl, rfl, rfl⟩

theorem Clocked.trans {a b c : Engine} (h : Clocked a b) (h' : Clocked b c) : Clocked a c := by
  obtain ⟨⟨r, hb⟩, hs, ho, hn, hl⟩ := h
  obtain ⟨⟨r', hc⟩, hs', ho', hn', hl'⟩ := h'
  exact ⟨⟨r', by rw [hc, hb]⟩, hs'.trans hs, ho'.trans ho, hn'.trans hn, hl'.trans hl⟩

theorem Clocked.heard {t : Engine} (h : Clocked e t) : t.heard = e.heard := by
  obtain ⟨r, hb⟩ := h.only
  rw [hb]

theorem countedBy_length (p : Cue → Bool) (wave : Nat) (list : List Cue) : (countedBy p wave list).length = list.length := by
  unfold countedBy
  rw [List.length_mapIdx]

theorem fireBeats_clocked (q fuel : Nat) (hh : e.heard = none) : Clocked e (fireBeats q fuel e) := by
  induction fuel generalizing e with
  | zero => exact .refl e
  | succ fuel ih =>
    rw [fireBeats_succ]
    split
    · have hstep : Clocked e (beatBoundary 0 { e with cyc := { e.cyc with beat := e.cyc.beat + 1 } }) := by
        rw [beatBoundary_unheard (by exact hh)]
        exact ⟨⟨e.mix.clipReported, rfl⟩, rfl, rfl, rfl, countList_length _ _ _⟩
      exact hstep.trans (ih (hstep.heard.trans hh))
    · exact .refl e

theorem decideSplice_clocked : Clocked e (decideSplice e) := by
  obtain ⟨voices, splice, h, -⟩ := decideSplice_only e
  rw [h]
  exact ⟨⟨e.mix.clipReported, rfl⟩, rfl, rfl, rfl, rfl⟩

/-- The wrap of a cycle without a splice, its follower's trim computed anew when a pending B is applied. -/
theorem wrapCycle_idle (hh : e.heard = none) (hs : e.cyc.splice = .idle) : wrapCycle e =
    cycleBoundary 0 (
      let e2 : Engine := { e with cyc := e.cyc.wrap (slotBusy e), fol := { e.fol with decisionMade := false } }
      if e.cyc.pendingBeats.isSome = true then recomputeTrim e2 else e2) := by
  have hdecision : clearDecision { e with cyc := e.cyc.wrap (slotBusy e) } =
      { e with cyc := e.cyc.wrap (slotBusy e), fol := { e.fol with decisionMade := false } } :=
    onFollower_unheard (e := { e with cyc := e.cyc.wrap (slotBusy e) }) hh _
  have hidle : abandonSplice .cycleEnd { e with cyc := e.cyc.wrap (slotBusy e) } = { e with cyc := e.cyc.wrap (slotBusy e) } :=
    (splice_idle (e := { e with cyc := e.cyc.wrap (slotBusy e) }) hs).1 _
  unfold wrapCycle
  show cycleBoundary 0 (if e.cyc.pendingBeats.isSome = true
    then recomputeTrim (clearDecision (abandonSplice .cycleEnd { e with cyc := e.cyc.wrap (slotBusy e) }))
    else clearDecision (abandonSplice .cycleEnd { e with cyc := e.cyc.wrap (slotBusy e) })) = _
  rw [hidle, hdecision]

theorem wrapCycle_clocked (hh : e.heard = none) (hs : e.cyc.splice = .idle) : Clocked e (wrapCycle e) := by
  rw [wrapCycle_idle hh hs]
  obtain ⟨e2, he2⟩ : ∃ e2 : Engine, e2 = { e with cyc := e.cyc.wrap (slotBusy e), fol := { e.fol with decisionMade := false } } :=
    ⟨_, rfl⟩
  have h2 : Clocked e e2 := by
    rw [he2]
    exact ⟨⟨e.mix.clipReported, rfl⟩, rfl, rfl, rfl, rfl⟩
  have htrim : Clocked e (if e.cyc.pendingBeats.isSome = true then recomputeTrim e2 else e2) := by
    split
    · unfold recomputeTrim trimWith
      split
      · exact h2.trans ⟨⟨e2.mix.clipReported, rfl⟩, rfl, rfl, rfl, rfl⟩
      · exact h2
    · exact h2
  dsimp only
  rw [← he2]
  generalize (if e.cyc.pendingBeats.isSome = true then recomputeTrim e2 else e2) = T at htrim
  rw [cycleBoundary_unheard (htrim.heard.trans hh)]
  generalize (cycleBoundary 0 T).evq = evq
  exact htrim.trans ⟨⟨false, rfl⟩, rfl, rfl, rfl, countedBy_length _ _ _⟩

theorem cycleFrame_clocked (hh : e.heard = none) (hs : e.cyc.splice = .idle) (ho : e.cyc.owedBoundary = false) :
    Clocked e (cycleFrame false e) := by
  unfold cycleFrame
  rw [if_neg (by rw [ho]; exact nofun)]
  split
  · unfold advanceCycle
    extract_lets e1 q out e2 e3
    have h1 : Clocked e e1 := ⟨⟨e.mix.clipReported, rfl⟩, rfl, rfl, rfl, rfl⟩
    have hh1 : e1.heard = none := hh
    have hs1 : e1.cyc.splice = .idle := hs
    have h2 : Clocked e e2 := h1.trans (fireBeats_clocked _ _ hh1)
    have h3 : Clocked e e3 := by
      unfold e3
      split
      · exact h2.trans decideSplice_clocked
      · exact h2
    split
    · exact h1.trans (wrapCycle_clocked hh1 hs1)
    · exact h3
  · exact .refl e

end

/-- The engine of a quiet part as its frame opens. -/
structure Opened (s : State) (e : Engine) : Prop where
  only : ∃ live sending clipping reported window, e = { s.eng with
    voices := e.voices, mem := { s.eng.mem with grant := e.mem.grant }, evq := e.evq, heard := none, fol := e.fol
    mix := { s.eng.mix with
      live := live, sending := sending, clipping := clipping, clipReported := reported, window := window } }
  sending : e.mix.sending = s.eng.mix.computed
  fol : e.fol = { s.eng.fol with armed := e.fol.armed, arming := e.fol.arming }

/-- The grid that a frame notes before its cues (entry 31). -/
def Cycle.noted (c : Cycle) : Option OnsetGrid :=
  if c.state = .running then some { p := c.p, len := c.c, beats := c.beats } else none

/-- What the state is after the frame whose cycle clock left the engine `e`. -/
structure QuietFrame (s t : State) (e : Engine) : Prop where
  cyc : t.eng.cyc = { e.cyc with onset := e.cyc.noted }
  cues : t.eng.cues = { e.cues with list := (if t.eng.heard.isSome = true
    then countList .onset 0 (countList .frame 0 e.cues.list) else countList .frame 0 e.cues.list) }
  queue : e.cues.nextNumber = s.eng.cues.nextNumber ∧ e.cues.list.length = s.eng.cues.list.length
  fol : t.eng.heard = none → t.eng.fol = { e.fol with
    armed := t.eng.fol.armed, arming := t.eng.fol.arming, holdCount := t.eng.fol.holdCount }
  mixer : t.eng.mix.sending = s.eng.mix.computed ∧ t.eng.mix.master = s.eng.mix.master
    ∧ t.eng.mix.fade = s.eng.mix.fade ∧ t.eng.mix.cross = s.eng.mix.cross
  rest : t.eng.ped.count = (if s.eng.ped.count = 31 then 0 else s.eng.ped.count + 1)
    ∧ t.eng.layers = s.eng.layers ∧ t.eng.slots = s.eng.slots
    ∧ t.eng.mem = { s.eng.mem with grant := t.eng.mem.grant } ∧ t.eng.clk = s.eng.clk
    ∧ t.eng.xfer = s.eng.xfer ∧ t.link = s.link ∧ t.store = s.store ∧ t.powered = true
    ∧ t.freeCount = s.freeCount

theorem crossfadeEndDue_idle {e : Engine} (h : e.cyc.splice = .idle) : crossfadeEndDue e = false := by
  unfold crossfadeEndDue
  rw [h]

/-- The grant of a quiet part as its frame begins: one in progress, or the one the arbiter makes. -/
structure QuietGrant (s : State) (grant : Option Grant) : Prop where
  goes : (∀ l, s.eng.rests l) → ∀ g, s.eng.mem.grant = some g → grant = some g
  picks : s.eng.mem.grant = none → ∃ voices : Vector Voice 16, ({ s.eng with voices := voices } : Engine).picks grant
    ∧ ∀ l : LayerIx, s.eng.rests l → (s.eng.layers[l].written = none → voices[l] = s.eng.voices[l])
      ∧ ∃ (n : Nat) (flag : Bool), voices[l] = { s.eng.voices[l] with
          flag := flag
          main := { s.eng.voices[l].main with frames := s.eng.voices[l].main.frames ++ List.replicate n 0 } }

theorem frame_quiet {s : State} (h : s.Quiet) : ∃ (t : State) (e : Engine) (grant : Option Grant),
    exec .frame s = .next t ∧ Opened s e ∧ QuietGrant s grant
      ∧ t.eng.mem.grant = grant.map (fun g => { g with left := g.left - 1 })
      ∧ QuietFrame s t (cycleFrame false e) := by
  obtain ⟨heard, hexec⟩ := frame_steady h.toSteady (autoCloseDue_open h.cycle.1)
  have hun : s.eng.uncrossed = s.eng := if_neg (by rw [crossfadeEndDue_idle h.cycle.2]; exact nofun)
  rw [hun] at hexec
  obtain ⟨hclocked, -, -⟩ := clocked_only s.eng.fol
  have hX := settleRest_quiet (e := { s.eng with fol := s.eng.fol.clocked, heard := heard }) h.voices h.slots h.cycle.2 h.pedals
  generalize settleRest { s.eng with fol := s.eng.fol.clocked, heard := heard } = X at hexec hX
  obtain ⟨⟨clipping, reported, window, honly⟩, hgoes, hpicks⟩ := hX
  have hjump : readyToJump X = false := (splice_idle (by rw [honly]; exact h.cycle.2)).2.2.2.2.1
  have hbusy : slotBusy X = false := by
    have hs : X.slots = s.eng.slots := by rw [honly]
    have hfree : ∀ i : SlotIx, (s.eng.slots[i].use != .free) = false := fun i => by rw [(h.slots i).1]; rfl
    unfold slotBusy
    rw [hs]
    exact (congrArg₂ (· || ·) (hfree 0) (hfree 1)).trans rfl
  have hopen := openFrame_eq (e := X) (by rw [honly]; exact h.waiting)
  have hcyc : ({ X.cyc with splice := countSplice X.cyc.splice, captureThisPass := X.cyc.captureThisPass || slotBusy X }
      : Cycle) = s.eng.cyc := by
    have hc : X.cyc = s.eng.cyc := by rw [honly]
    rw [hbusy, Bool.or_false, hc, h.cycle.2]
    show ({ s.eng.cyc with splice := .idle } : Cycle) = s.eng.cyc
    rw [← h.cycle.2]
  have hclk : ({ X.clk with frameOpen := true } : Clock) = s.eng.clk := by
    have hc : X.clk = s.eng.clk := by rw [honly]
    rw [hc, ← h.frames.1]
  rw [hcyc, hclk] at hopen
  rw [runFrame_eq, hjump] at hexec
  obtain ⟨E, hE⟩ : ∃ E, E = openFrame X := ⟨_, rfl⟩
  rw [← hE] at hexec hopen
  have hform : Opened s E := by
    refine ⟨⟨X.mix.aimed, X.mix.computed, clipping, reported, window, ?_⟩, ?_, ?_⟩
    · rw [hopen, honly]
    · rw [hopen, honly]
    · rw [hopen, honly]
      dsimp only
      unfold Follower.openFrame
      rw [hclocked]
  have hgrant : E.mem.grant = X.mem.grant := by rw [hopen]
  have hcycE : E.cyc = s.eng.cyc := by rw [hopen]
  have hclocks := cycleFrame_clocked (e := E) (by rw [hopen]) (by rw [hcycE]; exact h.cycle.2) (by rw [hcycE]; exact h.owed.1)
  obtain ⟨reported', hC⟩ := hclocks.only
  obtain ⟨-, hCstate, hCowed, hCqueue⟩ := hclocks
  generalize hCeq : cycleFrame false E = C at hexec hC hCstate hCowed hCqueue
  obtain ⟨live, sending, clip, rep, win, hO⟩ := hform.only
  have hCslots : C.slots = s.eng.slots := by
    rw [hC]
    dsimp only
    rw [hO]
  have hrun := frameRun_quiet (e := C) (by rw [hC]; dsimp only; rw [hO]) (by rw [hCslots]; exact h.slots) (integerAdvance X)
  generalize tickGrant (tickSampling (frameAudio (integerAdvance X) (countCues .frame 0 (noteGrid C)))) = R at hexec hrun
  obtain ⟨live', win', computed, sums, clip', hR⟩ := hrun.only
  obtain ⟨fol, evq, heard', honsets, hfol⟩ := frameOnsets_open (e := R)
    (by rw [hR]; exact hCowed.trans (by rw [hcycE]; exact h.owed.2))
    (by rw [hR]; exact fun hn => h.cycle.1 (by rw [← hcycE, ← hCstate]; exact hn))
    (by rw [hR]; dsimp only; rw [hC]; dsimp only; rw [hO])
  rw [honsets] at hexec
  refine ⟨_, E, X.mem.grant, hexec, hform, ⟨fun hall => hgoes hall, fun hn => ?_⟩, ?_, ?_⟩
  · obtain ⟨hp, hv⟩ := hpicks hn
    refine ⟨X.voices, ?_, hv⟩
    rw [honly] at hp
    dsimp only at hp
    rw [hclocked] at hp
    generalize X.mem.grant = o at hp ⊢
    cases o <;> exact hp
  · show R.mem.grant = _
    rw [hR]
    dsimp only
    rw [hC]
    dsimp only
    rw [hgrant]
  · rw [hCeq]
    have hcuesE : E.cues = s.eng.cues := by rw [hO]
    refine ⟨?_, ?_, by rw [hcuesE] at hCqueue; exact hCqueue, fun hn => ?_, ⟨?_, ?_, ?_, ?_⟩, ?_⟩
    · show R.cyc = _
      rw [hR]
      exact rfl
    · show ({ R.cues with list := _ } : CueQueue) = _
      rw [hR]
      rfl
    · show fol = _
      rw [hfol hn, hR]
      rfl
    · show R.mix.sending = _
      rw [hR]
      dsimp only
      rw [hC]
      exact hform.sending
    · show R.mix.master = _
      rw [hR, hC]
      dsimp only
      rw [hO]
    · show R.mix.fade = _
      rw [hR, hC]
      dsimp only
      rw [hO]
    · show R.mix.cross = _
      rw [hR, hC]
      dsimp only
      rw [hO]
    · have hped : C.ped = s.eng.ped := by
        rw [hC]
        dsimp only
        rw [hO]
      have hmem : C.mem = { s.eng.mem with grant := C.mem.grant } := by
        rw [hC]
        dsimp only
        rw [hO]
      refine ⟨?_, ?_, ?_, ?_, ?_, ?_, rfl, rfl, h.powered, rfl⟩
      · show R.ped.count = _
        rw [hR]
        dsimp only
        rw [hped]
        unfold Pedals.ticked
        by_cases hc : s.eng.ped.count = 31
        · rw [if_pos hc, if_pos (by omega)]
        · rw [if_neg hc, if_neg (by omega)]
      · show R.layers = _
        rw [hR]
        dsimp only
        rw [hC]
        dsimp only
        rw [hO]
      · show R.slots = _
        rw [hR]
        exact hCslots
      · show R.mem = { s.eng.mem with grant := R.mem.grant }
        rw [hR]
        dsimp only
        rw [hmem]
      · show R.clk = _
        rw [hR]
        dsimp only
        rw [hC]
        dsimp only
        rw [hO]
      · show R.xfer = _
        rw [hR]
        dsimp only
        rw [hC]
        dsimp only
        rw [hO]

end Sys2Proof.Machine

end

section
/-! Frame: the cases of the cycle clock, and the obligation. -/

set_option Elab.async false

namespace Sys2Proof.Machine

/-! ## The cues of a frame without cues due -/

theorem countList_first (b : Boundary) (wave : Nat) (list : List Cue) :
    countList b wave list = countedBy (fun c => c.awaits b) wave list := by
  have h := countList_countedBy (p := fun _ => false) (b := b) (fun _ _ => rfl) wave list
  rw [countedBy_none] at h
  exact h

/-- What its own passing and its onset count after the boundary of a frame, none of which is for one cue twice. -/
theorem countList_frame {p : Cue → Bool} (hp : ∀ c : Cue, c.quantum = .immediate ∨ c.quantum = .onset → p c = false)
    (heard : Bool) (list : List Cue) :
    (if heard = true then countList .onset 0 (countList .frame 0 (countedBy p 0 list)) else countList .frame 0 (countedBy p 0 list))
      = countedBy (fun c => p c || c.awaits .frame || (heard && c.awaits .onset)) 0 list := by
  have hframe : countList .frame 0 (countedBy p 0 list) = countedBy (fun c => p c || c.awaits .frame) 0 list :=
    countList_countedBy (b := .frame) (fun c hc => hp c (.inl (beq_iff_eq.1 hc))) 0 list
  cases heard with
  | false =>
    rw [if_neg (by decide), hframe]
    simp only [Bool.false_and, Bool.or_false]
  | true =>
    have honset : ∀ c : Cue, c.awaits .onset = true → (p c || c.awaits .frame) = false := fun c hc => by
      have hq : c.quantum = .onset := beq_iff_eq.1 hc
      rw [hp c (.inr hq), Cue.awaits, hq]
      rfl
    rw [if_pos rfl, hframe, countList_countedBy honset]
    simp only [Bool.true_and]

/-! ## The advance of the position without a jump -/

section
variable {e : Engine}

/-- What the mid-cycle decision does on the frame on which the position reached the middle, or did not. -/
theorem decides_only (m : Bool) (e : Engine) : ∃ voices splice, (if m = true then decideSplice e else e) =
    { e with voices := voices, cyc := { e.cyc with splice := splice }
             fol := { e.fol with decisionMade := e.fol.decisionMade || m } }
      ∧ (m = false ∨ e.fol.decisionMade = true ∨ spliceWanted e.fol = 0 → splice = e.cyc.splice) := by
  cases m with
  | false => exact ⟨e.voices, e.cyc.splice, by simp only [Bool.or_false]; rfl, fun _ => rfl⟩
  | true =>
    obtain ⟨voices, splice, h, hkeep⟩ := decideSplice_only e
    refine ⟨voices, splice, ?_, fun hn => hkeep (hn.resolve_left nofun)⟩
    rw [if_pos rfl, h, Bool.or_true]

theorem fireBeats_leaves (q fuel : Nat) (hh : e.heard = none) : ∃ beat count due,
    (fireBeats q fuel e).cyc = { e.cyc with beat := beat }
      ∧ (fireBeats q fuel e).fol = { e.fol with beatCount := count, coastDue := due } := by
  induction fuel generalizing e with
  | zero => exact ⟨_, _, _, rfl, rfl⟩
  | succ fuel ih =>
    rw [fireBeats_succ]
    split
    · rw [beatBoundary_unheard (by exact hh)]
      obtain ⟨beat, count, due, hc, hf⟩ := ih (e := { e with
        cyc := { e.cyc with beat := e.cyc.beat + 1 }
        evq := queueReport (.beat (e.cyc.beat + 1)) e.cyc.k e.cyc.p e.evq
        cues := { e.cues with list := countList .beat 0 e.cues.list }, fol := e.fol.counted }) hh
      have hcounted : ∃ count due, e.fol.counted = { e.fol with beatCount := count, coastDue := due } := by
        unfold Follower.counted
        split
        · exact ⟨_, _, rfl⟩
        · exact ⟨_, _, rfl⟩
      obtain ⟨count', due', hcounted⟩ := hcounted
      refine ⟨beat, count, due, hc, hf.trans ?_⟩
      dsimp only
      rw [hcounted]
    · exact ⟨_, _, _, rfl, rfl⟩

/-- The position of a running cycle moves on without a jump (R3, R4). -/
theorem cycleFrame_advances (ho : e.cyc.owedBoundary = false) (hs : e.cyc.state = .running) {e1 : Engine} {q : Nat}
    (he : e1 = { e with cyc := e.cyc.advance e.fol.delta }) (hq : e1.cyc.p = q) : cycleFrame false e =
      if e.cyc.c ≤ q then wrapCycle e1
      else if crossedMiddle (bringBeats q e1).cyc.c e.cyc.p q = true then decideSplice (bringBeats q e1)
      else bringBeats q e1 := by
  subst hq he
  unfold cycleFrame
  rw [if_neg (by rw [ho]; exact nofun), if_pos hs]
  rfl

/-- What the cycle clock of a frame leaves: the cycle, the cues that the boundary reaches, and the follower. -/
structure Went (e : Engine) (cyc : Cycle) (p : Cue → Bool) (fol : Follower) (t : Engine) : Prop where
  cyc : t.cyc = cyc
  cues : t.cues = { e.cues with list := countedBy p 0 e.cues.list }
  fol : t.fol = fol

theorem cycleFrame_stands (ho : e.cyc.owedBoundary = false) (hs : e.cyc.state ≠ .running) :
    Went e e.cyc (fun _ => false) e.fol (cycleFrame false e) := by
  have h : cycleFrame false e = e := by
    unfold cycleFrame
    rw [if_neg (by rw [ho]; exact nofun), if_neg hs]
  rw [h]
  exact ⟨rfl, by rw [countedBy_none], rfl⟩

section
variable (ho : e.cyc.owedBoundary = false) (hs : e.cyc.state = .running) {c p : Nat} (hc : e.cyc.len = some c)
  (hp : (e.cyc.advance e.fol.delta).p = p)
include ho hs hc hp

/-- A frame that reaches no grid point (R13, R34). -/
theorem cycleFrame_between (hlt : p < c) (hb : e.cyc.beats ≤ e.cyc.beat + 1 ∨ p < (e.cyc.beat + 1) * (c / e.cyc.beats)) :
    ∃ splice, Went e { e.cyc.advance e.fol.delta with splice := splice } (fun _ => false)
      { e.fol with decisionMade := e.fol.decisionMade || decide (e.cyc.p < c / 2 ∧ c / 2 ≤ p) } (cycleFrame false e) := by
  have hlen : e.cyc.c = c := by rw [Cycle.c, hc]; rfl
  obtain ⟨e1, he1⟩ : ∃ e1 : Engine, e1 = { e with cyc := e.cyc.advance e.fol.delta } := ⟨_, rfl⟩
  have hnone : bringBeats p e1 = e1 := bringBeats_none (by
    rw [he1]
    show e.cyc.beats ≤ e.cyc.beat + 1 ∨ p < (e.cyc.beat + 1) * (e.cyc.c / e.cyc.beats)
    rw [hlen]
    exact hb)
  have hlen1 : e1.cyc.c = c := by rw [he1]; exact hlen
  rw [cycleFrame_advances ho hs he1 (q := p) (by rw [he1]; exact hp), if_neg (by omega), hnone, hlen1]
  obtain ⟨voices, splice, h, -⟩ := decides_only (crossedMiddle c e.cyc.p p) e1
  rw [h, he1]
  exact ⟨splice, rfl, by rw [countedBy_none], rfl⟩

/-- A frame that reaches one grid point (R13, R15, R32, R34). -/
theorem cycleFrame_beat (hh : e.heard = none) (hlt : p < c) (h1 : e.cyc.beat + 1 < e.cyc.beats)
    (h2 : (e.cyc.beat + 1) * (c / e.cyc.beats) ≤ p)
    (h3 : e.cyc.beats ≤ e.cyc.beat + 2 ∨ p < (e.cyc.beat + 2) * (c / e.cyc.beats)) :
    ∃ splice, Went e
      { e.cyc.advance e.fol.delta with beat := e.cyc.beat + 1, splice := splice } (fun c => c.awaits .beat)
      { e.fol.counted with
        decisionMade := e.fol.counted.decisionMade || decide (e.cyc.p < c / 2 ∧ c / 2 ≤ p) } (cycleFrame false e) := by
  have hlen : e.cyc.c = c := by rw [Cycle.c, hc]; rfl
  obtain ⟨e1, he1⟩ : ∃ e1 : Engine, e1 = { e with cyc := e.cyc.advance e.fol.delta } := ⟨_, rfl⟩
  have hbl : e1.cyc.beatLength = c / e.cyc.beats := by
    rw [he1]
    show e.cyc.c / e.cyc.beats = _
    rw [hlen]
  have hbeats : e1.cyc.beat = e.cyc.beat ∧ e1.cyc.beats = e.cyc.beats := by rw [he1]; exact ⟨rfl, rfl⟩
  have hone := bringBeats_one (e := e1) (q := p) (by rw [hbeats.1, hbeats.2]; exact h1) (by rw [hbeats.1, hbl]; exact h2)
    (by rw [hbeats.1, hbeats.2, hbl]; exact h3) (by rw [he1]; exact hh)
  rw [beatBoundary_unheard (by rw [he1]; exact hh)] at hone
  have hlen2 : (bringBeats p e1).cyc.c = c := by
    rw [hone, he1]
    exact hlen
  rw [cycleFrame_advances ho hs he1 (q := p) (by rw [he1]; exact hp), if_neg (by omega), hlen2]
  obtain ⟨voices, splice, h, -⟩ := decides_only (crossedMiddle c e.cyc.p p) (bringBeats p e1)
  rw [h, hone, he1]
  exact ⟨splice, rfl, by rw [← countList_first], rfl⟩

/-- A frame that asks for no splice leaves none. -/
theorem cycleFrame_unasked (hh : e.heard = none) (hi : e.cyc.splice = .idle) (hlt : p < c)
    (hask : ¬(decide (e.cyc.p < c / 2 ∧ c / 2 ≤ p) = true ∧ e.fol.decisionMade = false ∧ e.fol.state = .tracking
      ∧ e.fol.spliceThreshold * 65536 ≤ e.fol.err.natAbs)) : (cycleFrame false e).cyc.splice = .idle := by
  have hlen : e.cyc.c = c := by rw [Cycle.c, hc]; rfl
  obtain ⟨e1, he1⟩ : ∃ e1 : Engine, e1 = { e with cyc := e.cyc.advance e.fol.delta } := ⟨_, rfl⟩
  obtain ⟨beat, count, due, hcyc, hfol⟩ := fireBeats_leaves (e := e1) p e1.cyc.beats (by rw [he1]; exact hh)
  change (bringBeats p e1).cyc = _ at hcyc
  change (bringBeats p e1).fol = _ at hfol
  have hlen2 : (bringBeats p e1).cyc.c = c := by
    rw [hcyc, he1]
    exact hlen
  have hidle : (bringBeats p e1).cyc.splice = .idle := by
    rw [hcyc, he1]
    exact hi
  rw [cycleFrame_advances ho hs he1 (q := p) (by rw [he1]; exact hp), if_neg (by omega), hlen2]
  generalize bringBeats p e1 = e2 at hfol hidle
  obtain ⟨voices, splice, h, hkeep⟩ := decides_only (crossedMiddle c e.cyc.p p) e2
  rw [h]
  refine (hkeep ?_).trans hidle
  have hf : e2.fol = { e.fol with beatCount := count, coastDue := due } := by
    rw [hfol, he1]
  rw [hf]
  by_cases hm : crossedMiddle c e.cyc.p p = true
  · by_cases hd : e.fol.decisionMade = true
    · exact .inr (.inl hd)
    · refine .inr (.inr ?_)
      unfold spliceWanted
      exact if_neg fun hn => hask ⟨hm, by simpa using hd, hn.1, hn.2.2⟩
  · exact .inl (by simpa using hm)

/-- A frame that carries the position over the end of the cycle (R3, R14 to R16, R32). -/
theorem cycleFrame_wraps (hh : e.heard = none) (hi : e.cyc.splice = .idle) (hle : c ≤ p) :
    Went e ((e.cyc.advance e.fol.delta).wrap (slotBusy e))
      (awaitsAny (layerIxs.filter (wrapsNow { e with cyc := { e.cyc with m := (e.cyc.m + 1) % 24 } })))
      (Follower.counted { (if e.cyc.pendingBeats.isSome = true ∧ e.fol.state = .tracking then
          { e.fol with delta := trimOf e.fol (c / e.cyc.pendingBeats.getD e.cyc.beats) } else e.fol) with
        decisionMade := false })
      (cycleFrame false e) := by
  have hlen : e.cyc.c = c := by rw [Cycle.c, hc]; rfl
  obtain ⟨e1, he1⟩ : ∃ e1 : Engine, e1 = { e with cyc := e.cyc.advance e.fol.delta } := ⟨_, rfl⟩
  have hwrap : cycleFrame false e = wrapCycle e1 :=
    (cycleFrame_advances ho hs he1 (q := p) (by rw [he1]; exact hp)).trans (if_pos (by omega))
  rw [hwrap, wrapCycle_idle (by rw [he1]; exact hh) (by rw [he1]; exact hi)]
  have htrim : (let e2 : Engine := { e1 with cyc := e1.cyc.wrap (slotBusy e1), fol := { e1.fol with decisionMade := false } }
      if e1.cyc.pendingBeats.isSome = true then recomputeTrim e2 else e2) = { e with
        cyc := (e.cyc.advance e.fol.delta).wrap (slotBusy e)
        fol := { (if e.cyc.pendingBeats.isSome = true ∧ e.fol.state = .tracking then
          { e.fol with delta := trimOf e.fol (c / e.cyc.pendingBeats.getD e.cyc.beats) } else e.fol) with
            decisionMade := false } } := by
    have hbl : ((e.cyc.advance e.fol.delta).wrap (slotBusy e)).beatLength = c / e.cyc.pendingBeats.getD e.cyc.beats := by
      show e.cyc.c / e.cyc.pendingBeats.getD e.cyc.beats = _
      rw [hlen]
    have hpend : e1.cyc.pendingBeats = e.cyc.pendingBeats := by rw [he1]; rfl
    rw [hpend, he1]
    dsimp only
    have hbusy : slotBusy { e with cyc := e.cyc.advance e.fol.delta } = slotBusy e := rfl
    rw [hbusy]
    by_cases hb : e.cyc.pendingBeats.isSome = true
    · rw [if_pos hb]
      unfold recomputeTrim trimWith
      dsimp only
      rw [hbl]
      by_cases ht : e.fol.state = .tracking
      · rw [if_pos ht, if_pos ⟨hb, ht⟩]
        rfl
      · rw [if_neg ht, if_neg fun hn => ht hn.2]
    · rw [if_neg hb, if_neg fun hn => hb hn.1]
  rw [htrim, cycleBoundary_unheard (by exact hh)]
  exact ⟨rfl, rfl, rfl⟩

end

end

/-! ## The obligation's words -/

theorem Follower.counted_reset (f : Follower) (armed arming decided : Bool) :
    Follower.counted { f with armed := armed, arming := arming, decisionMade := decided } =
      { f.counted with armed := armed, arming := arming, decisionMade := decided } := by
  unfold Follower.counted
  dsimp only
  split
  · rfl
  · rfl

theorem Follower.counted_decisionMade (f : Follower) : f.counted.decisionMade = f.decisionMade := by
  unfold Follower.counted
  split <;> rfl

theorem trimOf_eq (f : Follower) (n : Nat) : trimOf f n = max (-(f.deltaMax : Int))
    (min f.deltaMax (-Int.tdiv f.err ((f.span * n : Nat) : Int))) := by
  unfold trimOf towardZeroDiv
  rw [clampInt_eq (by omega)]

section
variable {s t : State} {e : Engine}

/-- The cues after a frame that reached the boundary `p`, in the words of the obligation. -/
theorem QuietFrame.cues_list {p : Cue → Bool} {E : Engine} {cyc : Cycle} {fol : Follower} (h : QuietFrame s t e)
    (hw : Went E cyc p fol e) (hE : E.cues = s.eng.cues) (hu : ∀ c ∈ s.eng.cues.list, c.remaining ≠ 0)
    (hp : ∀ c : Cue, c.quantum = .immediate ∨ c.quantum = .onset → p c = false) :
    t.eng.cues = { s.eng.cues with list := s.eng.cues.list.map fun c =>
      if (p c || c.awaits .frame || (t.eng.heard.isSome && c.awaits .onset)) = true
      then { c with remaining := c.remaining - 1, wave := 0 } else c } := by
  have hlist := countList_frame hp t.eng.heard.isSome s.eng.cues.list
  rw [countedBy_undue hu fun c => p c || c.awaits .frame || (t.eng.heard.isSome && c.awaits .onset)] at hlist
  rw [h.cues, hw.cues, hE]
  dsimp only
  rw [hlist]

theorem QuietFrame.cues_after {p : Cue → Bool} {E : Engine} {cyc : Cycle} {fol : Follower} (h : QuietFrame s t e)
    (hw : Went E cyc p fol e) (hE : E.cues = s.eng.cues) (hu : ∀ c ∈ s.eng.cues.list, c.remaining ≠ 0)
    (hp : ∀ c : Cue, c.quantum = .immediate ∨ c.quantum = .onset → p c = false) (counted : Cue → Prop)
    [DecidablePred counted]
    (hc : ∀ c, counted c ↔ (p c || c.awaits .frame || (t.eng.heard.isSome && c.awaits .onset)) = true) :
    t.eng.cues = s.cuesAfter counted := by
  rw [h.cues_list hw hE hu hp]
  unfold State.cuesAfter
  dsimp only
  refine congrArg (fun list => ({ s.eng.cues with list := list } : CueQueue)) (List.map_congr_left fun c _ => ?_)
  exact if_congr (hc c).symm rfl rfl

/-- The follower after a frame without a detector onset, in the words of the obligation. -/
theorem QuietFrame.follows {p : Cue → Bool} {E : Engine} {cyc : Cycle} {f : Follower} {armed arming decided : Bool}
    (h : QuietFrame s t e)
    (hw : Went E cyc p { f with armed := armed, arming := arming, decisionMade := decided } e) (hn : t.eng.heard = none) :
    t.eng.fol = { f with decisionMade := decided, armed := t.eng.fol.armed, arming := t.eng.fol.arming,
                         holdCount := t.eng.fol.holdCount } := by
  refine (h.fol hn).trans ?_
  rw [hw.fol]

theorem QuietFrame.cyc_noted {p : Cue → Bool} {E : Engine} {cyc : Cycle} {fol : Follower} {c : Nat} (h : QuietFrame s t e)
    (hw : Went E cyc p fol e) (hs : cyc.state = .running) (hc : cyc.len = some c) :
    t.eng.cyc = { cyc with onset := some { p := cyc.p, len := c, beats := cyc.beats } } := by
  have hnoted : cyc.noted = some { p := cyc.p, len := c, beats := cyc.beats } := by
    rw [Cycle.noted, if_pos hs, Cycle.c, hc]
    rfl
  rw [h.cyc, hw.cyc, hnoted]

theorem slotBusy_free (h : ∀ i : SlotIx, e.slots[i].use = .free) : slotBusy e = false := by
  have hfree : ∀ i : SlotIx, (e.slots[i].use != .free) = false := fun i => by rw [h i]; rfl
  exact (congrArg₂ (· || ·) (hfree 0) (hfree 1)).trans rfl

/-- What the frame of a quiet part finds of the cycle, the cues, the layers and the follower. -/
theorem Opened.finds (h : Opened s e) : e.cyc = s.eng.cyc ∧ e.cues = s.eng.cues ∧ e.layers = s.eng.layers
    ∧ e.slots = s.eng.slots ∧ e.heard = none
    ∧ ∃ armed arming, e.fol = { s.eng.fol with armed := armed, arming := arming } := by
  obtain ⟨live, sending, clipping, reported, window, honly⟩ := h.only
  refine ⟨?_, ?_, ?_, ?_, ?_, _, _, h.fol⟩ <;> rw [honly]

end

end Sys2Proof.Machine

namespace Sys2Proof.Settled
open Sys2Proof.Machine

/-- Settles O40: the frame of a quiet part settles its voices and its memory port, runs the cycle clock, and counts the cues
of its passing and of its onset; the cases are those of the cycle clock. -/
theorem frame : Obligations.Frame := by
  intro s h cy fol sum p f
  obtain ⟨t, e, grant, hexec, hO, hG, hgrant, hQ⟩ := frame_quiet h
  obtain ⟨hcyc, hcues, hlayers, hslots, hh, armed, arming, hfol⟩ := hO.finds
  have ho : e.cyc.owedBoundary = false := by rw [hcyc]; exact h.owed.1
  have hi : e.cyc.splice = .idle := by rw [hcyc]; exact h.cycle.2
  have hcall : ∀ {p : Cue → Bool} {C : Cycle} {F : Follower}, Went e C p F (cycleFrame false e) →
      (∀ c : Cue, c.quantum = .immediate ∨ c.quantum = .onset → p c = false) → ∀ (counted : Cue → Prop) [DecidablePred counted],
      (∀ c, counted c ↔ (p c || c.awaits .frame || (t.eng.heard.isSome && c.awaits .onset)) = true) →
      t.eng.cues = s.cuesAfter counted := fun hw hp counted _ hc => hQ.cues_after hw hcues h.undue hp counted hc
  have hpass : ∀ c : Cue, (c.quantum = .immediate ∨ False ∨ (c.quantum = .onset ∧ t.eng.heard.isSome = true)) ↔
      (false || c.awaits .frame || (t.eng.heard.isSome && c.awaits .onset)) = true := fun c => by
    simp [Cue.awaits, and_comm]
  have hp : (e.cyc.advance e.fol.delta).p = p ∧ e.cyc.advance e.fol.delta = { cy with p := p, frac := f } := by
    rw [hcyc, hfol]
    exact ⟨rfl, rfl⟩
  obtain ⟨hsend, hmaster, hfade, hcross⟩ := hQ.mixer
  obtain ⟨hped, hlay, hslot, hmem, hclk, hxfer, hlink, hstore, hpow, hfree⟩ := hQ.rest
  have hqueue : t.eng.cues.nextNumber = s.eng.cues.nextNumber ∧ t.eng.cues.list.length = s.eng.cues.list.length := by
    rw [hQ.cues]
    refine ⟨hQ.queue.1, Eq.trans ?_ hQ.queue.2⟩
    dsimp only
    split
    · rw [countList_length, countList_length]
    · rw [countList_length]
  refine ⟨t, hexec, fun hs => ?_, fun c hs hc => ?_, hqueue.1, hqueue.2, hsend, hmaster, hfade, hcross, hped, hlay, hslot, hmem,
    hclk, hxfer, hlink, hstore, hpow, hfree, fun hrest g hg => ?_, fun hnone => ?_⟩
  · have hoff : e.cyc.state ≠ .running := by
      rw [hcyc]
      exact hs.elim (fun h => by rw [h]; decide) fun h => by rw [h]; decide
    have hw := cycleFrame_stands ho hoff
    have hnone : e.cyc.noted = none := if_neg hoff
    refine ⟨?_, hcall hw (fun _ _ => rfl) _ hpass, fun hn => ?_⟩
    · rw [hQ.cyc, hw.cyc, hnone, hcyc]
    · rw [hfol] at hw
      exact hQ.follows (decided := fol.decisionMade) hw hn
  · have hs' : e.cyc.state = .running := by rw [hcyc]; exact hs
    have hc' : e.cyc.len = some c := by rw [hcyc]; exact hc
    refine ⟨fun hlt hask => ?_, fun hlt hb => ?_, fun hlt h1 h2 h3 => ?_, fun hle => ?_⟩
    · rw [hQ.cyc]
      refine cycleFrame_unasked ho hs' hc' hp.1 hh hi hlt ?_
      rw [hcyc, hfol]
      exact hask
    · obtain ⟨splice, hw⟩ := cycleFrame_between ho hs' hc' hp.1 hlt (by rw [hcyc]; exact hb)
      rw [hp.2, hcyc, hfol] at hw
      have hcycle : t.eng.cyc = { cy with p := p, frac := f, splice := splice, onset := some ⟨p, c, cy.beats⟩ } :=
        hQ.cyc_noted hw hs hc
      refine ⟨by rw [hcycle], hcall hw (fun _ _ => rfl) _ hpass, fun hn => hQ.follows hw hn⟩
    · obtain ⟨splice, hw⟩ := cycleFrame_beat ho hs' hc' hp.1 hh hlt (by rw [hcyc]; exact h1) (by rw [hcyc]; exact h2)
        (by rw [hcyc]; exact h3)
      rw [Follower.counted_decisionMade, hp.2, hcyc, hfol] at hw
      have hcycle : t.eng.cyc = { cy with
          p := p, frac := f, beat := cy.beat + 1, splice := splice, onset := some ⟨p, c, cy.beats⟩ } :=
        hQ.cyc_noted hw hs hc
      refine ⟨by rw [hcycle], hcall hw (fun d hd => ?_) _ fun d => ?_, fun hn => ?_⟩
      · exact beq_eq_false_iff_ne.2 (hd.elim (fun h => by rw [h]; decide) fun h => by rw [h]; decide)
      · simp only [Cue.awaits, Bool.or_eq_true, Bool.and_eq_true, beq_iff_eq]
        tauto
      · rw [Follower.counted_reset (f := s.eng.fol) armed arming s.eng.fol.decisionMade] at hw
        exact hQ.follows hw hn
    · have hw := cycleFrame_wraps ho hs' hc' hp.1 hh hi hle
      rw [hp.2, slotBusy_free (by rw [hslots]; exact fun i => (h.slots i).1)] at hw
      have hwraps : ∀ l : LayerIx, l ∈ layerIxs.filter (wrapsNow { e with cyc := { e.cyc with m := (e.cyc.m + 1) % 24 } }) ↔
          ∃ n, s.eng.layers[l].mult = some n ∧ (cy.m + 1) % 24 % n = 0 := fun l => by
        rw [List.mem_filter, wrapsNow_iff, hlayers, hcyc]
        exact and_iff_right (mem_layerIxs l)
      generalize layerIxs.filter (wrapsNow { e with cyc := { e.cyc with m := (e.cyc.m + 1) % 24 } }) = ls at hw hwraps
      have hreach : ∀ d : Cue, awaitsAny ls d = true ↔ (d.quantum = .cycle ∨ d.quantum = .beat
          ∨ (d.quantum = .layer ∧ ∃ l, d.target = .layer l ∧ ∃ n, s.eng.layers[l].mult = some n ∧ (cy.m + 1) % 24 % n = 0)) :=
        fun d => by simp only [awaitsAny_iff, hwraps, and_comm]
      have hquiet : ∀ d : Cue, d.quantum = .immediate ∨ d.quantum = .onset → awaitsAny ls d = false := fun d hd => by
        rw [← Bool.not_eq_true, awaitsAny_iff]
        exact hd.elim (fun h => by simp [h]) fun h => by simp [h]
      have hlist := hQ.cues_list hw hcues h.undue hquiet
      rw [hcyc, hfol] at hw
      have hcount : ∀ d : Cue, (awaitsAny ls d || d.awaits .frame || (t.eng.heard.isSome && d.awaits .onset)) = true ↔
          (d.quantum = .immediate ∨ awaitsAny ls d = true ∨ (d.quantum = .onset ∧ t.eng.heard.isSome = true)) := fun d => by
        simp only [Cue.awaits, Bool.or_eq_true, Bool.and_eq_true, beq_iff_eq]
        tauto
      have hlen : cy.c = c := by rw [Cycle.c, hc]; rfl
      refine ⟨(hQ.cyc_noted hw hs hc).trans (by rw [← hlen]; rfl), fun i d hd => ?_, fun hn => ?_⟩
      · have hget : t.eng.cues.list[i]? = some (if (awaitsAny ls d || d.awaits .frame || (t.eng.heard.isSome && d.awaits .onset))
            = true then { d with remaining := d.remaining - 1, wave := 0 } else d) := by
          rw [hlist, List.getElem?_map, hd]
          rfl
        rw [hget]
        refine ⟨fun hr => congrArg some (if_pos ((hcount d).2 ?_)), fun hr => congrArg some (if_neg fun hb => hr ?_)⟩
        · exact hr.imp_right (Or.imp_left (hreach d).2)
        · exact ((hcount d).1 hb).imp_right (Or.imp_left (hreach d).1)
      · by_cases hb : cy.pendingBeats.isSome = true ∧ fol.state = .tracking
        · have hb' : s.eng.cyc.pendingBeats.isSome = true ∧ s.eng.fol.state = .tracking := hb
          rw [if_pos hb', trimOf_eq] at hw
          obtain ⟨hwc, hwq, hwf⟩ := hw
          obtain ⟨delta, hdelta⟩ : ∃ d : Int, d = max (-(s.eng.fol.deltaMax : Int)) (min s.eng.fol.deltaMax
            (-Int.tdiv s.eng.fol.err ((s.eng.fol.span * (c / cy.pendingBeats.getD cy.beats) : Nat) : Int))) := ⟨_, rfl⟩
          dsimp only at hwf
          rw [← hdelta] at hwf
          have hwf := hwf.trans (Follower.counted_reset { s.eng.fol with delta := delta } armed arming false)
          refine (hQ.follows ⟨hwc, hwq, hwf⟩ hn).trans ?_
          dsimp only
          rw [if_pos hb, hdelta]
        · have hb' : ¬(s.eng.cyc.pendingBeats.isSome = true ∧ s.eng.fol.state = .tracking) := hb
          rw [if_neg hb'] at hw
          obtain ⟨hwc, hwq, hwf⟩ := hw
          have hwf := hwf.trans (Follower.counted_reset s.eng.fol armed arming false)
          refine (hQ.follows ⟨hwc, hwq, hwf⟩ hn).trans ?_
          rw [if_neg hb]
  · rw [hgrant, hG.goes hrest g hg]
    rfl
  · obtain ⟨voices, hpick, hv⟩ := hG.picks hnone
    exact ⟨voices, grant, hpick, hgrant, hv⟩

end Sys2Proof.Settled
end

section
/-! Chain writes and reads of whole runs of positions, and the arbiter where no position reads as zeros (R95, R118, R120). -/

set_option Elab.async false

namespace Sys2Proof.Machine

/-! ## Positions -/

theorem positionsFrom_range {len : Nat} (n : Nat) {first : Nat} (h : first < len) :
    positionsFrom len n first = (List.range n).map fun i => (first + i) % len := by
  induction n generalizing first with
  | zero => rfl
  | succ n ih =>
    have hnext : positionsFrom len (n + 1) first = first :: positionsFrom len n (wrapAt len (first + 1)) := rfl
    rw [hnext, wrapAt_eq, ih (Nat.mod_lt _ (by omega)), List.range_succ_eq_map, List.map_cons, List.map_map]
    refine congrArg₂ List.cons (Nat.mod_eq_of_lt h).symm (List.map_congr_left fun i _ => ?_)
    simp only [Function.comp_apply, Nat.mod_add_mod]
    congr 1
    omega

theorem chainReads_range {e : Engine} {l : LayerIx} {key first : Nat} (n : Nat) (h : first < layerLen e l) :
    chainReads e l key first n = (List.range n).map fun i => chainRead e l key ((first + i) % layerLen e l) := by
  unfold chainReads
  rw [positionsFrom_range n h, List.map_map]
  rfl

/-! ## What a write of a chain leaves alone -/

/-- Engine `t` is `e` but for loop memory and what the slots have staged; slots with nothing staged are as they were. -/
structure Written (e t : Engine) : Prop where
  only : t = { e with slots := t.slots, mem := { e.mem with cells := t.mem.cells } }
  slots : ∀ i : SlotIx, (t.slots[i]).sameButStaging e.slots[i]
  unstaged : (∀ i : SlotIx, e.slots[i].staging = []) → t.slots = e.slots

section
variable {e t u : Engine} {l : LayerIx} {key : Nat}

theorem Written.refl (e : Engine) : Written e e := ⟨rfl, fun _ => rfl, fun _ => rfl⟩

theorem Written.trans (h : Written e t) (h' : Written t u) : Written e u := by
  refine ⟨?_, fun i => (h'.slots i).trans (h.slots i), fun hs => ?_⟩
  · have h1 := h'.only
    rw [h.only] at h1
    exact h1
  · have h1 := h.unstaged hs
    exact (h'.unstaged fun i => by rw [h1]; exact hs i).trans h1

theorem pageWrite_written (l : LayerIx) (key pos : Nat) (x : Sample) (e : Engine) : Written e (pageWrite l key pos x e) := by
  unfold pageWrite
  split
  · exact ⟨rfl, fun _ => rfl, fun _ => rfl⟩
  · exact .refl e

theorem stagedValue_none {e : Engine} (h : ∀ i : SlotIx, e.slots[i].staging = []) (l : LayerIx) (key pos : Nat) :
    stagedValue e l key pos = none := by
  have hnone : e.slots[0].staging ++ e.slots[1].staging = [] := congrArg₂ (· ++ ·) (h 0) (h 1)
  unfold stagedValue
  rw [hnone]
  rfl

theorem chainWrite_written (l : LayerIx) (key pos : Nat) (x : Sample) (e : Engine) : Written e (chainWrite l key pos x e) := by
  unfold chainWrite
  split
  next h =>
    refine ⟨rfl, fun i => ?_, fun hs => ?_⟩
    · exact eachSlot_induct (I := fun t => (t.slots[i]).sameButStaging e.slots[i]) (fun j t ht => by
        by_cases hj : j = i
        · subst hj
          have hself : (modSlot j (fun sl =>
              { sl with staging := sl.staging.flatMap (Entry.replace (layerLen e l) l key pos x) }) t).slots[j] =
              { t.slots[j] with staging := t.slots[j].staging.flatMap (Entry.replace (layerLen e l) l key pos x) } :=
            upd_self t.slots j _
          rw [hself]
          exact ht
        · have hother : (modSlot j (fun sl =>
              { sl with staging := sl.staging.flatMap (Entry.replace (layerLen e l) l key pos x) }) t).slots[i] = t.slots[i] :=
            upd_other t.slots j i _ hj
          rw [hother]
          exact ht) rfl
    · rw [stagedValue_none hs] at h
      exact nomatch h
  · exact pageWrite_written l key pos x e

theorem chainWrites_written (l : LayerIx) (key : Nat) (xs : List Sample) (pos : Nat) (e : Engine) :
    Written e (chainWrites l key pos xs e) := by
  induction xs generalizing pos e with
  | nil => exact .refl e
  | cons x rest ih => exact (chainWrite_written l key pos x e).trans (ih _ _)

theorem Written.pages (h : Written e t) (l : LayerIx) (key : Nat) :
    chainPages t l key = chainPages e l key ∧ layerLen t l = layerLen e l := by
  rw [h.only]
  exact ⟨rfl, rfl⟩

/-! ## What a write of a chain puts there, where nothing is staged -/

theorem frameAddr_inj {pages : List Nat} (hn : pages.Nodup) {p q a : Nat} (hp : frameAddr pages p = some a)
    (hq : frameAddr pages q = some a) : p = q := by
  unfold frameAddr at hp hq
  rw [Option.map_eq_some_iff] at hp hq
  obtain ⟨x, hx, hxa⟩ := hp
  obtain ⟨y, hy, hya⟩ := hq
  have hframes : Config.pageFrames = 16384 := rfl
  rw [hframes] at hx hy hxa hya
  have hxy : x = y := by omega
  subst hxy
  obtain ⟨hi, hgi⟩ := List.getElem?_eq_some_iff.1 hx
  obtain ⟨hj, hgj⟩ := List.getElem?_eq_some_iff.1 hy
  have hij := (List.Nodup.getElem_inj_iff hn).1 (hgi.trans hgj.symm)
  omega

theorem frameAddr_some {pages : List Nat} {p : Nat} (h : p < 16384 * pages.length) :
    ∃ pg ∈ pages, frameAddr pages p = some (pg * 16384 + p % 16384) := by
  have hi : p / 16384 < pages.length := by omega
  refine ⟨pages[p / 16384], List.getElem_mem hi, ?_⟩
  unfold frameAddr
  have hframes : Config.pageFrames = 16384 := rfl
  rw [hframes, List.getElem?_eq_getElem hi]
  rfl

/-- A write of one position of a chain, read back (R95). -/
theorem chainRead_write (hs : ∀ i : SlotIx, e.slots[i].staging = []) (hw : cellsWf e.mem.cells = true)
    (hn : (chainPages e l key).Nodup) {pos : Nat} (hpos : pos < 16384 * (chainPages e l key).length) (x : Sample) :
    (∀ p, chainRead (chainWrite l key pos x e) l key p = if p = pos then x else chainRead e l key p)
      ∧ ∀ a, a / 16384 ∉ chainPages e l key →
        cellRead (chainWrite l key pos x e).mem.cells a = cellRead e.mem.cells a := by
  obtain ⟨pg, hpg, haddr⟩ := frameAddr_some hpos
  have hwrite : chainWrite l key pos x e =
      { e with mem := { e.mem with cells := cellWrite e.mem.cells (pg * 16384 + pos % 16384) x } } := by
    unfold chainWrite pageWrite
    rw [stagedValue_none hs, haddr]
    rfl
  rw [hwrite]
  refine ⟨fun p => ?_, fun a ha => ?_⟩
  · have hread : ∀ cells : List (Nat × Sample), chainRead { e with mem := { e.mem with cells := cells } } l key p =
        match frameAddr (chainPages e l key) p with
        | some a => cellRead cells a
        | none => 0 := fun cells => by
      have hnone : stagedValue { e with mem := { e.mem with cells := cells } } l key p = none := stagedValue_none hs l key p
      unfold chainRead
      rw [hnone]
      rfl
    have hsame := hread e.mem.cells
    have hself : ({ e with mem := { e.mem with cells := e.mem.cells } } : Engine) = e := rfl
    rw [hself] at hsame
    rw [hread, hsame]
    by_cases hp : p = pos
    · subst hp
      rw [haddr, if_pos rfl]
      exact cellRead_write_same _ _ _ hw
    · rw [if_neg hp]
      cases ha : frameAddr (chainPages e l key) p with
      | none => rfl
      | some a =>
        refine cellRead_write_other _ _ _ (fun h => hp ?_) _
        subst h
        exact frameAddr_inj hn ha haddr
  · refine cellRead_write_other _ _ _ (fun h => ha ?_) _
    have hdiv : a / 16384 = pg := by omega
    rw [hdiv]
    exact hpg

/-- Writes of consecutive positions of a chain, read back (R95). -/
theorem chainRead_writes (xs : List Sample) {pos : Nat} (hs : ∀ i : SlotIx, e.slots[i].staging = [])
    (hw : cellsWf e.mem.cells = true) (hn : (chainPages e l key).Nodup)
    (hlen : layerLen e l ≤ 16384 * (chainPages e l key).length) (hpos : pos < layerLen e l)
    (hxs : xs.length ≤ layerLen e l) :
    (∀ i < xs.length, chainRead (chainWrites l key pos xs e) l key ((pos + i) % layerLen e l) = xs.getD i 0)
      ∧ (∀ p, (∀ i < xs.length, (pos + i) % layerLen e l ≠ p) →
        chainRead (chainWrites l key pos xs e) l key p = chainRead e l key p)
      ∧ ∀ a, a / 16384 ∉ chainPages e l key →
        cellRead (chainWrites l key pos xs e).mem.cells a = cellRead e.mem.cells a := by
  induction xs generalizing pos e with
  | nil => exact ⟨fun i hi => absurd hi (Nat.not_lt_zero i), fun _ _ => rfl, fun _ _ => rfl⟩
  | cons x rest ih =>
    obtain ⟨hread, hcells⟩ := chainRead_write hs hw hn (lt_of_lt_of_le hpos hlen) x
    have hwritten := chainWrite_written l key pos x e
    obtain ⟨hpages, hlens⟩ := hwritten.pages l key
    have hwf := chainWrite_wf l key pos x e hw
    have hstart : wrapAt (layerLen e l) (pos + 1) = (pos + 1) % layerLen e l := wrapAt_eq _ _
    have hnext : chainWrites l key pos (x :: rest) e =
        chainWrites l key ((pos + 1) % layerLen e l) rest (chainWrite l key pos x e) := by
      rw [← hstart]
      rfl
    rw [hnext]
    rw [List.length_cons] at hxs
    have hstaged : ∀ i : SlotIx, (chainWrite l key pos x e).slots[i].staging = [] := fun i => by
      rw [hwritten.unstaged hs]
      exact hs i
    generalize chainWrite l key pos x e = E at *
    obtain ⟨hin, hout, hrest⟩ := ih (e := E) (pos := (pos + 1) % layerLen e l) hstaged hwf (by rw [hpages]; exact hn)
      (by rw [hpages, hlens]; exact hlen) (by rw [hlens]; exact Nat.mod_lt _ (by omega)) (by rw [hlens]; omega)
    rw [hlens] at hin hout
    have hmod : ∀ i, ((pos + 1) % layerLen e l + i) % layerLen e l = (pos + (i + 1)) % layerLen e l := fun i => by
      rw [Nat.mod_add_mod]
      congr 1
      omega
    have hfresh : ∀ i < rest.length, ((pos + 1) % layerLen e l + i) % layerLen e l ≠ pos := fun i hi h => by
      rw [hmod] at h
      have hlt : pos + (i + 1) < 2 * layerLen e l := by omega
      by_cases hc : pos + (i + 1) < layerLen e l
      · rw [Nat.mod_eq_of_lt hc] at h
        omega
      · rw [Nat.mod_eq_sub_mod (by omega), Nat.mod_eq_of_lt (by omega)] at h
        omega
    refine ⟨fun i hi => ?_, fun p hp => ?_, fun a ha => ?_⟩
    · cases i with
      | zero =>
        have h0 : (pos + 0) % layerLen e l = pos := Nat.mod_eq_of_lt hpos
        rw [h0, hout pos hfresh, hread, if_pos rfl]
        rfl
      | succ i =>
        rw [← hmod i, hin i (by rw [List.length_cons] at hi; omega)]
        rfl
    · have hne : p ≠ pos := fun h => hp 0 (by simp) (by rw [Nat.add_zero, Nat.mod_eq_of_lt hpos, h])
      rw [hout p fun i hi => by rw [hmod]; exact hp (i + 1) (by rw [List.length_cons]; omega), hread, if_neg hne]
    · rw [hrest a (by rw [hpages]; exact ha)]
      exact hcells a ha

/-! ## The arbiter where no position reads as zeros -/

theorem arbitrate_unfed (hg : e.mem.grant = none)
    (h : ∀ l : LayerIx, e.layers[l].written = none ∨ (e.voices[l].rs = .idle ∧ e.cyc.splice = .idle)) :
    arbitrate e = { e with mem := { e.mem with grant := (arbitrate e).mem.grant } } := by
  have hfeed : ∀ l, zeroFeed l e = e := fun l => by
    have hasks : voiceAsks e l = true ∧ e.layers[l].written.isSome = true → False := fun ⟨ha, hw⟩ => by
      obtain hn | ⟨hi, -⟩ := h l
      · rw [hn] at hw
        exact nomatch hw
      · unfold voiceAsks at ha
        dsimp only at ha
        rw [hi] at ha
        simp at ha
    have hsplice : spliceAsks e l = true ∧ e.layers[l].written.isSome = true → False := fun ⟨ha, hw⟩ => by
      obtain hn | ⟨-, hi⟩ := h l
      · rw [hn] at hw
        exact nomatch hw
      · unfold spliceAsks at ha
        rw [hi] at ha
        exact nomatch ha
    have hfirst : ∀ u : Engine, (if voiceAsks e l = true ∧ e.layers[l].written.isSome = true
        ∧ readSource e l (runNext (layerLen e l) e.voices[l].main) = none then u else e) = e :=
      fun u => if_neg fun hn => hasks ⟨hn.1, hn.2.1⟩
    unfold zeroFeed
    dsimp only
    rw [hfirst]
    exact if_neg fun hn => hsplice ⟨hn.1, hn.2.1⟩
  have hall : ∀ ls : List LayerIx, ls.foldl (fun e l => zeroFeed l e) e = e := fun ls => by
    induction ls with
    | nil => rfl
    | cons l rest ih => rw [List.foldl_cons, hfeed l, ih]
  have heach : eachLayer zeroFeed e = e := hall layerIxs
  have harb : arbitrate e = grantNext e := by
    unfold arbitrate
    rw [hg]
    dsimp only
    rw [heach]
  rw [harb]
  rfl

end

end Sys2Proof.Machine

end

section
/-! GRANT_COMPLETE: what each requester's grant leaves, and the grant made next (R102 to R104, R113 to R123, R172 to
R174). -/

set_option Elab.async false

namespace Sys2Proof.Machine

/-- The engine with its memory port idle. -/
def Engine.freed (e : Engine) : Engine := { e with mem := { e.mem with grant := none } }

/-- What the completion of a grant leaves of an engine whose port is idle, and the reply it owes (R118). -/
def Grant.ends (g : Grant) (e : Engine) : Engine × Option LateReply :=
  if g.cancelled then (e, none)
  else match g.who with
    | .slot s => (drainDone g s e, none)
    | .voice l => (voiceDone g l e, none)
    | .splice l => (spliceDone g l e, none)
    | .transfer => transferDone g e
    | .filler => (fillerDone g e, none)

theorem completeGrant_ends {e : Engine} {g : Grant} (h : e.mem.grant = some g) :
    completeGrant e = (arbitrate (g.ends e.freed).1, (g.ends e.freed).2) := by
  unfold completeGrant
  rw [h]
  rfl

section
variable {e : Engine} {g : Grant}

theorem Grant.ends_cancelled (h : g.cancelled = true) : g.ends e = (e, none) := if_pos h

theorem Grant.ends_slot {i : SlotIx} (h : g.cancelled = false) (hw : g.who = .slot i) : g.ends e = (drainDone g i e, none) := by
  unfold Grant.ends
  rw [if_neg (by rw [h]; exact nofun), hw]

theorem Grant.ends_voice {l : LayerIx} (h : g.cancelled = false) (hw : g.who = .voice l) :
    g.ends e = (voiceDone g l e, none) := by
  unfold Grant.ends
  rw [if_neg (by rw [h]; exact nofun), hw]

theorem Grant.ends_splice {l : LayerIx} (h : g.cancelled = false) (hw : g.who = .splice l) :
    g.ends e = (spliceDone g l e, none) := by
  unfold Grant.ends
  rw [if_neg (by rw [h]; exact nofun), hw]

theorem Grant.ends_transfer (h : g.cancelled = false) (hw : g.who = .transfer) : g.ends e = transferDone g e := by
  unfold Grant.ends
  rw [if_neg (by rw [h]; exact nofun), hw]

theorem Grant.ends_filler (h : g.cancelled = false) (hw : g.who = .filler) : g.ends e = (fillerDone g e, none) := by
  unfold Grant.ends
  rw [if_neg (by rw [h]; exact nofun), hw]

/-! ## The port stays idle until the arbiter makes the next grant -/

theorem drainWrites_written (l : LayerIx) (key : Nat) (ws : List (Nat × Sample)) (e : Engine) :
    Written e (drainWrites l key ws e) := by
  induction ws generalizing e with
  | nil => exact .refl e
  | cons w rest ih => exact (pageWrite_written l key w.1 w.2 e).trans (ih _)

theorem Written.grant {t : Engine} (h : Written e t) : t.mem.grant = e.mem.grant := by
  rw [h.only]

theorem drainDone_grant (i : SlotIx) : (drainDone g i e).mem.grant = e.mem.grant := by
  unfold drainDone
  exact (drainWrites_written g.layer g.key _ e).grant

theorem voiceDone_grant (l : LayerIx) : (voiceDone g l e).mem.grant = e.mem.grant := by
  unfold voiceDone
  dsimp only
  split
  · rfl
  · rfl

theorem spliceDone_grant (l : LayerIx) : (spliceDone g l e).mem.grant = e.mem.grant := by
  unfold spliceDone
  split
  · rfl
  · rfl

theorem transferDone_grant : (transferDone g e).1.mem.grant = e.mem.grant := by
  unfold transferDone
  split
  · rfl
  next t _ =>
    extract_lets e1 data t1 e2 e3
    have h1 : e1.mem.grant = e.mem.grant := by
      unfold e1
      split
      · exact (chainWrites_written _ _ _ _ _).grant
      · rfl
    split
    · show e3.mem.grant = _
      unfold e3
      split
      · exact h1
      · exact h1
    · exact h1

theorem jobDone_grant (l : LayerIx) (k : FillKind) (e : Engine) : (jobDone l k e).mem.grant = e.mem.grant := by
  unfold jobDone
  rw [grantHolds_mem]
  rfl

theorem zeroFillDone_grant (l : LayerIx) (e : Engine) : (zeroFillDone l e).mem.grant = e.mem.grant := by
  obtain ⟨E, hE⟩ : ∃ E, E = jobDone l .zeroFill e := ⟨_, rfl⟩
  have h1 : E.mem.grant = e.mem.grant := by
    rw [hE]
    exact jobDone_grant l .zeroFill e
  have hprimes : ∀ E' : Engine, (if E'.voices[l].rs = .priming then beginPriming l E' else E').mem.grant = E'.mem.grant :=
    fun E' => by
      split
      · rfl
      · rfl
  have hjob : (if E.layers[l].written.isSome = true ∧ E.layers[l].slot = none then addJob l .finishCopy E else E).mem.grant
      = E.mem.grant := by
    split
    · rfl
    · rfl
  unfold zeroFillDone
  rw [← hE]
  exact (hprimes _).trans (hjob.trans h1)

theorem fillerDone_grant : (fillerDone g e).mem.grant = e.mem.grant := by
  have hwrites : ∀ xs, (chainWrites g.layer g.key g.first xs e).mem.grant = e.mem.grant :=
    fun xs => (chainWrites_written _ _ _ _ _).grant
  unfold fillerDone
  split
  · rfl
  next j rest _ =>
    split
    · split
      · dsimp only
        generalize (if (chainKey e.layers[j.layer].undo).isSome = true then e.mem.work.take g.count
          else List.replicate g.count 0) = xs
        have h := hwrites xs
        generalize chainWrites g.layer g.key g.first xs e = E at h ⊢
        split
        · split
          · rw [jobDone_grant]
            exact h
          · exact h
        · exact h
      · rfl
    · dsimp only
      have h := hwrites (List.replicate g.count 0)
      generalize chainWrites g.layer g.key g.first (List.replicate g.count 0) e = E at h ⊢
      split
      · exact (zeroFillDone_grant _ _).trans h
      · exact h

theorem Grant.ends_grant : (g.ends e).1.mem.grant = e.mem.grant := by
  unfold Grant.ends
  split
  · rfl
  · split
    · exact drainDone_grant _
    · exact voiceDone_grant _
    · exact spliceDone_grant _
    · exact transferDone_grant
    · exact fillerDone_grant

end

/-! ## The event -/

section
variable {s : State} {g : Grant} (hp : s.powered = true) (hg : s.eng.mem.grant = some g)
include hp hg

theorem grantComplete_waits (hl : 0 < g.left) : exec .grantComplete s = .next s := by
  have hdue : grantDue s.eng = false := by
    unfold grantDue
    rw [hg]
    exact beq_eq_false_iff_ne.2 (by omega)
  refine (stateRow_on hp settleGrant : exec .grantComplete s = _).trans (congrArg _ ?_)
  unfold settleGrant
  exact if_neg (by rw [hdue]; exact nofun)

theorem grantComplete_ends (hl : g.left = 0) : exec .grantComplete s =
    .next (match (g.ends s.eng.freed).2 with
      | some r => (s.giving (arbitrate (g.ends s.eng.freed).1)).reply r.kind r.tag { status := .ok, data := r.data }
      | none => s.giving (arbitrate (g.ends s.eng.freed).1)) := by
  have hdue : grantDue s.eng = true := by
    unfold grantDue
    rw [hg]
    exact beq_iff_eq.2 hl
  refine (stateRow_on hp settleGrant : exec .grantComplete s = _).trans (congrArg _ ?_)
  unfold settleGrant
  rw [if_pos hdue, completeGrant_ends hg]
  rfl

/-- A grant that owes no reply and leaves the engine `X`, no position of which reads as zeros. -/
theorem grantComplete_gives (hl : g.left = 0) {X : Engine} (h : g.ends s.eng.freed = (X, none))
    (hw : ∀ l : LayerIx, X.layers[l].written = none ∨ (X.voices[l].rs = .idle ∧ X.cyc.splice = .idle)) :
    ∃ o, exec .grantComplete s = .next (s.giving { X with mem := { X.mem with grant := o } }) := by
  have hX : X.mem.grant = none := by
    have hend := Grant.ends_grant (g := g) (e := s.eng.freed)
    rw [h] at hend
    exact hend
  refine ⟨(arbitrate X).mem.grant, ?_⟩
  rw [grantComplete_ends hp hg hl, h, ← arbitrate_unfed hX hw]

/-- The last grant of a transfer, which leaves the engine `X` and the reply `r`. -/
theorem grantComplete_replies (hl : g.left = 0) {X : Engine} {r : LateReply} (h : g.ends s.eng.freed = (X, some r))
    (hw : ∀ l : LayerIx, X.layers[l].written = none) :
    ∃ o, exec .grantComplete s = .next ((s.giving { X with mem := { X.mem with grant := o } }).reply r.kind r.tag
      { status := .ok, data := r.data }) := by
  have hX : X.mem.grant = none := by
    have hend := Grant.ends_grant (g := g) (e := s.eng.freed)
    rw [h] at hend
    exact hend
  refine ⟨(arbitrate X).mem.grant, ?_⟩
  rw [grantComplete_ends hp hg hl, h, ← arbitrate_unfed hX fun l => .inl (hw l)]

end

/-! ## What each grant leaves -/

section
variable {e : Engine} {g : Grant}

theorem runDeliver_next {len : Nat} {r : Run} (xs : List Sample) (h : 0 < len) :
    runDeliver len ((r.base + r.frames.length) % len) xs r = { r with frames := r.frames ++ xs } := by
  have hnext : runNext len r = (r.base + r.frames.length) % len := wrapAt_eq _ _
  have hzero : ahead len ((r.base + r.frames.length) % len) ((r.base + r.frames.length) % len) = 0 := by
    unfold ahead
    rw [if_neg (by omega), Nat.mod_mod, Nat.add_sub_cancel_left, Nat.mod_self]
  unfold runDeliver
  rw [hnext, hzero]
  rfl

theorem voiceDone_gives {l : LayerIx} (hi : e.voices[l].rs ≠ .idle) (hc : e.voices[l].clearing = false)
    (hlen : 0 < layerLen e l)
    (hf : g.first = (e.voices[l].main.base + e.voices[l].main.frames.length) % layerLen e l) :
    ∃ flag, voiceDone g l e = { e with voices := upd e.voices l fun v => { v with
      flag := flag
      main := { v.main with frames := v.main.frames ++ chainReads e g.layer g.key g.first g.count } } } := by
  have hon : ¬(e.voices[l].rs = .idle ∨ e.voices[l].clearing = true) := by
    rw [not_or, hc]
    exact ⟨hi, nofun⟩
  obtain ⟨xs, hxs⟩ : ∃ xs, xs = chainReads e g.layer g.key g.first g.count := ⟨_, rfl⟩
  have hrun := runDeliver_next (r := e.voices[l].main) xs hlen
  rw [← hf] at hrun
  refine ⟨(updFlag (layerLen e l) e.cyc.splice.crossing
    { e.voices[l] with main := { e.voices[l].main with frames := e.voices[l].main.frames ++ xs } }).flag, ?_⟩
  rw [← hxs]
  unfold voiceDone
  dsimp only
  rw [if_neg hon, ← hxs]
  unfold modVoice
  refine congrArg (fun voices => ({ e with voices := voices } : Engine)) ?_
  refine upd_congr _ _ _ _ ?_
  have hrun' : runDeliver (layerLen e l) g.first xs e.voices[l.val].main =
    { e.voices[l.val].main with frames := e.voices[l.val].main.frames ++ xs } := hrun
  rw [hrun']
  rfl

end

end Sys2Proof.Machine

end

section
/-! GRANT_COMPLETE: drains, splice fills, transfers and the page filler, and the obligation (R102, R115, R116, R122, R172,
R173). -/

set_option Elab.async false

namespace Sys2Proof.Machine

section
variable {e : Engine} {g : Grant}

theorem spliceDone_gives {l : LayerIx} {sp : SpliceRec} (hs : e.cyc.splice = .fetching sp) (hl : l ∈ sp.voices)
    (hlen : 0 < layerLen e l)
    (hf : g.first = (e.voices[l].spl.base + e.voices[l].spl.frames.length) % layerLen e l) :
    spliceDone g l e = { e with voices := upd e.voices l fun x => { x with
      spl := { x.spl with frames := x.spl.frames ++ chainReads e g.layer g.key g.first g.count } } } := by
  have huse : streamInUse e l = true := by
    unfold streamInUse
    rw [hs]
    exact decide_eq_true hl
  have hcross : e.cyc.splice.crossing = false := by rw [hs]; rfl
  have hrun := runDeliver_next (r := e.voices[l].spl) (chainReads e g.layer g.key g.first g.count) hlen
  rw [← hf] at hrun
  unfold spliceDone
  rw [if_pos huse]
  dsimp only
  unfold modVoice
  refine congrArg (fun voices => ({ e with voices := voices } : Engine)) (upd_congr _ _ _ _ ?_)
  rw [hcross]
  refine (if_neg nofun).trans ?_
  exact congrArg (fun run => ({ e.voices[l] with spl := run } : Voice)) hrun

/-- Where the current chain of a layer begins with the page, its pages are those of the chain known by it (entry 27). -/
theorem chainPages_cur {l : LayerIx} {key : Nat} {pages : List Nat} (hcur : e.layers[l].cur = some pages)
    (hkey : pages.head? = some key) : chainPages e l key = pages := by
  have hk : chainKey e.layers[l].cur = some key := by
    rw [hcur]
    cases pages with
    | nil => exact nomatch hkey
    | cons p more => exact congrArg some (Option.some.inj hkey)
  unfold chainPages
  dsimp only
  rw [if_pos hk, hcur]
  rfl

/-- A drain of one staged frame (R102). -/
theorem drainDone_one {i : SlotIx} {pos pg : Nat} {x : Sample} {rest : List Entry} {pages : List Nat} (hc : g.count = 1)
    (hs : e.slots[i].staging = { layer := g.layer, key := g.key, body := .data pos x } :: rest)
    (hcur : e.layers[g.layer].cur = some pages) (hkey : pages.head? = some g.key) (hpg : pages[pos / 16384]? = some pg) :
    drainDone g i e = { e with
      slots := upd e.slots i fun old => { old with staging := rest }
      mem := { e.mem with cells := cellWrite e.mem.cells (pg * 16384 + pos % 16384) x } } := by
  have hrun : (headRun e e.slots[i]).take g.count = [(pos, x)] := by
    have hhead : ∃ more, headRun e e.slots[i] = (pos, x) :: more := by
      unfold headRun
      rw [hs]
      dsimp only
      rw [List.take_succ_cons, List.takeWhile_cons_of_pos (by simp), List.flatMap_cons]
      exact ⟨_, rfl⟩
    obtain ⟨more, hmore⟩ := hhead
    rw [hmore, hc]
    rfl
  have hchain : chainPages e g.layer g.key = pages := chainPages_cur hcur hkey
  have haddr : frameAddr pages pos = some (pg * 16384 + pos % 16384) := by
    unfold frameAddr
    have hframes : Config.pageFrames = 16384 := rfl
    rw [hframes, hpg]
    rfl
  have hwrites : drainWrites g.layer g.key [(pos, x)] e =
      { e with mem := { e.mem with cells := cellWrite e.mem.cells (pg * 16384 + pos % 16384) x } } := by
    show pageWrite g.layer g.key pos x e = _
    unfold pageWrite
    rw [hchain, haddr]
  have hdrop : dropPositions e 1 e.slots[i].staging = rest := by
    rw [hs]
    show dropPositions e 0 rest = rest
    cases rest with
    | nil => rfl
    | cons en more => rfl
  unfold drainDone
  rw [hrun]
  dsimp only
  rw [hwrites]
  unfold modSlot
  exact congrArg (fun slots => ({ e with
    slots := slots
    mem := { e.mem with cells := cellWrite e.mem.cells (pg * 16384 + pos % 16384) x } } : Engine))
    (upd_congr e.slots i _ _ (congrArg (fun staging => ({ e.slots[i] with staging := staging } : Slot)) hdrop))

/-- A transfer ends: its hold goes when a release waited (R174). -/
def Transfer.ended (t : Transfer) (layers : Vector Layer 16) : Vector Layer 16 :=
  if t.release = true then upd layers t.layer (fun r => { r with hold := .none }) else layers

theorem transferDone_read {t : Transfer} (hx : e.xfer = some t) (hw : t.write = false) :
    transferDone g e =
      if t.count ≤ t.moved + g.count then
        ({ e with xfer := none, layers := t.ended e.layers },
          some { kind := 19, tag := t.tag
                 data := [.raw (sampleBytes (t.data ++ chainReads e g.layer g.key g.first g.count))] })
      else ({ e with xfer := some { t with
        moved := t.moved + g.count, data := t.data ++ chainReads e g.layer g.key g.first g.count } }, none) := by
  unfold transferDone Transfer.ended
  rw [hx]
  dsimp only
  simp only [hw, Bool.false_eq_true, if_false]
  split
  · split
    · rfl
    · rfl
  · rfl

theorem transferDone_write {t : Transfer} (hx : e.xfer = some t) (hw : t.write = true) {E : Engine}
    (hE : E = chainWrites g.layer g.key g.first ((t.data.drop t.moved).take g.count) e) :
    transferDone g e =
      if t.count ≤ t.moved + g.count then
        ({ E with xfer := none, layers := t.ended E.layers }, some { kind := 20, tag := t.tag, data := [] })
      else ({ E with xfer := some { t with moved := t.moved + g.count } }, none) := by
  unfold transferDone Transfer.ended
  rw [hx]
  dsimp only
  simp only [hw, if_true]
  rw [← hE]
  split
  · split
    · rfl
    · rfl
  · rfl

end

end Sys2Proof.Machine

end

section
/-! GRANT_COMPLETE: the page filler's grants, and the obligation (R95, R115, R116, R130). -/

set_option Elab.async false

namespace Sys2Proof.Machine

section
variable {e : Engine} {g : Grant}

theorem fillerDone_reads {j : Job} {jobs : List Job} (hj : e.mem.jobs = j :: jobs) (hk : j.kind = .finishCopy)
    (hw : g.write = false) :
    fillerDone g e = { e with mem := { e.mem with work := chainReads e g.layer g.key g.first g.count } } := by
  unfold fillerDone
  rw [hj]
  dsimp only
  rw [hk]
  dsimp only
  rw [if_neg (by rw [hw]; exact nofun), hj]

theorem fillerDone_copies {j : Job} {jobs : List Job} {a w : Nat} (hj : e.mem.jobs = j :: jobs) (hk : j.kind = .finishCopy)
    (hw : g.write = true) (hwritten : e.layers[j.layer].written = some (a, w)) {xs : List Sample} {E : Engine}
    (hxs : xs = if (chainKey e.layers[j.layer].undo).isSome = true then e.mem.work.take g.count else List.replicate g.count 0)
    (hE : E = chainWrites g.layer g.key g.first xs e) :
    fillerDone g e =
      if layerLen e j.layer ≤ w + g.count then
        jobDone j.layer .finishCopy (modLayer j.layer (fun r => { r with written := none })
          { E with mem := { E.mem with work := [] } })
      else modLayer j.layer (fun r => { r with written := some (a, w + g.count) }) { E with mem := { E.mem with work := [] } } := by
  have hwr : Written e E := by
    rw [hE]
    exact chainWrites_written _ _ _ _ _
  have hlayers : E.layers = e.layers := by rw [hwr.only]
  have hlen : layerLen { E with mem := { E.mem with work := [] } } j.layer = layerLen e j.layer :=
    layerLen_of (by dsimp only; rw [hlayers]) (by dsimp only; rw [hwr.only])
  have hsome : E.layers[j.layer].written = some (a, w) := by rw [hlayers]; exact hwritten
  unfold fillerDone
  rw [hj]
  dsimp only
  rw [hk]
  dsimp only
  rw [if_pos hw, ← hxs, ← hE, hsome]
  dsimp only
  rw [hlen]

theorem fillerDone_zeros {j : Job} {jobs : List Job} (hj : e.mem.jobs = j :: jobs) (hk : j.kind = .zeroFill)
    {E : Engine} (hE : E = chainWrites g.layer g.key g.first (List.replicate g.count 0) e) :
    fillerDone g e =
      if layerLen e j.layer ≤ j.done + g.count then zeroFillDone j.layer E
      else { E with mem := { E.mem with jobs := { j with done := j.done + g.count } :: jobs } } := by
  have hwr : Written e E := by
    rw [hE]
    exact chainWrites_written _ _ _ _ _
  have hlen : layerLen E j.layer = layerLen e j.layer := (hwr.pages j.layer g.key).2
  unfold fillerDone
  rw [hj]
  dsimp only
  rw [hk]
  dsimp only
  rw [← hE, hlen]

/-- The end of a ZERO_FILL of a layer without a written range (R116, R130). -/
theorem zeroFillDone_gives {l : LayerIx} {n : Nat} (hw : e.layers[l].written = none) (hm : e.layers[l].mult = some n) :
    zeroFillDone l e =
      (let e2 := Machine.grantHolds (({ e with mem := { e.mem with jobs := e.mem.jobs.drop 1, work := [] } } : Engine).reports
        (.fillDone l .zeroFill))
      let i := e.position l
      let start := if e.cyc.state = .running then (i + 256) % e.len l else i
      { e2 with voices := upd e.voices l fun v => if v.rs = .priming then v.primed i start else v }) := by
  obtain ⟨E, hE⟩ : ∃ E : Engine, E = { e with mem := { e.mem with jobs := e.mem.jobs.drop 1, work := [] } } := ⟨_, rfl⟩
  have hjob : jobDone l .zeroFill e = Machine.grantHolds (E.reports (.fillDone l .zeroFill)) := by
    rw [hE]
    rfl
  have hsame : (E.reports (.fillDone l .zeroFill)).layers = e.layers := by rw [hE]; rfl
  have hhold := grantHolds_sameButHold (e := E.reports (.fillDone l .zeroFill)) l
  rw [hsame] at hhold
  have hcyc : (Machine.grantHolds (E.reports (.fillDone l .zeroFill))).cyc = e.cyc := by
    rw [grantHolds_cyc, hE]
    rfl
  have hvoices : (Machine.grantHolds (E.reports (.fillDone l .zeroFill))).voices = e.voices := by
    rw [grantHolds_voices, hE]
    rfl
  unfold zeroFillDone
  rw [hjob]
  dsimp only
  rw [← hE]
  generalize Machine.grantHolds (E.reports (.fillDone l .zeroFill)) = E2 at hhold hcyc hvoices ⊢
  have hnone : E2.layers[l].written = none := (congrArg Layer.written hhold).trans hw
  have hmult : E2.layers[l].mult = some n := (congrArg Layer.mult hhold).trans hm
  have hoff : (if E2.layers[l].written.isSome = true ∧ E2.layers[l].slot = none then addJob l .finishCopy E2 else E2) = E2 :=
    if_neg fun h => by rw [hnone] at h; exact nomatch h.1
  have hpos : (layerPos E2 l).getD 0 = e.position l := by
    unfold layerPos Engine.position
    rw [hmult, hcyc, hm]
    rfl
  have hlens : layerLen E2 l = e.len l := by
    rw [layerLen_eq]
    unfold Engine.len
    rw [hmult, hcyc, hm]
  rw [hoff]
  by_cases hr : e.voices[l].rs = .priming
  · rw [if_pos (by rw [hvoices]; exact hr)]
    have hstate : E2.cyc.state = e.cyc.state := by rw [hcyc]
    unfold beginPriming modVoice
    dsimp only
    rw [hpos, hlens, hstate, hvoices, wrapAt_eq]
    refine congrArg (fun voices => ({ E2 with voices := voices } : Engine)) (upd_congr _ _ _ _ ?_)
    exact (if_pos hr).symm
  · rw [if_neg (by rw [hvoices]; exact hr)]
    have hself : upd e.voices l (fun v => if v.rs = .priming then v.primed (e.position l)
        (if e.cyc.state = .running then (e.position l + 256) % e.len l else e.position l) else v) = E2.voices :=
      (upd_id e.voices l (if_neg hr)).trans hvoices.symm
    rw [hself]

/-- Two records hold the same chains, with as many frames in them. -/
def Layer.sameChains (a b : Layer) : Prop := a.cur = b.cur ∧ a.undo = b.undo ∧ a.redo = b.redo ∧ a.mult = b.mult

theorem upd_sameChains {f : Layer → Layer} (hf : ∀ r, (f r).sameChains r) (layers : Vector Layer 16) (l k : LayerIx) :
    ((upd layers l f)[k]).sameChains layers[k] := by
  by_cases h : l = k
  · subst h
    have hself : (upd layers l f)[l] = f layers[l] := upd_self layers l f
    rw [hself]
    exact hf _
  · have hother : (upd layers l f)[k] = layers[k] := upd_other layers l k f h
    rw [hother]
    exact ⟨rfl, rfl, rfl, rfl⟩

theorem Layer.sameButHold.chains {a b : Layer} (h : a.sameButHold b) : a.sameChains b := by
  unfold Layer.sameButHold at h
  rw [← h]
  exact ⟨rfl, rfl, rfl, rfl⟩

theorem Layer.sameButHold.written {a b : Layer} (h : a.sameButHold b) : a.written = b.written := by
  unfold Layer.sameButHold at h
  rw [← h]

theorem Layer.sameChains.trans {a b c : Layer} (h : a.sameChains b) (h' : b.sameChains c) : a.sameChains c :=
  ⟨h.1.trans h'.1, h.2.1.trans h'.2.1, h.2.2.1.trans h'.2.2.1, h.2.2.2.trans h'.2.2.2⟩

/-- A read of a chain depends on the chains and the length of its layer, on the slots and on loop memory. -/
theorem chainRead_congr {t : Engine} {l : LayerIx} (h : (t.layers[l]).sameChains e.layers[l]) (hcyc : t.cyc = e.cyc)
    (hslots : t.slots = e.slots) (hcells : t.mem.cells = e.mem.cells) (key pos : Nat) :
    chainRead t l key pos = chainRead e l key pos := by
  obtain ⟨hcur, hundo, hredo, hmult⟩ := h
  have hlen : layerLen t l = layerLen e l := layerLen_of hmult hcyc
  unfold chainRead stagedValue chainPages
  dsimp only
  rw [hcur, hundo, hredo, hlen, hslots, hcells]

theorem Transfer.ended_layer (t : Transfer) (layers : Vector Layer 16) (l : LayerIx) :
    ((t.ended layers)[l]).sameButHold layers[l] := by
  unfold Transfer.ended
  split
  · by_cases h : t.layer = l
    · subst h
      have hself : (upd layers t.layer (fun r => { r with hold := .none }))[t.layer] = { layers[t.layer] with hold := .none } :=
        upd_self layers t.layer _
      rw [hself]
      rfl
    · have hother : (upd layers t.layer (fun r => { r with hold := .none }))[l] = layers[l] := upd_other layers t.layer l _ h
      rw [hother]
      rfl
  · rfl

end

end Sys2Proof.Machine

namespace Sys2Proof.Settled
open Sys2Proof.Machine

section
variable {s : State} {g : Grant} (hp : s.powered = true) (hg : s.eng.mem.grant = some g) (hl : g.left = 0)
include hp hg hl

theorem grantComplete_picks : ∃ t, exec .grantComplete s = .next t ∧ t.eng.picks t.eng.mem.grant := by
  have hX : (g.ends s.eng.freed).1.mem.grant = none := Grant.ends_grant
  have hpick := arbitrate_picks hX
  refine ⟨_, grantComplete_ends hp hg hl, ?_⟩
  generalize arbitrate (g.ends s.eng.freed).1 = X at hpick ⊢
  generalize (g.ends s.eng.freed).2 = r
  cases r <;> exact hpick

end

end Sys2Proof.Settled
end

section
/-! GRANT_COMPLETE: the clauses of the obligation (R102 to R104, R113 to R123, R172 to R174). -/

set_option Elab.async false

namespace Sys2Proof.Settled
open Sys2Proof.Machine

theorem chainReads_freed {e : Engine} {l : LayerIx} {key first : Nat} (n : Nat) (h : first < e.len l) :
    chainReads e.freed l key first n = (List.range n).map fun i => chainRead e l key ((first + i) % e.len l) :=
  chainReads_range (e := e.freed) n h

section
variable {s : State} {g : Grant} (hp : s.powered = true) (hg : s.eng.mem.grant = some g) (hl : g.left = 0)
  (hc : g.cancelled = false)
include hp hg hl hc

theorem grantComplete_copyReads {j : Job} {jobs : List Job} (hj : s.eng.mem.jobs = j :: jobs) (hk : j.kind = .finishCopy)
    (hwho : g.who = .filler)
    (hw : ∀ l : LayerIx, s.eng.layers[l].written = none ∨ (s.eng.voices[l].rs = .idle ∧ s.eng.cyc.splice = .idle))
    (hwrite : g.write = false) (hf : g.first < s.eng.len g.layer) :
    ∃ t, exec .grantComplete s = .next t
      ∧ t = s.giving { s.eng with mem := { s.eng.mem with
          grant := t.eng.mem.grant
          work := (List.range g.count).map fun i =>
            chainRead s.eng g.layer g.key ((g.first + i) % s.eng.len g.layer) } } := by
  have hends := (Grant.ends_filler (e := s.eng.freed) hc hwho).trans
    (congrArg (·, none) (fillerDone_reads (e := s.eng.freed) hj hk hwrite))
  obtain ⟨o, h⟩ := grantComplete_gives hp hg hl hends hw
  rw [chainReads_freed g.count hf] at h
  exact ⟨_, h, rfl⟩

theorem grantComplete_copyWrites {j : Job} {jobs : List Job} {a w : Nat} (hj : s.eng.mem.jobs = j :: jobs)
    (hk : j.kind = .finishCopy) (hwho : g.who = .filler) (hwritten : s.eng.layers[j.layer].written = some (a, w))
    (hw : ∀ l : LayerIx, l ≠ j.layer → s.eng.layers[l].written = none) (hv : s.eng.voices[j.layer].rs = .idle)
    (hs : s.eng.cyc.splice = .idle) (hlayer : g.layer = j.layer) (hwrite : g.write = true)
    (hf : g.first < s.eng.len g.layer) {xs : List Sample}
    (hxs : xs = if (chainKey s.eng.layers[j.layer].undo).isSome = true then s.eng.mem.work.take g.count
      else List.replicate g.count 0) :
    ∃ t, exec .grantComplete s = .next t
      ∧ (∀ i : SlotIx, (t.eng.slots[i]).sameButStaging s.eng.slots[i])
      ∧ ((∀ i : SlotIx, s.eng.slots[i].staging = []) → t.eng.slots = s.eng.slots)
      ∧ (s.eng.layers[j.layer].cur.bind List.head? = some g.key → (∀ i : SlotIx, s.eng.slots[i].staging = []) →
        cellsWf s.eng.mem.cells = true → g.count ≤ s.eng.len g.layer → xs.length = g.count →
        (s.eng.layers[j.layer].cur.getD []).Nodup →
        s.eng.len g.layer ≤ 16384 * (s.eng.layers[j.layer].cur.getD []).length →
        ∀ i < g.count, chainRead t.eng g.layer g.key ((g.first + i) % s.eng.len g.layer) = xs.getD i 0)
      ∧ (w + g.count < s.eng.len g.layer →
        t = s.giving { s.eng with
          slots := t.eng.slots
          layers := upd s.eng.layers j.layer fun r => { r with written := some (a, w + g.count) }
          mem := { s.eng.mem with cells := t.eng.mem.cells, grant := t.eng.mem.grant, work := [] } })
      ∧ (s.eng.len g.layer ≤ w + g.count →
        let e2 : Engine := { s.eng with
          slots := t.eng.slots
          layers := upd s.eng.layers j.layer fun r => { r with written := none }
          mem := { s.eng.mem with cells := t.eng.mem.cells, grant := none, work := [], jobs := jobs } }
        let e3 := Machine.grantHolds (e2.reports (.fillDone j.layer .finishCopy))
        t = s.giving { e3 with mem := { e3.mem with grant := t.eng.mem.grant } }) := by
  obtain ⟨E, hE⟩ : ∃ E, E = chainWrites g.layer g.key g.first xs s.eng.freed := ⟨_, rfl⟩
  have hwr : Written s.eng.freed E := by
    rw [hE]
    exact chainWrites_written _ _ _ _ _
  have hends := (Grant.ends_filler (e := s.eng.freed) hc hwho).trans
    (congrArg (·, none) (fillerDone_copies (e := s.eng.freed) hj hk hwrite hwritten hxs hE))
  have hread : ∀ t : Engine, (t.layers[g.layer]).sameChains E.layers[g.layer] → t.cyc = E.cyc → t.slots = E.slots →
      t.mem.cells = E.mem.cells →
      s.eng.layers[j.layer].cur.bind List.head? = some g.key → (∀ i : SlotIx, s.eng.slots[i].staging = []) →
      cellsWf s.eng.mem.cells = true → g.count ≤ s.eng.len g.layer → xs.length = g.count →
      (s.eng.layers[j.layer].cur.getD []).Nodup →
      s.eng.len g.layer ≤ 16384 * (s.eng.layers[j.layer].cur.getD []).length →
      ∀ i < g.count, chainRead t g.layer g.key ((g.first + i) % s.eng.len g.layer) = xs.getD i 0 :=
    fun t h1 h2 h3 h4 hkey hst hwf hcount hxl hn hlen i hi => by
      obtain ⟨pages, hpages⟩ : ∃ pages, s.eng.layers[j.layer].cur = some pages := by
        cases hcur : s.eng.layers[j.layer].cur with
        | none =>
          rw [hcur] at hkey
          exact nomatch hkey
        | some pages => exact ⟨pages, rfl⟩
      rw [hpages] at hkey hn hlen
      have hchain : chainPages s.eng.freed g.layer g.key = pages :=
        chainPages_cur (by rw [hlayer]; exact hpages) hkey
      have hwrites := (chainRead_writes (e := s.eng.freed) (l := g.layer) (key := g.key) xs hst hwf (by rw [hchain]; exact hn)
        (by rw [hchain]; exact hlen) hf (by rw [hxl]; exact hcount)).1 i (by rw [hxl]; exact hi)
      rw [chainRead_congr h1 h2 h3 h4, hE]
      exact hwrites
  have hlen : layerLen s.eng.freed j.layer = s.eng.len g.layer := by rw [hlayer]; rfl
  rw [hlen] at hends
  have hsl : ∀ i : SlotIx, (E.slots[i]).sameButStaging s.eng.slots[i] := hwr.slots
  have hun : (∀ i : SlotIx, s.eng.slots[i].staging = []) → E.slots = s.eng.slots := hwr.unstaged
  obtain ⟨slots, cells, hform⟩ : ∃ slots cells,
      E = { s.eng.freed with slots := slots, mem := { s.eng.freed.mem with cells := cells } } := ⟨_, _, hwr.only⟩
  clear hwr hE
  subst hform
  have hfed : ∀ (r : Option (Nat × Nat)) (l : LayerIx),
      (upd s.eng.layers j.layer fun old => { old with written := r })[l].written = none
        ∨ (s.eng.voices[l].rs = .idle ∧ s.eng.cyc.splice = .idle) := fun r l => by
    by_cases hlj : j.layer = l
    · rw [← hlj]
      exact .inr ⟨hv, hs⟩
    · have hother : (upd s.eng.layers j.layer fun old => { old with written := r })[l] = s.eng.layers[l] :=
        upd_other _ _ _ _ hlj
      rw [hother]
      exact .inl (hw l (Ne.symm hlj))
  have hkept : ∀ (r : Option (Nat × Nat)),
      ((upd s.eng.layers j.layer fun old => { old with written := r })[g.layer]).sameChains s.eng.layers[g.layer] :=
    fun r => upd_sameChains (f := fun old => { old with written := r }) (fun _ => ⟨rfl, rfl, rfl, rfl⟩) _ _ _
  by_cases hdone : s.eng.len g.layer ≤ w + g.count
  · rw [if_pos hdone] at hends
    obtain ⟨X, hX⟩ : ∃ X : Engine, X = { s.eng with
      slots := slots
      layers := upd s.eng.layers j.layer fun r => { r with written := none }
      mem := { s.eng.mem with cells := cells, grant := none, work := [], jobs := jobs } } := ⟨_, rfl⟩
    have hjob : jobDone j.layer .finishCopy (modLayer j.layer (fun r => { r with written := none }) { s.eng.freed with
        slots := slots, mem := { s.eng.freed.mem with cells := cells, work := [] } }) =
        Machine.grantHolds (X.reports (.fillDone j.layer .finishCopy)) := by
      have hdrop : s.eng.mem.jobs.drop 1 = jobs := by rw [hj]; rfl
      rw [hX, ← hdrop]
      rfl
    obtain ⟨E3, hE3⟩ : ∃ E3, E3 = Machine.grantHolds (X.reports (.fillDone j.layer .finishCopy)) := ⟨_, rfl⟩
    have hhold : ∀ l : LayerIx, (E3.layers[l]).sameButHold X.layers[l] := fun l => by
      rw [hE3]
      exact grantHolds_sameButHold _ l
    have hsame : E3.voices = s.eng.voices ∧ E3.cyc = s.eng.cyc ∧ E3.slots = slots
        ∧ E3.mem = { s.eng.mem with cells := cells, grant := none, work := [], jobs := jobs } := by
      rw [hE3]
      refine ⟨(grantHolds_voices _).trans ?_, (grantHolds_cyc _).trans ?_, (grantHolds_slots _).trans ?_, (grantHolds_mem _).trans ?_⟩
        <;> rw [hX] <;> rfl
    obtain ⟨hvoices, hcyc, hslots, hmem⟩ := hsame
    rw [← hE3] at hjob
    have hends := hends.trans (congrArg (·, none) hjob)
    rw [hX] at hhold
    obtain ⟨o, h⟩ := grantComplete_gives hp hg hl hends (fun l => by
      have hwritten := (hhold l).written
      rw [hvoices, hcyc, hwritten]
      exact hfed none l)
    obtain ⟨t, hT⟩ : ∃ t, t = s.giving { E3 with mem := { E3.mem with grant := o } } := ⟨_, rfl⟩
    rw [← hT] at h
    have htslots : t.eng.slots = slots := by rw [hT]; exact hslots
    have htcyc : t.eng.cyc = s.eng.cyc := by rw [hT]; exact hcyc
    have htcells : t.eng.mem.cells = cells := by
      rw [hT]
      show E3.mem.cells = cells
      rw [hmem]
    have htlayers : (t.eng.layers[g.layer]).sameChains s.eng.layers[g.layer] := by
      rw [hT]
      exact (hhold g.layer).chains.trans (hkept none)
    refine ⟨t, h, ?_, ?_, hread _ htlayers htcyc htslots htcells, fun hn => absurd hdone (by omega), fun _ => ?_⟩
    · rw [htslots]
      exact hsl
    · rw [htslots]
      exact hun
    · dsimp only
      rw [htslots, htcells, ← hX, ← hE3, hT]
      rfl
  · rw [if_neg hdone] at hends
    obtain ⟨o, h⟩ := grantComplete_gives hp hg hl hends (hfed _)
    exact ⟨_, h, hsl, hun, hread _ (hkept (some (a, w + g.count))) rfl rfl rfl, fun _ => rfl, fun hn => absurd hn hdone⟩

end

end Sys2Proof.Settled
end

section
/-! GRANT_COMPLETE on a part without a written range, and the obligation (R102, R118, R121 to R123, R172 to R174). -/

set_option Elab.async false

namespace Sys2Proof.Machine

/-- The reply of a transfer that has ended (R172, R173, R179). -/
def Link.transferred (lk : Link) (kind tag : Byte) (data : List ReplyItem) : Link :=
  { lk with
    replies := lk.replies ++ [{ kind := kind, tag := tag, status := .ok, overrun := lk.overrun, data := data }]
    overrun := false }

/-- Writes of the frames `xs` from the grant's first position on, up to the end of the layer's chain at most, read back. -/
theorem chainWrites_read {e : Engine} {g : Grant} {pages : List Nat} {xs : List Sample} (hcur : e.layers[g.layer].cur = some pages)
    (hkey : pages.head? = some g.key) (hn : pages.Nodup) (hlen : e.len g.layer ≤ 16384 * pages.length)
    (hend : g.first + xs.length ≤ e.len g.layer)
    (hst : ∀ i : SlotIx, e.slots[i].staging = []) (hwf : cellsWf e.mem.cells = true) :
    ∃ cells, chainWrites g.layer g.key g.first xs e.freed =
        { e.freed with mem := { e.freed.mem with cells := cells } }
      ∧ (∀ t : Engine, (t.layers[g.layer]).sameChains e.layers[g.layer] → t.cyc = e.cyc → t.slots = e.slots →
        t.mem.cells = cells → ∀ pos < e.len g.layer, chainRead t g.layer g.key pos =
          if g.first ≤ pos ∧ pos < g.first + xs.length then xs.getD (pos - g.first) 0 else chainRead e g.layer g.key pos)
      ∧ ∀ a, a / 16384 ∉ pages → cellRead cells a = cellRead e.mem.cells a := by
  have hchain : chainPages e.freed g.layer g.key = pages := chainPages_cur hcur hkey
  by_cases hnone : xs.length = 0
  · obtain rfl := List.length_eq_zero_iff.1 hnone
    refine ⟨e.mem.cells, rfl, fun t hch hcyc hslots hc2 pos _ => ?_, fun _ _ => rfl⟩
    rw [if_neg (by rw [List.length_nil]; omega)]
    exact chainRead_congr hch hcyc hslots hc2 _ _
  have hfirst : g.first < e.len g.layer := by omega
  obtain ⟨hin, hout, hcells⟩ := chainRead_writes (e := e.freed) (l := g.layer) (key := g.key) xs hst hwf
    (by rw [hchain]; exact hn) (by rw [hchain]; exact hlen) hfirst (le_trans (Nat.le_add_left _ _) hend)
  have hwr := chainWrites_written g.layer g.key xs g.first e.freed
  have hform : chainWrites g.layer g.key g.first xs e.freed = { e.freed with
      mem := { e.freed.mem with cells := (chainWrites g.layer g.key g.first xs e.freed).mem.cells } } := by
    have hslots := hwr.unstaged hst
    have honly := hwr.only
    rw [hslots] at honly
    exact honly
  generalize chainWrites g.layer g.key g.first xs e.freed = E at hin hout hcells hform
  refine ⟨E.mem.cells, hform, fun t hch hcyc hslots hc2 pos hp2 => ?_, fun a ha => hcells a (by rw [hchain]; exact ha)⟩
  have hsame : chainRead t g.layer g.key pos = chainRead E g.layer g.key pos :=
    chainRead_congr (by rw [hform]; exact hch) (by rw [hform]; exact hcyc) (by rw [hform]; exact hslots) hc2 _ _
  rw [hsame]
  by_cases hin2 : g.first ≤ pos ∧ pos < g.first + xs.length
  · rw [if_pos hin2]
    have hread := hin (pos - g.first) (by omega)
    have hposeq : (g.first + (pos - g.first)) % layerLen e.freed g.layer = pos := by
      rw [Nat.add_sub_cancel' hin2.1]
      exact Nat.mod_eq_of_lt hp2
    rw [hposeq] at hread
    exact hread
  · rw [if_neg hin2]
    refine hout pos fun i hi h => hin2 ?_
    have hlt : (g.first + i) % layerLen e.freed g.layer = g.first + i :=
      Nat.mod_eq_of_lt (show g.first + i < e.len g.layer by omega)
    omega

end Sys2Proof.Machine

namespace Sys2Proof.Settled
open Sys2Proof.Machine

section
variable {s : State} {g : Grant} (hp : s.powered = true) (hg : s.eng.mem.grant = some g) (hl : g.left = 0)
  (hw : ∀ l : LayerIx, s.eng.layers[l].written = none)
include hp hg hl hw

theorem grantComplete_cancelled (hc : g.cancelled = true) : ∃ t, exec .grantComplete s = .next t
    ∧ t = s.giving { s.eng with mem := { s.eng.mem with grant := t.eng.mem.grant } } := by
  obtain ⟨o, h⟩ := grantComplete_gives hp hg hl (Grant.ends_cancelled (e := s.eng.freed) hc) fun l => .inl (hw l)
  exact ⟨_, h, rfl⟩

variable (hc : g.cancelled = false)
include hc

theorem grantComplete_refills {v : LayerIx} (hwho : g.who = .voice v) (hv : g.layer = v) (hf : g.first < s.eng.len g.layer)
    (hi : s.eng.voices[v].rs ≠ .idle) (hclear : s.eng.voices[v].clearing = false)
    (hfirst : g.first = (s.eng.voices[v].main.base + s.eng.voices[v].main.frames.length) % s.eng.len g.layer) :
    ∃ t, exec .grantComplete s = .next t
      ∧ t.eng.voices[v].main = { base := s.eng.voices[v].main.base, frames := s.eng.voices[v].main.frames ++
          (List.range g.count).map fun i => chainRead s.eng g.layer g.key ((g.first + i) % s.eng.len g.layer) }
      ∧ (∀ i : LayerIx, i ≠ v → t.eng.voices[i] = s.eng.voices[i])
      ∧ t = s.giving { s.eng with voices := t.eng.voices, mem := { s.eng.mem with grant := t.eng.mem.grant } } := by
  have hlen : layerLen s.eng.freed v = s.eng.len g.layer := by rw [hv]; rfl
  obtain ⟨flag, hdone⟩ := voiceDone_gives (e := s.eng.freed) (g := g) hi hclear (by rw [hlen]; omega)
    (by rw [hlen]; exact hfirst)
  rw [chainReads_freed g.count hf] at hdone
  have hends := (Grant.ends_voice (e := s.eng.freed) hc hwho).trans (congrArg (·, none) hdone)
  obtain ⟨o, h⟩ := grantComplete_gives hp hg hl hends fun l => .inl (hw l)
  exact ⟨_, h, congrArg Voice.main (upd_self s.eng.voices v _), fun i hne => upd_other s.eng.voices v i _ (Ne.symm hne), rfl⟩

theorem grantComplete_fills {sp : SpliceRec} {v : LayerIx} (hwho : g.who = .splice v) (hv : g.layer = v)
    (hf : g.first < s.eng.len g.layer) (hs : s.eng.cyc.splice = .fetching sp) (hmem : v ∈ sp.voices)
    (hfirst : g.first = (s.eng.voices[v].spl.base + s.eng.voices[v].spl.frames.length) % s.eng.len g.layer)
    {reads : List Sample}
    (hreads : reads = (List.range g.count).map fun i => chainRead s.eng g.layer g.key ((g.first + i) % s.eng.len g.layer)) :
    ∃ t, exec .grantComplete s = .next t
      ∧ t = s.giving { s.eng with
          voices := upd s.eng.voices v fun x => { x with spl := { x.spl with frames := x.spl.frames ++ reads } }
          mem := { s.eng.mem with grant := t.eng.mem.grant } } := by
  have hlen : layerLen s.eng.freed v = s.eng.len g.layer := by rw [hv]; rfl
  have hdone := spliceDone_gives (e := s.eng.freed) (g := g) hs hmem (by rw [hlen]; omega) (by rw [hlen]; exact hfirst)
  rw [chainReads_freed g.count hf, ← hreads] at hdone
  have hends := (Grant.ends_splice (e := s.eng.freed) hc hwho).trans (congrArg (·, none) hdone)
  obtain ⟨o, h⟩ := grantComplete_gives hp hg hl hends fun l => .inl (hw l)
  exact ⟨_, h, rfl⟩

theorem grantComplete_drains {sl : SlotIx} {pos pg : Nat} {x : Sample} {rest : List Entry} {pages : List Nat}
    (hwf : cellsWf s.eng.mem.cells = true) (hwho : g.who = .slot sl) (hcount : g.count = 1)
    (hs : s.eng.slots[sl].staging = { layer := g.layer, key := g.key, body := .data pos x } :: rest)
    (hcur : s.eng.layers[g.layer].cur = some pages) (hkey : pages.head? = some g.key) (hpg : pages[pos / 16384]? = some pg) :
    ∃ t cells, exec .grantComplete s = .next t
      ∧ (∀ a, cellRead cells a = if a = pg * 16384 + pos % 16384 then x else cellRead s.eng.mem.cells a)
      ∧ t = s.giving { s.eng with
          slots := upd s.eng.slots sl (fun old => { old with staging := rest })
          mem := { s.eng.mem with grant := t.eng.mem.grant, cells := cells } } := by
  have hdone := drainDone_one (e := s.eng.freed) (g := g) hcount hs hcur hkey hpg
  have hends := (Grant.ends_slot (e := s.eng.freed) hc hwho).trans (congrArg (·, none) hdone)
  obtain ⟨o, h⟩ := grantComplete_gives hp hg hl hends fun l => .inl (hw l)
  refine ⟨_, cellWrite s.eng.mem.cells (pg * 16384 + pos % 16384) x, h, fun a => ?_, rfl⟩
  by_cases ha : a = pg * 16384 + pos % 16384
  · rw [if_pos ha, ha]
    exact cellRead_write_same _ _ _ hwf
  · rw [if_neg ha]
    exact cellRead_write_other _ _ _ ha _

theorem grantComplete_transferReads {tr : Transfer} (hwho : g.who = .transfer) (hx : s.eng.xfer = some tr)
    (hread : tr.write = false) (hf : g.first < s.eng.len g.layer) {reads : List Sample}
    (hreads : reads = (List.range g.count).map fun i => chainRead s.eng g.layer g.key ((g.first + i) % s.eng.len g.layer)) :
    ∃ t, exec .grantComplete s = .next t
      ∧ (tr.moved + g.count < tr.count → t = s.giving { s.eng with
          xfer := some { tr with moved := tr.moved + g.count, data := tr.data ++ reads }
          mem := { s.eng.mem with grant := t.eng.mem.grant } })
      ∧ (tr.count ≤ tr.moved + g.count → t = { s with
          eng := { s.eng with
            xfer := none, layers := tr.ended s.eng.layers, mem := { s.eng.mem with grant := t.eng.mem.grant } }
          link := s.link.transferred 147 tr.tag [.raw (sampleBytes (tr.data ++ reads))] }) := by
  have hends := (Grant.ends_transfer (e := s.eng.freed) hc hwho).trans
    (transferDone_read (e := s.eng.freed) (g := g) hx hread)
  rw [chainReads_freed g.count hf, ← hreads] at hends
  by_cases hdone : tr.count ≤ tr.moved + g.count
  · rw [if_pos hdone] at hends
    have hnone : ∀ l : LayerIx, (tr.ended s.eng.layers)[l].written = none := fun l =>
      (Transfer.ended_layer tr s.eng.layers l).written.trans (hw l)
    obtain ⟨o, h⟩ := grantComplete_replies hp hg hl hends hnone
    exact ⟨_, h, fun hn => absurd hdone (by omega), fun _ => rfl⟩
  · rw [if_neg hdone] at hends
    obtain ⟨o, h⟩ := grantComplete_gives hp hg hl hends fun l => .inl (hw l)
    exact ⟨_, h, fun _ => rfl, fun hn => absurd hn hdone⟩

theorem grantComplete_transferWrites {tr : Transfer} {pages : List Nat} (hwho : g.who = .transfer)
    (hx : s.eng.xfer = some tr) (hwrite : tr.write = true) (hcur : s.eng.layers[g.layer].cur = some pages)
    (hkey : pages.head? = some g.key) (hn : pages.Nodup) (hlen : s.eng.len g.layer ≤ 16384 * pages.length)
    (hend : g.first + g.count ≤ s.eng.len g.layer) (hdata : tr.moved + g.count ≤ tr.data.length)
    (hst : ∀ i : SlotIx, s.eng.slots[i].staging = []) (hwf : cellsWf s.eng.mem.cells = true) :
    ∃ t cells, exec .grantComplete s = .next t
      ∧ (∀ pos < s.eng.len g.layer, chainRead t.eng g.layer g.key pos =
        if g.first ≤ pos ∧ pos < g.first + g.count then tr.data.getD (tr.moved + (pos - g.first)) 0
        else chainRead s.eng g.layer g.key pos)
      ∧ (∀ a, a / 16384 ∉ pages → cellRead cells a = cellRead s.eng.mem.cells a)
      ∧ (tr.moved + g.count < tr.count → t = s.giving { s.eng with
          xfer := some { tr with moved := tr.moved + g.count }
          mem := { s.eng.mem with grant := t.eng.mem.grant, cells := cells } })
      ∧ (tr.count ≤ tr.moved + g.count → t = { s with
          eng := { s.eng with
            xfer := none, layers := tr.ended s.eng.layers
            mem := { s.eng.mem with grant := t.eng.mem.grant, cells := cells } }
          link := s.link.transferred 148 tr.tag [] }) := by
  have hxs : ((tr.data.drop tr.moved).take g.count).length = g.count := by
    rw [List.length_take, List.length_drop]
    omega
  obtain ⟨cells, hwrites, hread, hrest⟩ := chainWrites_read (e := s.eng) (xs := (tr.data.drop tr.moved).take g.count)
    hcur hkey hn hlen (by rw [hxs]; exact hend) hst hwf
  rw [hxs] at hread
  have hget : ∀ i < g.count, ((tr.data.drop tr.moved).take g.count).getD i 0 = tr.data.getD (tr.moved + i) 0 := fun i hi => by
    simp only [List.getD_eq_getElem?_getD, List.getElem?_take_of_lt hi, List.getElem?_drop]
  have hread : ∀ t : Engine, (t.layers[g.layer]).sameChains s.eng.layers[g.layer] → t.cyc = s.eng.cyc →
      t.slots = s.eng.slots → t.mem.cells = cells → ∀ pos < s.eng.len g.layer, chainRead t g.layer g.key pos =
        if g.first ≤ pos ∧ pos < g.first + g.count then tr.data.getD (tr.moved + (pos - g.first)) 0
        else chainRead s.eng g.layer g.key pos := fun t h1 h2 h3 h4 pos hpos => by
    rw [hread t h1 h2 h3 h4 pos hpos]
    by_cases hin : g.first ≤ pos ∧ pos < g.first + g.count
    · rw [if_pos hin, if_pos hin]
      exact hget _ (by omega)
    · rw [if_neg hin, if_neg hin]
  have hends := (Grant.ends_transfer (e := s.eng.freed) hc hwho).trans
    (transferDone_write (e := s.eng.freed) (g := g) hx hwrite rfl)
  rw [hwrites] at hends
  by_cases hdone : tr.count ≤ tr.moved + g.count
  · rw [if_pos hdone] at hends
    have hnone : ∀ l : LayerIx, (tr.ended s.eng.layers)[l].written = none := fun l =>
      (Transfer.ended_layer tr s.eng.layers l).written.trans (hw l)
    obtain ⟨o, h⟩ := grantComplete_replies hp hg hl hends hnone
    exact ⟨_, cells, h, hread _ (Transfer.ended_layer tr s.eng.layers g.layer).chains rfl rfl rfl, hrest,
      fun hn => absurd hdone (by omega), fun _ => rfl⟩
  · rw [if_neg hdone] at hends
    obtain ⟨o, h⟩ := grantComplete_gives hp hg hl hends fun l => .inl (hw l)
    exact ⟨_, cells, h, hread _ ⟨rfl, rfl, rfl, rfl⟩ rfl rfl rfl, hrest, fun _ => rfl, fun hn => absurd hn hdone⟩

theorem grantComplete_zeros {j : Job} {jobs : List Job} {pages : List Nat} (hwho : g.who = .filler)
    (hj : s.eng.mem.jobs = j :: jobs) (hk : j.kind = .zeroFill) (hlayer : j.layer = g.layer)
    (hcur : s.eng.layers[g.layer].cur = some pages)
    (hkey : pages.head? = some g.key) (hn : pages.Nodup) (hlen : s.eng.len g.layer ≤ 16384 * pages.length)
    (hend : g.first + g.count ≤ s.eng.len g.layer)
    (hst : ∀ i : SlotIx, s.eng.slots[i].staging = []) (hwf : cellsWf s.eng.mem.cells = true) :
    ∃ t cells, exec .grantComplete s = .next t
      ∧ (∀ pos < s.eng.len g.layer, chainRead t.eng g.layer g.key pos =
        if g.first ≤ pos ∧ pos < g.first + g.count then 0 else chainRead s.eng g.layer g.key pos)
      ∧ (j.done + g.count < s.eng.len g.layer → t = s.giving { s.eng with mem := { s.eng.mem with
          grant := t.eng.mem.grant, cells := cells, jobs := { j with done := j.done + g.count } :: jobs } })
      ∧ (s.eng.len g.layer ≤ j.done + g.count →
        let e1 : Engine := { s.eng with mem := { s.eng.mem with cells := cells, grant := none, jobs := jobs, work := [] } }
        let e2 := Machine.grantHolds (e1.reports (.fillDone j.layer .zeroFill))
        let i := s.eng.position g.layer
        let start := if s.eng.cyc.state = .running then (i + 256) % s.eng.len g.layer else i
        let voices := upd s.eng.voices g.layer fun v => if v.rs = .priming then v.primed i start else v
        (∃ n, s.eng.layers[g.layer].mult = some n) →
        t = s.giving { e2 with voices := voices, mem := { e2.mem with grant := t.eng.mem.grant } }) := by
  have hxs : (List.replicate g.count (0 : Sample)).length = g.count := List.length_replicate
  obtain ⟨cells, hwrites, hread, -⟩ := chainWrites_read (e := s.eng) (xs := List.replicate g.count (0 : Sample))
    hcur hkey hn hlen (by rw [hxs]; exact hend) hst hwf
  rw [hxs] at hread
  have hread : ∀ t : Engine, (t.layers[g.layer]).sameChains s.eng.layers[g.layer] → t.cyc = s.eng.cyc →
      t.slots = s.eng.slots → t.mem.cells = cells → ∀ pos < s.eng.len g.layer, chainRead t g.layer g.key pos =
        if g.first ≤ pos ∧ pos < g.first + g.count then 0 else chainRead s.eng g.layer g.key pos :=
    fun t h1 h2 h3 h4 pos hpos => by
      rw [hread t h1 h2 h3 h4 pos hpos]
      refine if_congr Iff.rfl ?_ rfl
      rw [List.getD_eq_getElem?_getD, List.getElem?_replicate]
      split <;> rfl
  have hends := (Grant.ends_filler (e := s.eng.freed) hc hwho).trans
    (congrArg (·, none) (fillerDone_zeros (e := s.eng.freed) (g := g) hj hk rfl))
  rw [hwrites] at hends
  by_cases hdone : s.eng.len g.layer ≤ j.done + g.count
  · cases hmult : s.eng.layers[g.layer].mult with
    | none =>
      have hzero : s.eng.len g.layer = 0 := by
        unfold Engine.len
        rw [hmult]
        exact Nat.zero_mul _
      refine ⟨_, cells, grantComplete_ends hp hg hl, fun pos hpos => absurd hpos (by omega), fun hn => absurd hdone (by omega),
        fun _ => ?_⟩
      dsimp only
      rintro ⟨n, hn⟩
      exact nomatch hn
    | some n =>
      obtain ⟨E3, hE3⟩ : ∃ E3, E3 = Machine.grantHolds (({ s.eng with mem := { s.eng.mem with
        cells := cells, grant := none, jobs := jobs, work := [] } } : Engine).reports (.fillDone j.layer .zeroFill)) := ⟨_, rfl⟩
      obtain ⟨voices, hvoices⟩ : ∃ voices, voices = upd s.eng.voices g.layer fun v =>
        if v.rs = .priming then v.primed (s.eng.position g.layer) (if s.eng.cyc.state = .running
          then (s.eng.position g.layer + 256) % s.eng.len g.layer else s.eng.position g.layer) else v := ⟨_, rfl⟩
      have hfill : zeroFillDone j.layer { s.eng.freed with mem := { s.eng.freed.mem with cells := cells } } =
          { E3 with voices := voices } := by
        have hdrop : s.eng.mem.jobs.drop 1 = jobs := by rw [hj]; rfl
        rw [zeroFillDone_gives (by rw [hlayer]; exact hw g.layer) (by rw [hlayer]; exact hmult), hE3, hvoices, ← hdrop, hlayer]
        rfl
      have hlenj : layerLen s.eng.freed j.layer = s.eng.len g.layer := by rw [hlayer]; rfl
      rw [hlenj, if_pos hdone, hfill] at hends
      have hsame : E3.cyc = s.eng.cyc ∧ E3.slots = s.eng.slots ∧ E3.mem.cells = cells
          ∧ ∀ l : LayerIx, (E3.layers[l]).sameButHold s.eng.layers[l] := by
        rw [hE3]
        refine ⟨(grantHolds_cyc _).trans rfl, (grantHolds_slots _).trans rfl, ?_, fun l => grantHolds_sameButHold _ l⟩
        rw [grantHolds_mem]
        rfl
      obtain ⟨hcyc, hslots, hcells, hhold⟩ := hsame
      obtain ⟨o, h⟩ := grantComplete_gives hp hg hl hends fun l => .inl ((hhold l).written.trans (hw l))
      refine ⟨_, cells, h, hread _ (hhold g.layer).chains hcyc hslots hcells, fun hn => absurd hdone (by omega), fun _ => ?_⟩
      dsimp only
      rw [← hE3, ← hvoices]
      exact fun _ => rfl
  · have hlenj : layerLen s.eng.freed j.layer = s.eng.len g.layer := by rw [hlayer]; rfl
    rw [hlenj, if_neg hdone] at hends
    obtain ⟨o, h⟩ := grantComplete_gives hp hg hl hends fun l => .inl (hw l)
    exact ⟨_, cells, h, hread _ ⟨rfl, rfl, rfl, rfl⟩ rfl rfl rfl, fun _ => rfl, fun hn => absurd hn hdone⟩

end

/-- Settles O54: each requester's grant completes as its own lemma says, and the arbiter then makes the next grant. -/
theorem grantComplete : Obligations.GrantComplete := by
  refine ⟨fun s g hp hg hl => grantComplete_picks hp hg hl, ?_, ?_⟩
  · intro s g j jobs a w hp hg hl hc hwho hj hk hwritten hothers hv hs hlayer hf e len position
    have hw : ∀ l : LayerIx, s.eng.layers[l].written = none ∨ (s.eng.voices[l].rs = .idle ∧ s.eng.cyc.splice = .idle) :=
      fun l => by
        by_cases hlj : l = j.layer
        · rw [hlj]
          exact .inr ⟨hv, hs⟩
        · exact .inl (hothers l hlj)
    cases hwrite : g.write with
    | false =>
      obtain ⟨t, hexec, ht⟩ := grantComplete_copyReads hp hg hl hc hj hk hwho hw hwrite hf
      exact ⟨t, hexec, fun _ => ht, nofun⟩
    | true =>
      obtain ⟨t, hexec, hsl, hun, hread, hmore, hdone⟩ :=
        grantComplete_copyWrites hp hg hl hc hj hk hwho hwritten hothers hv hs hlayer hwrite hf rfl
      refine ⟨t, hexec, nofun, fun _ => ⟨hsl, hun, hread, hmore, fun hn => ?_⟩⟩
      have ht := hdone hn
      dsimp only [Engine.reports, e] at ht ⊢
      exact ht
  · intro s g hp hg hw e len reads next
    refine ⟨grantComplete_waits hp hg, fun hl hc => grantComplete_cancelled hp hg hl hw hc,
      fun v hl hc hwho hv hf hi hclear hfirst => grantComplete_refills hp hg hl hw hc hwho hv hf hi hclear hfirst,
      fun sl pos pg x rest pages hwf hl hc hwho hcount hst hcur hkey hpg =>
        grantComplete_drains hp hg hl hw hc hwf hwho hcount hst hcur hkey hpg,
      fun sp v hl hc hwho hv hf hs hmem hfirst => grantComplete_fills hp hg hl hw hc hwho hv hf hs hmem hfirst rfl,
      fun tr hl hc hwho hx hread hf => grantComplete_transferReads hp hg hl hw hc hwho hx hread hf rfl,
      fun tr pages hl hc hwho hx hwrite hcur hkey hn hlen hend hdata hst hwf =>
        grantComplete_transferWrites hp hg hl hw hc hwho hx hwrite hcur hkey hn hlen hend hdata hst hwf,
      fun j jobs pages hl hc hwho hj hk hlayer hcur hkey hn hlen hend hst hwf => ?_⟩
    obtain ⟨t, cells, hexec, hread, hmore, hdone⟩ :=
      grantComplete_zeros hp hg hl hw hc hwho hj hk hlayer hcur hkey hn hlen hend hst hwf
    refine ⟨t, cells, hexec, hread, hmore, fun hn hm _ => ?_⟩
    have ht := hdone hn hm
    dsimp only [Engine.reports, e] at ht ⊢
    exact ht

end Sys2Proof.Settled
end


section
/-! Two statements that say more than the model does, of states that no run reaches: FixedCaptureComplete of a FREE slot that
still counts 2,880,000 frames for the layer of the base capture, VoiceEvents of a base capture that stands at a position other
than 0. -/

set_option Elab.async false

namespace Sys2Proof.Machine

/-- A part that has started, with the engine `f` makes of the reset one. -/
def startedWith (f : Engine → Engine) : State :=
  { State.reset with eng := f { State.reset.eng with
      clk := { Clock.reset with pllLocked := true, startRelock := false, starting := false, frameOpen := true } } }

theorem startedWith_still {f : Engine → Engine}
    (h : (startedWith f).eng.clk = { Clock.reset with
        pllLocked := true, startRelock := false, starting := false, frameOpen := true }
      ∧ (startedWith f).eng.cyc.owedBoundary = false ∧ (startedWith f).eng.cyc.owedTaps = 0
      ∧ (startedWith f).eng.cues.list = [] ∧ (startedWith f).eng.fol.coastDue = false
      ∧ (startedWith f).eng.mem.grant = none ∧ (startedWith f).eng.mem.jobs = [] ∧ (startedWith f).eng.xfer = none
      ∧ (startedWith f).eng.ped.due = false
      ∧ (∀ p : PortIx, ((startedWith f).eng.ports[p].lock = .searching → (startedWith f).eng.ports[p].good < 8)
          ∧ ((startedWith f).eng.ports[p].lock = .locked → (startedWith f).eng.ports[p].bad < 4)
          ∧ (startedWith f).eng.ports[p].slipEnds = false)
      ∧ ∀ l : LayerIx, recoveryDue (startedWith f).eng l = false) : (startedWith f).Still := by
  obtain ⟨hclk, hboundary, htaps, hcues, hcoast, hgrant, hjobs, hxfer, hped, hports, hvoices⟩ := h
  refine { powered := rfl, started := ?_, frames := ?_, clock := ?_, waiting := ?_, owed := ⟨hboundary, htaps⟩
           undue := ?_, coast := hcoast, grant := ?_, pedals := hped, store := rfl, ports := hports, voices := hvoices
           cues := hcues, memory := ⟨hgrant, hjobs, hxfer⟩ }
  · rw [hclk]
  · rw [hclk]
    exact ⟨rfl, rfl⟩
  · rw [hclk]
    exact ⟨rfl, rfl⟩
  · rw [hclk]
    rfl
  · rw [hcues]
    exact fun c hc => nomatch hc
  · rw [hgrant]
    exact fun g hg => nomatch hg

/-- The state that a FRAME leaves. -/
def State.afterFrame (s : State) : State :=
  match exec .frame s with
  | .next t => t
  | _ => s

theorem State.afterFrame_eq {s t : State} (h : exec .frame s = .next t) : s.afterFrame = t := by
  unfold State.afterFrame
  rw [h]

/-- The write of a base capture's first frame. -/
def firstWrite : SlotWrite := { pos := 0, x := 5, mixed := none, again := false }

/-- A base capture whose layer, 1, names a FREE slot with a count of 2,880,000, so that AUTO_CLOSE is due, while slot 0
writes a capture of layer 0, on which a hold waits. -/
def staleCount : State := startedWith fun e => { e with
  cyc := { Cycle.reset with state := .baseCapture, base := some 1 }
  layers := upd (upd e.layers 0 fun r => { r with state := .playing, hold := .pending, cur := some [9], slot := some 0 }) 1
    fun r => { r with slot := some 1 }
  slots := upd (upd e.slots 0 fun sl => { sl with
    use := .base, layer := some 0, lane := some 0, pendingWrites := [firstWrite] }) 1
    fun sl => { sl with layer := some 1, count := 2880000 }
  mem := { e.mem with free := [5] } }

theorem staleCount_still : staleCount.Still := startedWith_still (by decide +kernel)

theorem staleCount_granted : staleCount.afterFrame.eng.layers[(0 : LayerIx)].hold = .held := by decide +kernel

/-- A base capture at the position 5, one frame short of its AUTO_CLOSE, with a READING voice that holds no frames and a
detector that hears an onset. -/
def misplacedCapture : State := startedWith fun e => { e with
  cyc := { Cycle.reset with state := .baseCapture, base := some 1, p := 5 }
  layers := upd e.layers 1 fun r => { r with state := .capturing, cur := some [9], slot := some 0 }
  slots := upd e.slots 0 fun sl => { sl with
    use := .base, layer := some 1, lane := some 0, count := 2879999, pendingWrites := [{ firstWrite with pos := 2879999 }] }
  voices := upd e.voices 0 fun v => { v with rs := .reading, pos := some 0 }
  ports := upd e.ports 0 fun q => { q with enabled := true, lock := .locked, last := (9, 9) }
  fol := { e.fol with source := .lane 0, threshold := 0, state := .waiting }
  mem := { e.mem with free := [5] } }

theorem misplacedCapture_still : misplacedCapture.Still := startedWith_still (by decide +kernel)

theorem misplacedCapture_starves : misplacedCapture.afterFrame.eng.voices[(0 : LayerIx)].rs = .starved
    ∧ misplacedCapture.afterFrame.eng.cyc.beat = misplacedCapture.eng.cyc.beat
    ∧ misplacedCapture.afterFrame.eng.cyc.k = misplacedCapture.eng.cyc.k := by decide +kernel

/-- The report of the starved voice holds the position before the AUTO_CLOSE, not the one the frame leaves. -/
theorem misplacedCapture_reports : ∀ x ∈ misplacedCapture.afterFrame.eng.evq.list,
    x.event.code = (Event.starved 0 0).code → x.p ≠ misplacedCapture.afterFrame.eng.cyc.p := by decide +kernel

end Sys2Proof.Machine

namespace Sys2Proof.Settled
open Sys2Proof.Machine

/-- Refutes O53: nothing keeps a FREE slot from counting 2,880,000 frames for the layer of the base capture. The AUTO_CLOSE
that is then due grants the hold that waits on layer 0, which the clause on the write of a base capture says is kept. -/
theorem not_fixedCaptureComplete : ¬ Obligations.FixedCaptureComplete := by
  intro h
  obtain ⟨t, hexec, -, hwrites, -⟩ := h.1 staleCount 0 0 0 staleCount_still rfl (by decide +kernel) rfl rfl
  have hkept := (hwrites firstWrite [9] 5 9 [] rfl rfl rfl rfl rfl (by decide +kernel) rfl rfl rfl (by decide +kernel)
    (by decide +kernel) rfl (by decide +kernel)).2.1
  have hgranted := staleCount_granted
  rw [State.afterFrame_eq hexec, hkept] at hgranted
  exact absurd hgranted (by decide +kernel)

/-- Refutes O55: a voice that starves in BASE_CAPTURE reports the position of its frame, and an onset of that frame, heard
as the capture reaches its last position, closes the capture at position 0. -/
theorem not_voiceEvents : ¬ Obligations.VoiceEvents := by
  intro h
  obtain ⟨t, hexec, -, hstarved, -⟩ := h.1 misplacedCapture 0 misplacedCapture_still (by decide +kernel) (by decide +kernel)
  have ht := State.afterFrame_eq hexec
  obtain ⟨hrs, hbeat, hk⟩ := misplacedCapture_starves
  rw [ht] at hrs hbeat hk
  obtain ⟨q, -, htells⟩ := hstarved rfl rfl hrs rfl hbeat hk
  have hmask : misplacedCapture.eng.evq.mask.getLsbD ((Event.starved 0 0).code - 1) = true := by decide +kernel
  obtain ⟨x, hx, hevent, -, hp⟩ := htells hmask (by decide +kernel)
  have hreport := misplacedCapture_reports
  rw [ht] at hreport
  exact hreport x hx (by rw [hevent]; rfl) hp

end Sys2Proof.Settled
end

section
/-! SpliceSteps, apart from its FRAMEs: SPLICE_WAIT_LIMIT, CROSSFADE_END, SPLICE_JUMP, what abandons a splice, and what the
jump does to a voice (R20 to R23, R132, R134, R135). -/

set_option Elab.async false

namespace Sys2Proof.Machine

section
variable {e : Engine}

/-! ## The streams of a splice -/

theorem streamFrom_length (e : Engine) (j : Int) (l : LayerIx) :
    (streamFrom e j l).frames.length ≤ e.voices[l].spl.frames.length :=
  alignStream_length _ _ _

/-- A voice that holds too few frames keeps the jump conditions from holding (R22). -/
theorem jumpConditions_short {r : SpliceRec} {v : LayerIx} (hv : v ∈ r.voices)
    (h : e.voices[v].spl.frames.length < r.x ∨ e.voices[v].main.frames.length < r.x) : jumpConditions e r = false := by
  rw [← Bool.not_eq_true]
  intro hall
  have hboth := List.all_eq_true.1 hall v hv
  rw [Bool.and_eq_true, decide_eq_true_eq, decide_eq_true_eq] at hboth
  have hlen := streamFrom_length e r.j v
  omega

/-! ## A capture on a part whose splice is being fetched -/

theorem startFixed_fetching {l : LayerIx} {lane : LaneIx} {n number : Nat} {sl : SlotIx} {r : SpliceRec} (pages : List Nat)
    (hsp : e.cyc.splice = .fetching r) :
    startFixed sl l n lane pages number e = { e with
      layers := upd e.layers l fun r =>
        { r with mult := some n, cur := some pages, slot := some sl, state := .capturing, lastChange := e.cyc.k }
      slots := upd e.slots sl (Slot.taken .fixed l lane (some ((e.cyc.m % n) * e.cyc.c + e.cyc.p)))
      cyc := { e.cyc with captureThisPass := true, splice := .idle }
      voices := voicesIn r.voices (fun _ => Voice.unstreamed) e.voices
      evq := (queueReport (.layerState l .capturing .cue number) e.cyc.k e.cyc.p e.evq).told e.cyc.k e.cyc.p
        (if r.count = 0 then [] else [.spliceSkipped r.j .capture]) } := by
  have hpos : layerPos (modLayer l (fun r => { r with mult := some n, cur := some pages }) e) l
      = some ((e.cyc.m % n) * e.cyc.c + e.cyc.p) := by
    rw [layerPos, show ((modLayer l (fun r => { r with mult := some n, cur := some pages }) e).layers[l]).mult = some n from
      congrArg Layer.mult (upd_self e.layers l _)]
    rfl
  unfold startFixed
  dsimp only
  rw [hpos, setLayerState_eq, captureStops_fetching (r := r) (by exact hsp)]
  simp only [takeSlot, Engine.reports, modLayer, modSlot, upd_upd]
  rfl

end

/-! ## The jump of one voice -/

section
variable {e : Engine} {r : SpliceRec} {v : LayerIx}

theorem discardRefill_mem (v : LayerIx) (e : Engine) : discardRefill v e = { e with mem := e.mem.without (· == v) } := by
  unfold discardRefill cancelGrant LoopMem.without
  refine congrArg (fun g => ({ e with mem := { e.mem with grant := g } } : Engine)) ?_
  refine congrArg (fun f => Option.map f e.mem.grant) (funext fun g => ?_)
  cases hw : g.who with
  | voice w =>
    have hsame : (Requester.voice w == Requester.voice v) = (w == v) := by
      by_cases h : w = v
      · rw [h, beq_self_eq_true, beq_self_eq_true]
      · rw [beq_eq_false_iff_ne.2 h, beq_eq_false_iff_ne.2 fun hn => h (Requester.voice.inj hn)]
    have hgone : (g.who == Requester.voice v) = (w == v) := by rw [hw, hsame]
    have hiff : (g.who == Requester.voice v) = true ↔ (w == v) = true := by rw [hgone]
    exact if_congr hiff rfl rfl
  | _ =>
    refine if_neg ?_
    dsimp only
    rw [hw]
    exact nofun

/-- A voice changed by the jump, a refill of it in progress giving nothing (R130; entry 67). -/
def Engine.jumps (e : Engine) (v : LayerIx) (f : Voice → Voice) : Engine :=
  { e with voices := upd e.voices v f, mem := e.mem.without (· == v) }

/-- The voice once the position has jumped below it (R130). -/
def Voice.stalled (here : Nat) (x : Voice) : Voice :=
  { x with pos := some here, stall := some here, main := { base := here, frames := [] }, spl := Run.nil, flag := true }

/-- A voice that takes part: its old stream is kept for the crossfade, its main staging begins anew (R132). -/
def SpliceRec.crossed (r : SpliceRec) (len here : Nat) (x : Voice) : Voice :=
  let old := runAdvance len (x.pos.getD 0) (backBy len here (-r.j)) x.main
  updFlag len true { x with
    pos := some here, store := { base := old.base, frames := old.frames.take r.x }
    main := { base := wrapAt len (here + r.x), frames := [] } }

section
variable {here : Nat} (hpos : (layerPos e v).getD 0 = here)
include hpos

theorem jumpVoice_starved (h : e.voices[v].rs = .starved) : jumpVoice r v e = e.jumps v (Voice.stalled here) := by
  unfold jumpVoice
  dsimp only
  rw [h, hpos, discardRefill_mem]
  rfl

theorem jumpVoice_priming (h : e.voices[v].rs = .priming) (hrun : e.cyc.state = .running) :
    jumpVoice r v e = e.jumps v fun x => x.primed here (wrapAt (layerLen e v) (here + 256)) := by
  have hsame : layerPos { e with mem := e.mem.without (· == v) } v = layerPos e v := rfl
  unfold jumpVoice
  dsimp only
  rw [h, discardRefill_mem]
  unfold beginPriming
  dsimp only
  rw [hsame, hpos, if_pos hrun]
  rfl

theorem jumpVoice_crosses (h : e.voices[v].rs = .reading) (hv : v ∈ r.voices ∧ e.voices[v].clearing = false) :
    jumpVoice r v e = e.jumps v (r.crossed (layerLen e v) here) := by
  unfold jumpVoice
  dsimp only
  rw [h, hpos, discardRefill_mem]
  exact if_pos hv

end

theorem jumpVoice_reads (h : e.voices[v].rs = .reading) (hv : ¬(v ∈ r.voices ∧ e.voices[v].clearing = false)) :
    jumpVoice r v e = e := by
  unfold jumpVoice
  dsimp only
  rw [h]
  exact if_neg hv

theorem jumpVoice_idle (h : e.voices[v].rs = .idle) : jumpVoice r v e = e := by
  unfold jumpVoice
  dsimp only
  rw [h]

/-- The old stream of a voice whose jump finds it `d` frames on in what it holds (R132). -/
theorem crossed_eq {len here i d : Nat} {x : Voice} (hp : x.pos = some i) (hb : x.main.base = i) (hi : i < len) (hd : d < len)
    (hf : d < x.main.frames.length) (hat : (((i + d) % len : Nat) : Int) = ((here : Int) + r.j) % len) :
    ∃ flag, r.crossed len here x = { x with
      pos := some here, flag := flag
      store := { base := (i + d) % len, frames := (x.main.frames.drop d).take r.x }
      main := { base := (here + r.x) % len, frames := [] } } := by
  have hlen : len ≠ 0 := by omega
  have hback : backBy len here (-r.j) = (i + d) % len := by
    rw [backBy, if_neg hlen, show (here : Int) - -r.j = here + r.j by omega, ← hat]
    exact Int.toNat_natCast _
  have hahead : ahead len i ((i + d) % len) = d := by
    rw [ahead, if_neg hlen, Nat.mod_eq_of_lt hi]
    obtain hlt | hle := Nat.lt_or_ge (i + d) len
    · rw [Nat.mod_eq_of_lt hlt, show i + d + len - i = d + len by omega, Nat.add_mod_right, Nat.mod_eq_of_lt hd]
    · rw [Nat.mod_eq_sub_mod hle, Nat.mod_eq_of_lt (by omega : i + d - len < len), show i + d - len + len - i = d by omega,
        Nat.mod_eq_of_lt hd]
  have hhere : ahead len i i = 0 := by
    rw [ahead, if_neg hlen, Nat.mod_eq_of_lt hi, Nat.add_sub_cancel_left, Nat.mod_self]
  have hrun : runAdvance len i ((i + d) % len) x.main = { base := (i + d) % len, frames := x.main.frames.drop d } := by
    unfold runAdvance
    dsimp only
    rw [hahead, hb, hhere, Nat.sub_zero, wrapAt, if_neg hlen]
    by_cases h0 : d ≤ 0
    · obtain rfl : d = 0 := by omega
      rw [if_pos h0, Nat.add_zero, Nat.mod_eq_of_lt hi, ← hb]
      rfl
    · rw [if_neg h0, if_neg (by omega)]
  unfold SpliceRec.crossed
  dsimp only
  rw [hp, hback, Option.getD_some, hrun, wrapAt, if_neg hlen]
  exact ⟨_, rfl⟩

/-- What the jump touches: the voice and its refill. -/
theorem jumpVoice_only (r : SpliceRec) (v : LayerIx) (e : Engine) : ∃ f : Voice → Voice,
    jumpVoice r v e = { e with
      voices := upd e.voices v f
      mem := if (e.voices[v].rs = .reading ∧ v ∈ r.voices ∧ e.voices[v].clearing = false) ∨ e.voices[v].rs = .starved
                ∨ e.voices[v].rs = .priming then e.mem.without (· == v) else e.mem } := by
  have hsame : ({ e with voices := upd e.voices v id } : Engine) = e := by rw [upd_id e.voices v rfl]
  cases h : e.voices[v].rs with
  | starved => exact ⟨_, (jumpVoice_starved rfl h).trans (by rw [if_pos (.inr (.inl rfl))]; rfl)⟩
  | idle => exact ⟨id, (jumpVoice_idle h).trans (by rw [if_neg (by simp)]; exact hsame.symm)⟩
  | priming =>
    rw [if_pos (.inr (.inr rfl))]
    unfold jumpVoice
    dsimp only
    rw [h, discardRefill_mem]
    exact ⟨_, rfl⟩
  | reading =>
    by_cases hv : v ∈ r.voices ∧ e.voices[v].clearing = false
    · exact ⟨_, (jumpVoice_crosses rfl h hv).trans (by rw [if_pos (.inl ⟨rfl, hv⟩)]; rfl)⟩
    · exact ⟨id, (jumpVoice_reads h hv).trans (by rw [if_neg (by simpa using hv)]; exact hsame.symm)⟩

end

end Sys2Proof.Machine

end

section
/-! What a steady part with free slots settles as its frame ends, whatever its splice does (R20, R21, R23), and the engine
its next frame finds. -/

set_option Elab.async false

namespace Sys2Proof.Machine

/-! ## Free slots, with writes or without -/

section
variable {e : Engine}

theorem commitWrites_free {i : SlotIx} (h : e.slots[i].use = .free) (ws : List SlotWrite) :
    ws.foldl (commitWrite i) e = e := by
  have hone : ∀ w, commitWrite i e w = e := fun w => by
    unfold commitWrite
    dsimp only
    split
    · rfl
    · rw [h]
  induction ws with
  | nil => rfl
  | cons w rest ih => rw [List.foldl_cons, hone w, ih]

/-- A free slot drops its writes as the frame ends. -/
theorem settleSlot_drops {i : SlotIx} (h : e.slots[i].use = .free) :
    settleSlot i e = { e with slots := upd e.slots i fun sl => { sl with pendingWrites := [] } } := by
  have hdue : fixedCompleteDue e i = false := by
    unfold fixedCompleteDue
    dsimp only
    rw [h]
  unfold settleSlot
  rw [if_neg (by rw [hdue]; decide)]
  unfold commitSlot
  rw [commitWrites_free h]
  rfl

theorem eachSlot_drops (h : ∀ i : SlotIx, e.slots[i].use = .free) : ∃ slots : Vector Slot 2,
    eachSlot settleSlot e = { e with slots := slots } ∧ ∀ i : SlotIx, slots[i].use = .free := by
  refine eachSlot_induct (I := fun t => ∃ slots : Vector Slot 2, t = { e with slots := slots }
    ∧ ∀ i : SlotIx, slots[i].use = .free) (fun i t ht => ?_) ⟨e.slots, rfl, h⟩
  obtain ⟨slots, rfl, hfree⟩ := ht
  refine ⟨_, settleSlot_drops (hfree i), fun k => ?_⟩
  by_cases hk : i = k
  · subst hk
    exact (congrArg Slot.use (upd_self slots i _)).trans (hfree i)
  · exact (congrArg Slot.use (upd_other slots i k _ hk)).trans (hfree k)

end

/-! ## The end of a frame -/

/-- Engine `t` is `a` as its frame ends, with its slots free, but for the splice's wait limit: other voices, slots, memory and
clip reports, the reports the same when no clip is to be reported. -/
structure Rested (a t : Engine) : Prop where
  only : ∃ clipping reported window, t = { a with
    voices := t.voices, slots := t.slots, mem := t.mem, evq := t.evq
    mix := { a.mix with clipping := clipping, clipReported := reported, window := window } }
  slots : ∀ i : SlotIx, t.slots[i].use = .free
  calm : a.mix.clipping = none → t.evq = a.evq ∧ t.mix.clipping = none

section
variable {a e : Engine}

theorem Rested.voices (h : Rested a e) (x : Vector Voice 16) : Rested a { e with voices := x } := by
  obtain ⟨⟨clipping, reported, window, honly⟩, hslots, hcalm⟩ := h
  exact ⟨⟨clipping, reported, window, congrArg (fun t : Engine => { t with voices := x }) honly⟩, hslots, hcalm⟩

theorem Rested.mem (h : Rested a e) (x : LoopMem) : Rested a { e with mem := x } := by
  obtain ⟨⟨clipping, reported, window, honly⟩, hslots, hcalm⟩ := h
  exact ⟨⟨clipping, reported, window, congrArg (fun t : Engine => { t with mem := x }) honly⟩, hslots, hcalm⟩

theorem Rested.trans {t : Engine} (h : Rested a e) (h' : Rested e t) : Rested a t := by
  obtain ⟨⟨clipping, reported, window, honly⟩, -, hcalm⟩ := h
  obtain ⟨⟨clipping', reported', window', honly'⟩, hslots, hcalm'⟩ := h'
  refine ⟨⟨clipping', reported', window', ?_⟩, hslots, fun hn => ?_⟩
  · rw [honly']
    dsimp only
    rw [honly]
  · obtain ⟨h1, h2⟩ := hcalm hn
    obtain ⟨h1', h2'⟩ := hcalm' h2
    exact ⟨h1'.trans h1, h2'⟩

theorem clips_rested (h : ∀ i : SlotIx, e.slots[i].use = .free) : Rested e (clipWindowEnd (reportClip e)) := by
  obtain ⟨clipping, reported, window, evq, hclips⟩ := clips_only e
  refine ⟨⟨clipping, reported, window, by rw [hclips]⟩, by rw [hclips]; exact h, fun hn => ?_⟩
  have hsame : reportClip e = e := by
    unfold reportClip
    rw [hn]
  rw [hsame]
  unfold clipWindowEnd
  split
  · exact ⟨rfl, hn⟩
  · exact ⟨rfl, hn⟩

theorem zeroFeed_rested (h : Rested a e) (l : LayerIx) : Rested a (zeroFeed l e) := by
  unfold zeroFeed
  extract_lets len pos n e1 stream spos
  have h1 : Rested a e1 := by
    unfold e1
    split
    · exact h.voices _
    · exact h
  split
  · exact h1.voices _
  · exact h1

theorem arbitrate_rested (h : Rested a e) : Rested a (arbitrate (alignStreams e)) := by
  have h1 : Rested a (alignStreams e) := by
    unfold alignStreams
    split
    · exact foldl_induct (I := Rested a) (fun v t ht => ht.voices _) _ h
    · exact h
  generalize alignStreams e = E at h1
  unfold arbitrate
  split
  · exact h1
  · exact (eachLayer_induct (I := Rested a) (fun l t ht => zeroFeed_rested ht l) h1).mem _

theorem settleRest_rested (hrec : ∀ l, recoveryDue e l = false) (hfree : ∀ i : SlotIx, e.slots[i].use = .free)
    (hp : e.ped.due = false) : ∃ t, Rested e t
      ∧ settleRest e = if waitLimitDue t = true then abandonSplice .waitLimit t else t := by
  obtain ⟨E1, hE1⟩ : ∃ E1, E1 = eachLayer settleVoice e := ⟨_, rfl⟩
  have h1 : Primed e E1 := hE1 ▸ primes_voices hrec
  obtain ⟨slots, hslots, hfree'⟩ := eachSlot_drops (e := E1) (by rw [h1.only]; exact hfree)
  obtain ⟨E2, hE2⟩ : ∃ E2, E2 = eachLayer settleFade { E1 with slots := slots } := ⟨_, rfl⟩
  have h2 : Faded { E1 with slots := slots } E2 := hE2 ▸ fades_voices
  have hend : Rested e E2 := by
    refine ⟨⟨e.mix.clipping, e.mix.clipReported, e.mix.window, ?_⟩, ?_, fun hn => ?_⟩
    · rw [h2.only, h1.only]
    · rw [h2.only]
      exact hfree'
    · rw [h2.only, h1.only]
      exact ⟨rfl, hn⟩
  have hdue : E2.ped.due = false := by
    rw [h2.only, h1.only]
    exact hp
  refine ⟨_, arbitrate_rested (hend.trans (clips_rested hend.slots)), ?_⟩
  unfold settleRest
  rw [← hE1, hslots, ← hE2]
  dsimp only
  rw [samplingEvent_not_due hdue]
  rfl

end

/-! ## The engine of the next frame -/

/-- The splice of a part whose frame ends, the wait limit apart: a crossfade that has reached its end is over. -/
def Splice.settled (sp : Splice) : Splice :=
  match sp with
  | .crossfading r => if r.x ≤ r.count then .idle else .crossfading r
  | _ => sp

theorem uncrossed_splice (e : Engine) : ∃ voices : Vector Voice 16, e.uncrossed =
    { e with voices := voices, cyc := { e.cyc with splice := e.cyc.splice.settled } }
      ∧ ∀ l : LayerIx, voices[l] = e.voices[l] ∨ voices[l] = (e.voices[l]).unspliced := by
  have hstay : crossfadeEndDue e = false → e.cyc.splice.settled = e.cyc.splice → ∃ voices : Vector Voice 16, e.uncrossed =
      { e with voices := voices, cyc := { e.cyc with splice := e.cyc.splice.settled } }
        ∧ ∀ l : LayerIx, voices[l] = e.voices[l] ∨ voices[l] = (e.voices[l]).unspliced := fun hd hs =>
    ⟨e.voices, by rw [hs]; exact if_neg (by rw [hd]; exact nofun), fun _ => .inl rfl⟩
  cases h : e.cyc.splice with
  | idle =>
    rw [← h]
    exact hstay (by rw [crossfadeEndDue, h]) (by rw [h]; rfl)
  | fetching r =>
    rw [← h]
    exact hstay (by rw [crossfadeEndDue, h]) (by rw [h]; rfl)
  | crossfading r =>
    by_cases hc : r.x ≤ r.count
    · refine ⟨voicesIn r.voices (fun i v => v.leaves (layerLen e i) r) e.voices, ?_, fun l => ?_⟩
      · have hd : crossfadeEndDue e = true := by
          rw [crossfadeEndDue, h]
          exact decide_eq_true hc
        rw [Splice.settled, if_pos hc, ← endCrossfade_eq h]
        exact if_pos hd
      · rw [voicesIn_get]
        split
        · exact .inr (if_neg (by omega))
        · exact .inl rfl
    · rw [← h]
      refine hstay ?_ ?_
      · rw [crossfadeEndDue, h]
        exact decide_eq_false hc
      · rw [h, Splice.settled, if_neg hc]

theorem recoveryDue_unspliced {e : Engine} {l : LayerIx} {voices : Vector Voice 16} {f : Follower} {sp : Splice}
    {heard : Option Heard} (hv : voices[l] = e.voices[l] ∨ voices[l] = (e.voices[l]).unspliced) :
    recoveryDue { e with voices := voices, cyc := { e.cyc with splice := sp }, fol := f, heard := heard } l
      = recoveryDue e l := by
  have hlen : layerLen { e with voices := voices, cyc := { e.cyc with splice := sp }, fol := f, heard := heard } l
    = layerLen e l := rfl
  unfold recoveryDue
  dsimp only
  rw [hlen]
  obtain hv | hv := hv
  · rw [hv]
  · rw [hv]
    rfl

theorem Splice.settled_fetching {sp : Splice} {r : SpliceRec} (h : sp.settled = .fetching r) : sp = .fetching r := by
  unfold Splice.settled at h
  split at h
  · split at h
    · exact nomatch h
    · exact nomatch h
  · exact h

/-- The engine a still part leaves as its frame ends, its slots free. The wait limit may have ended its splice (R21). -/
structure Left (s : State) (e : Engine) : Prop where
  cyc : e.cyc = { s.eng.cyc with splice := e.cyc.splice }
  layers : e.layers = s.eng.layers
  slots : ∀ i : SlotIx, e.slots[i].use = .free
  cross : e.mix.cross = s.eng.mix.cross
  splice : e.cyc.splice = s.eng.cyc.splice.settled
    ∨ ∃ r, s.eng.cyc.splice = .fetching r ∧ 2400 ≤ r.count ∧ e.cyc.splice = .idle
        ∧ ∀ v ∈ r.voices, (e.voices[v]).spl = Run.nil
  calm : s.eng.mix.clipping = none → e.cyc.splice = s.eng.cyc.splice.settled → e.evq = s.eng.evq

theorem Rested.left {s : State} {voices : Vector Voice 16} {f : Follower} {heard : Option Heard} {t : Engine}
    (h : Rested { s.eng with
      voices := voices, cyc := { s.eng.cyc with splice := s.eng.cyc.splice.settled }, fol := f, heard := heard } t) :
    Left s (if waitLimitDue t = true then abandonSplice .waitLimit t else t) := by
  obtain ⟨⟨clipping, reported, window, honly⟩, hslots, hcalm⟩ := h
  have hcyc : t.cyc = { s.eng.cyc with splice := s.eng.cyc.splice.settled } := by rw [honly]
  have hlayers : t.layers = s.eng.layers := by rw [honly]
  have hcross : t.mix.cross = s.eng.mix.cross := by rw [honly]
  by_cases hd : waitLimitDue t = true
  · rw [if_pos hd]
    unfold waitLimitDue at hd
    cases hsp : t.cyc.splice with
    | fetching r =>
      rw [hsp] at hd
      have hcount : 2400 ≤ r.count := of_decide_eq_true (Bool.and_eq_true_iff.1 hd).1
      have hs : s.eng.cyc.splice.settled = .fetching r := by
        rw [← hsp, hcyc]
      rw [abandonSplice_fetching hsp]
      refine ⟨?_, hlayers, hslots, hcross, .inr ⟨r, Splice.settled_fetching hs, hcount, rfl, fun v hv => ?_⟩, fun _ hn => ?_⟩
      · show ({ t.cyc with splice := .idle } : Cycle) = { s.eng.cyc with splice := .idle }
        rw [hcyc]
      · show (voicesIn r.voices (fun _ => Voice.unstreamed) t.voices)[v].spl = Run.nil
        rw [voicesIn_get, if_pos hv]
        rfl
      · rw [hs] at hn
        exact nomatch hn
    | _ => rw [hsp] at hd; exact nomatch hd
  · rw [if_neg hd]
    refine ⟨?_, hlayers, hslots, hcross, .inl ?_, fun hn _ => (hcalm hn).1⟩
    · rw [hcyc]
    · rw [hcyc]

/-- The engine a still part's frame finds. The splice has counted the frame, unless the wait limit has ended it. -/
structure Begun (s : State) (e : Engine) : Prop where
  cyc : e.cyc = { s.eng.cyc with splice := e.cyc.splice }
  heard : e.heard = none
  fol : e.fol = { s.eng.fol with armed := e.fol.armed, arming := e.fol.arming }
  layers : e.layers = s.eng.layers
  slots : ∀ i : SlotIx, e.slots[i].use = .free
  cross : e.mix.cross = s.eng.mix.cross
  splice : e.cyc.splice = countSplice s.eng.cyc.splice.settled
    ∨ ∃ r, s.eng.cyc.splice = .fetching r ∧ 2400 ≤ r.count ∧ s.jumpDue = false ∧ e.cyc.splice = .idle
        ∧ ∀ v ∈ r.voices, (e.voices[v]).spl = Run.nil
  calm : s.eng.mix.clipping = none → e.cyc.splice = countSplice s.eng.cyc.splice.settled → e.evq = s.eng.evq
  due : s.jumpDue = true → ∃ r, s.eng.cyc.splice = .fetching r

theorem Left.begun {s : State} {X : Engine} (h : Left s X) (hp : X.clk.p0Frames = []) (hf : X.fol = s.eng.fol.clocked)
    (hj : s.jumpDue = readyToJump X) : Begun s (openFrame X) := by
  obtain ⟨hcyc, hlayers, hslots, hcross, hsplice, hcalm⟩ := h
  have hbusy : slotBusy X = false := slotBusy_free hslots
  obtain ⟨hclocked, -, -⟩ := clocked_only s.eng.fol
  rw [openFrame_eq hp]
  refine ⟨?_, rfl, ?_, hlayers, hslots, hcross, ?_, fun hn hs => hcalm hn ?_, fun hd => ?_⟩
  · dsimp only
    rw [hbusy, Bool.or_false]
    exact congrArg (fun c : Cycle => { c with splice := countSplice X.cyc.splice }) hcyc
  · dsimp only
    rw [hf]
    unfold Follower.openFrame
    rw [hclocked]
  · obtain hs | ⟨r, hr, hcount, hidle, hnil⟩ := hsplice
    · exact .inl (congrArg countSplice hs)
    · refine .inr ⟨r, hr, hcount, ?_, congrArg countSplice hidle, fun v hv => ?_⟩
      · rw [hj]
        exact (splice_idle hidle).2.2.2.2.1
      · show (X.aimed)[v].spl = Run.nil
        rw [aimed_get]
        exact hnil v hv
  · obtain hs' | ⟨r, hr, -, hidle, -⟩ := hsplice
    · exact hs'
    · dsimp only at hs
      rw [hidle, hr] at hs
      exact nomatch hs
  · rw [hj] at hd
    unfold readyToJump at hd
    split at hd
    next r hr =>
      obtain hs | ⟨r', hr', -⟩ := hsplice
      · exact ⟨r, Splice.settled_fetching (hs.symm.trans hr)⟩
      · exact ⟨r', hr'⟩
    · exact nomatch hd

section
variable {s : State} (h : s.Still) (hrun : s.eng.cyc.state = .running)
include h hrun

/-- The frame of a still part whose cycle runs, from the engine its cycle clock finds. -/
theorem frame_still : ∃ X : Engine, Timed { s.eng.uncrossed with fol := s.eng.fol.clocked, heard := X.heard } X
    ∧ exec .frame s = .next (s.giving (runFrame X)) ∧ s.jumpDue = readyToJump X
    ∧ ∃ heard, X = settleRest { s.eng.uncrossed with fol := s.eng.fol.clocked, heard := heard } := by
  have ha : autoCloseDue s.eng = false := autoCloseDue_open (by rw [hrun]; decide)
  obtain ⟨heard, hsettle⟩ := settle_steady h.toSteady ha
  obtain ⟨voices, splice, hx⟩ := uncrossed_only s.eng
  have htimed : Timed { s.eng.uncrossed with fol := s.eng.fol.clocked, heard := heard }
      (settleRest { s.eng.uncrossed with fol := s.eng.fol.clocked, heard := heard }) :=
    settleRest_timed (by rw [hx]; exact h.pedals)
  obtain ⟨X, hX⟩ : ∃ X, X = settleRest { s.eng.uncrossed with fol := s.eng.fol.clocked, heard := heard } := ⟨_, rfl⟩
  rw [← hX] at htimed hsettle
  have hruns : framesRun s.eng.clk = true := by
    unfold framesRun
    rw [h.frames.2, h.clock.2]
    rfl
  have hclk : X.clk = s.eng.clk := htimed.clk.trans (by rw [hx])
  have hruns' : framesRun (s.giving X).eng.clk = true := (congrArg framesRun hclk).trans hruns
  refine ⟨X, { htimed with heard := rfl }, ?_, ?_, heard, hX⟩
  · rw [frame_runs h.powered h.ports hruns, hsettle]
    unfold State.newFrame
    rw [if_pos hruns']
    unfold State.finishWrite
    have hjob : ((s.giving X).onEng runFrame).store.job = none := h.store
    rw [hjob]
    rfl
  · unfold State.jumpDue
    dsimp only
    rw [settlePorts_calm h.ports, hsettle, hruns, hruns']
    rfl

theorem frame_begun (hfree : ∀ i : SlotIx, s.eng.slots[i].use = .free) : ∃ (O : Engine) (adv : Nat), Begun s O
    ∧ exec .frame s = .next (s.giving (frameOnsets (tickGrant (tickSampling (frameAudio adv
        (countCues .frame 0 (noteGrid (cycleFrame s.jumpDue O)))))))) := by
  obtain ⟨X, htimed, hexec, hjump, heard, hX⟩ := frame_still h hrun
  obtain ⟨voices, hx, hvoices⟩ := uncrossed_splice s.eng
  rw [hx] at htimed hX
  obtain ⟨t, ht, hlimit⟩ := settleRest_rested (e := { s.eng with
      voices := voices, cyc := { s.eng.cyc with splice := s.eng.cyc.splice.settled }, fol := s.eng.fol.clocked
      heard := heard }) (fun l => (recoveryDue_unspliced (hvoices l)).trans (h.voices l)) hfree h.pedals
  rw [← hX] at hlimit
  have hleft : Left s X := hlimit ▸ ht.left
  rw [runFrame_eq, ← hjump] at hexec
  exact ⟨_, _, hleft.begun (htimed.clk.symm ▸ h.waiting) htimed.fol hjump, hexec⟩

end

end Sys2Proof.Machine

end

section
/-! What the rest of a frame keeps of what its cycle clock left: the cycle, the follower, the reports and empty streams. -/

set_option Elab.async false

namespace Sys2Proof.Machine

/-! ## Reports stay, and so does the decision -/

/-- Engine `t` has every report of engine `a`, and its follower has made the decision when that of `a` has. -/
structure Follows (a t : Engine) : Prop where
  told : ∀ x ∈ a.evq.list, x ∈ t.evq.list
  decided : t.fol.decisionMade = a.fol.decisionMade

theorem mem_queueReport {x : Report} {q : EventQueue} (ev : Event) (k p : Nat) (h : x ∈ q.list) :
    x ∈ (queueReport ev k p q).list := by
  unfold queueReport
  split
  · split
    · exact List.mem_append_left _ h
    · exact h
  · exact h

section
variable {a e : Engine}

theorem Follows.refl (a : Engine) : Follows a a := ⟨fun _ h => h, rfl⟩

theorem Follows.keep (h : Follows a e) {t : Engine} (hq : t.evq = e.evq) (hd : t.fol.decisionMade = e.fol.decisionMade) :
    Follows a t :=
  ⟨fun x hx => hq ▸ h.told x hx, hd.trans h.decided⟩

theorem Follows.post (h : Follows a e) (ev : Event) : Follows a (post ev e) :=
  ⟨fun x hx => mem_queueReport ev _ _ (h.told x hx), h.decided⟩

theorem Follows.onFollower {f : Engine → Engine} (h : Follows a (f e)) : Follows a (onFollower f e) := by
  obtain ⟨heard, he⟩ := onFollower_only f e
  rw [he]
  exact h.keep rfl rfl

theorem Follows.coast (h : Follows a e) : Follows a (coast e) := by
  refine Follows.onFollower ?_
  split
  · unfold setFollowState
    dsimp only
    split
    · exact h.keep rfl rfl
    · exact (h.keep (t := { e with fol := { e.fol with state := .waiting, err := 0, delta := 0, beatCount := 0, coastDue := false } })
        rfl rfl).post _
  · exact h

theorem Follows.trimWith (h : Follows a e) (n : Nat) : Follows a (trimWith n e) := by
  unfold Machine.trimWith
  split
  · exact h.keep rfl rfl
  · exact h

theorem Follows.countCues (h : Follows a e) (b : Boundary) (w : Nat) : Follows a (countCues b w e) := h.keep rfl rfl

theorem Follows.measureOnset (h : Follows a e) (k : OnsetKind) : Follows a (measureOnset k e) := by
  refine Follows.onFollower ?_
  dsimp only
  split
  · exact h
  next g _ =>
    have h1 : Follows a { e with fol := { e.fol with
        lastOnset := some { err := onsetError g, kind := k, accepted := decide ((onsetError g).natAbs ≤ e.fol.window) } } } :=
      h.keep rfl rfl
    split
    · unfold acceptOnset
      extract_lets f e1 e2
      have h2 : Follows a e1 := h1.keep rfl rfl
      refine Follows.trimWith ?_ _
      unfold e2
      split
      · exact h2.post _
      · exact h2
    · exact h1

theorem Follows.handOnset (h : Follows a e) (k : OnsetKind) (hb : e.cyc.state ≠ .baseCapture) : Follows a (handOnset k e) := by
  unfold Machine.handOnset
  rw [autoClose_not_due (autoCloseDue_open hb)]
  exact (h.coast.countCues .onset 0).measureOnset k

theorem frameOnsets_follows (ho : e.cyc.owedTaps = 0) (hb : e.cyc.state ≠ .baseCapture) : Follows e (frameOnsets e) := by
  have hcyc : ({ e.cyc with owedTaps := 0 } : Cycle) = e.cyc := by rw [← ho]
  have hd : Follows e (detect e).1 ∧ (detect e).1.cyc = e.cyc := by
    unfold detect
    split
    · exact ⟨.refl e, rfl⟩
    · split
      · exact ⟨(Follows.refl e).keep rfl rfl, rfl⟩
      · split
        · exact ⟨(Follows.refl e).keep rfl rfl, rfl⟩
        · exact ⟨.refl e, rfl⟩
  unfold frameOnsets
  dsimp only
  rw [ho, hcyc]
  show Follows e (match detectorLane e.fol with
    | some l => if (detect e).2 = true then hearOnset l e (detect e).1 else (detect e).1
    | none => (detect e).1)
  split
  · split
    · unfold hearOnset
      exact (hd.1.handOnset .detector (by rw [hd.2]; exact hb)).keep rfl rfl
    · exact hd.1
  · exact hd.1

theorem Follows.beatBoundary (h : Follows a e) (w : Nat) : Follows a (beatBoundary w e) := by
  unfold Machine.beatBoundary followBeat
  refine Follows.onFollower ?_
  have h1 := (h.post (.beat e.cyc.beat)).countCues .beat w
  dsimp only
  split
  · exact h1.keep rfl rfl
  · exact h1

theorem Follows.cycleBoundary (h : Follows a e) (w : Nat) : Follows a (cycleBoundary w e) := by
  refine eachLayer_induct (I := Follows a) (fun l t ht => ?_) ?_
  · split
    · exact (ht.post (.wrap l)).countCues (.layer l) w
    · exact ht
  · exact ((h.keep (t := { e with mix := { e.mix with clipReported := false } }) rfl rfl).countCues .cycle w).beatBoundary w

end

/-! ## Empty streams without a splice -/

theorem voiceFrame_unstreamed {v : Voice} (fp : FramePos) (c : Bool) (n : Nat) (h : v.spl = Run.nil) :
    (voiceFrame fp .alone c n v).spl = Run.nil := by
  have htake : (voiceTake fp .alone v).spl = Run.nil := by
    unfold voiceTake
    dsimp only
    split
    · exact h
    · split
      · exact h
      · split
        · exact h
        · exact h
  unfold voiceFrame
  dsimp only
  generalize voiceTake fp .alone v = v0 at htake
  have hshort : (voiceShort fp.running v0).spl = Run.nil := by
    unfold voiceShort
    split
    · exact htake
    · split
      · exact htake
      · exact htake
    · split
      · exact htake
      · exact htake
  split
  · rfl
  · generalize voiceShort fp.running v0 = v1 at hshort
    show (voicePresent fp .alone v1).spl = Run.nil
    unfold voicePresent
    split
    · exact hshort
    · exact hshort
    · exact hshort
    · dsimp only
      split
      · split
        · exact hshort
        · exact hshort
      · split
        · exact hshort
        · exact hshort

/-! ## The rest of a frame -/

/-- Engine `t` is `e` once a frame is done after its cycle clock. -/
structure Finished (e t : Engine) : Prop where
  cyc : t.cyc = { e.cyc with onset := e.cyc.noted }
  fol : t.heard = none → t.fol = { e.fol with
    armed := t.fol.armed, arming := t.fol.arming, holdCount := t.fol.holdCount }
  follows : Follows e t
  streams : e.cyc.splice = .idle → ∀ l : LayerIx, e.voices[l].spl = Run.nil → t.voices[l].spl = Run.nil

/-- Engine `t` is `e` between its cycle clock and its onsets. -/
structure Sounding (e t : Engine) : Prop where
  cyc : t.cyc = e.cyc
  fol : t.fol = e.fol
  heard : t.heard = e.heard
  told : ∀ x ∈ e.evq.list, x ∈ t.evq.list
  streams : e.cyc.splice = .idle → ∀ l : LayerIx, e.voices[l].spl = Run.nil → t.voices[l].spl = Run.nil

section
variable {a e : Engine}

theorem Sounding.refl (e : Engine) : Sounding e e := ⟨rfl, rfl, rfl, fun _ h => h, fun _ _ h => h⟩

theorem Sounding.runVoice (h : Sounding a e) (adv : Nat) (l : LayerIx) : Sounding a (runVoice adv l e) := by
  obtain ⟨hcyc, hfol, hheard, htold, hstreams⟩ := h
  have hvoices : a.cyc.splice = .idle → ∀ i : LayerIx, a.voices[i].spl = Run.nil →
      (upd e.voices l fun _ => voiceFrame (framePosOf e adv l) (streamOf e.cyc.splice l) e.cyc.splice.crossing
        (ceilDiv 4096 e.mix.fade) e.voices[l])[i].spl = Run.nil := fun hs i hi => by
    by_cases hl : l = i
    · subst hl
      refine (congrArg Voice.spl (upd_self e.voices l _)).trans ?_
      rw [hcyc, hs]
      exact voiceFrame_unstreamed _ _ _ (hstreams hs l hi)
    · exact (congrArg Voice.spl (upd_other e.voices l i _ hl)).trans (hstreams hs i hi)
  unfold Machine.runVoice
  dsimp only
  split
  · exact ⟨hcyc, hfol, hheard, fun x hx => mem_queueReport _ _ _ (htold x hx), hvoices⟩
  · exact ⟨hcyc, hfol, hheard, htold, hvoices⟩

theorem Sounding.mixFrame (h : Sounding a e) : Sounding a (mixFrame e) := by
  unfold Machine.mixFrame
  extract_lets e1
  have h1 : Sounding a { e1 with mix := e1.mix.form (frameSums e1) } := { h with }
  unfold tickWindow
  split
  · exact h1
  · exact { h1 with }

theorem frame_sounding (adv : Nat) (e : Engine) : Sounding e (tickGrant (tickSampling (frameAudio adv e))) := by
  have haudio : Sounding e (frameAudio adv e) := by
    unfold frameAudio
    rw [eachQuad_runLane, eachQuad_removeFrame]
    dsimp only
    generalize quadIxs.foldl _ e.ports = ports
    generalize quadIxs.foldl _ e.lanes = lanes
    have h0 : Sounding e { e with ports := ports, lanes := lanes } := ⟨rfl, rfl, rfl, fun _ h => h, fun _ _ h => h⟩
    have h1 : Sounding e (eachSlot formWrites { e with ports := ports, lanes := lanes }) :=
      eachSlot_induct (fun _ _ h => ⟨h.cyc, h.fol, h.heard, h.told, h.streams⟩) h0
    exact Sounding.mixFrame (eachLayer_induct (fun l _ h => h.runVoice adv l) h1)
  generalize frameAudio adv e = E at haudio
  have htick : Sounding e (tickSampling E) := by
    unfold tickSampling
    split
    · exact { haudio with }
    · exact { haudio with }
  exact { htick with }

theorem frame_finished (adv : Nat) (hh : e.heard = none) (ho : e.cyc.owedTaps = 0) (hb : e.cyc.state ≠ .baseCapture) :
    Finished e (frameOnsets (tickGrant (tickSampling (frameAudio adv (countCues .frame 0 (noteGrid e)))))) := by
  have hstart : Sounding { e with cyc := { e.cyc with onset := e.cyc.noted } }
      (countCues .frame 0 (noteGrid e)) := by
    rw [countCues_unheard (e := noteGrid e) hh]
    exact { Sounding.refl { e with cyc := { e.cyc with onset := e.cyc.noted } } with }
  have hrun := frame_sounding adv (countCues .frame 0 (noteGrid e))
  generalize countCues .frame 0 (noteGrid e) = E at hstart hrun
  generalize tickGrant (tickSampling (frameAudio adv E)) = R at hrun
  have hcyc : R.cyc = { e.cyc with onset := e.cyc.noted } := hrun.cyc.trans hstart.cyc
  have hfol : R.fol = e.fol := hrun.fol.trans hstart.fol
  have howed : R.cyc.owedTaps = 0 := by rw [hcyc]; exact ho
  have hopen : R.cyc.state ≠ .baseCapture := by rw [hcyc]; exact hb
  have hfollows := frameOnsets_follows howed hopen
  obtain ⟨fol, evq, heard, honsets, hquiet⟩ := frameOnsets_open howed hopen (hrun.heard.trans (hstart.heard.trans hh))
  rw [honsets] at hfollows ⊢
  refine ⟨hcyc, fun hn => ?_, ⟨fun x hx => ?_, hfollows.decided.trans (by rw [hfol])⟩, fun hs l hl => ?_⟩
  · rw [← hfol]
    exact hquiet hn
  · exact hfollows.told x (hrun.told x (hstart.told x hx))
  · exact hrun.streams (by rw [hstart.cyc]; exact hs) l (hstart.streams hs l hl)

end

end Sys2Proof.Machine

end

section
/-! The beats that a frame reaches, its jump and its end of the cycle while a splice stands (R14, R15, R19 to R22, R34, R35). -/

set_option Elab.async false

namespace Sys2Proof.Machine

/-! ## The beats up to a position (R14) -/

/-- The beat index `b` is what a position `top` brings the beat index to. -/
structure Reaches (cy : Cycle) (top b : Nat) : Prop where
  ge : cy.beat ≤ b
  at_top : b = cy.beat ∨ (b < cy.beats ∧ b * cy.beatLength ≤ top)
  last : cy.beats ≤ b + 1 ∨ top < (b + 1) * cy.beatLength

theorem Reaches.unique {cy : Cycle} {top a b : Nat} (ha : Reaches cy top a) (hb : Reaches cy top b) : a = b := by
  have hle : ∀ {a b : Nat}, Reaches cy top a → Reaches cy top b → a ≤ b := fun {a b} ha hb => by
    by_contra hn
    have hlt : b + 1 ≤ a := by omega
    obtain h | ⟨h1, h2⟩ := ha.at_top
    · have := hb.ge
      omega
    · have hmul := Nat.mul_le_mul_right cy.beatLength hlt
      obtain h | h := hb.last
      · omega
      · omega
  exact Nat.le_antisymm (hle ha hb) (hle hb ha)

/-- Positions one after the other bring the beat index to what the farther of them does. -/
theorem Reaches.then {cy : Cycle} {q p a b : Nat} (ha : Reaches cy q a) (hb : Reaches { cy with beat := a } p b) :
    Reaches cy (max q p) b := by
  have hge : a ≤ b := hb.ge
  have hmul : (a + 1) * cy.beatLength ≤ (b + 1) * cy.beatLength := Nat.mul_le_mul_right _ (by omega)
  refine ⟨ha.ge.trans hge, ?_, ?_⟩
  · have hat : b = a ∨ b < cy.beats ∧ b * cy.beatLength ≤ p := hb.at_top
    obtain rfl | ⟨h1, h2⟩ := hat
    · exact ha.at_top.imp_right fun ⟨h1, h2⟩ => ⟨h1, h2.trans (Nat.le_max_left _ _)⟩
    · exact .inr ⟨h1, h2.trans (Nat.le_max_right _ _)⟩
  · have hlast : cy.beats ≤ b + 1 ∨ p < (b + 1) * cy.beatLength := hb.last
    obtain h | h := hlast
    · exact .inl h
    · obtain h' | h' := ha.last
      · exact .inl (by omega)
      · exact .inr (by omega)

/-- The follower has counted at most `n` BEAT boundaries (R32). -/
structure Follower.Counts (f : Follower) (n : Nat) (g : Follower) : Prop where
  only : g = { f with beatCount := g.beatCount, coastDue := g.coastDue }
  count : g.beatCount ≤ f.beatCount + n
  due : f.coastDue = false → f.beatCount + n < f.coastBeats → g.coastDue = false

theorem Follower.Counts.refl (f : Follower) : f.Counts 0 f := ⟨rfl, le_refl _, fun h _ => h⟩

theorem Follower.Counts.trans {f g h : Follower} {m n : Nat} (hg : f.Counts m g) (hh : g.Counts n h) :
    f.Counts (m + n) h := by
  obtain ⟨honly, hcount, hdue⟩ := hg
  obtain ⟨honly', hcount', hdue'⟩ := hh
  have hbeats : g.coastBeats = f.coastBeats := by rw [honly]
  refine ⟨?_, by omega, fun h1 h2 => hdue' (hdue h1 (by omega)) (by omega)⟩
  rw [honly']
  dsimp only
  rw [honly]

theorem Follower.counts_counted (f : Follower) : f.Counts 1 f.counted := by
  unfold Follower.counted
  split
  · refine ⟨rfl, ?_, fun _ h2 => decide_eq_false ?_⟩
    · show min 64 (f.beatCount + 1) ≤ _
      omega
    · omega
  · exact ⟨rfl, by omega, fun h _ => h⟩

/-- The queue holds what it held and up to `n` reports more. -/
structure EventQueue.Grows (q : EventQueue) (n : Nat) (q' : EventQueue) : Prop where
  mask : q'.mask = q.mask
  length : q'.list.length ≤ q.list.length + n
  told : ∀ x ∈ q.list, x ∈ q'.list

theorem EventQueue.Grows.refl (q : EventQueue) : q.Grows 0 q := ⟨rfl, le_refl _, fun _ h => h⟩

theorem EventQueue.Grows.trans {a b c : EventQueue} {m n : Nat} (h : a.Grows m b) (h' : b.Grows n c) : a.Grows (m + n) c :=
  ⟨h'.mask.trans h.mask, by have := h.length; have := h'.length; omega, fun x hx => h'.told x (h.told x hx)⟩

theorem queueReport_grows (q : EventQueue) (ev : Event) (k p : Nat) : q.Grows 1 (queueReport ev k p q) := by
  refine ⟨?_, ?_, fun x hx => mem_queueReport _ _ _ hx⟩
  · unfold queueReport
    split
    · split
      · rfl
      · rfl
    · rfl
  · unfold queueReport
    split
    · split
      · rw [List.length_append, List.length_singleton]
      · exact Nat.le_succ _
    · exact Nat.le_succ _

/-- A report that finds room in the queue (R181). -/
theorem queueReport_tells {q q' : EventQueue} {n : Nat} (h : q.Grows n q') (ev : Event) (k p : Nat)
    (hm : q.mask.getLsbD (ev.code - 1) = true) (hroom : q.list.length + n < 24) :
    ∃ x ∈ (queueReport ev k p q').list, x.event = ev ∧ x.k = k ∧ x.p = p := by
  obtain ⟨hmask, hlen, -⟩ := h
  have hon : q'.enables ev = true := by
    show q'.mask.getLsbD (ev.code - 1) = true
    rw [hmask]
    exact hm
  have hlt : q'.list.length < Config.maxReports := (by omega : q'.list.length < 24)
  unfold queueReport
  rw [if_pos hon, if_pos hlt]
  exact ⟨_, List.mem_append_right _ (List.mem_singleton_self _), rfl, rfl, rfl⟩

/-- Engine `t` is `e` with the beat index brought up to `b`. -/
structure Brought (e : Engine) (b : Nat) (t : Engine) : Prop where
  only : t = { e with cyc := { e.cyc with beat := b }, evq := t.evq, cues := t.cues, fol := t.fol }
  fol : e.fol.Counts (b - e.cyc.beat) t.fol
  evq : e.evq.Grows (b - e.cyc.beat) t.evq

section
variable {e : Engine}

theorem fireBeats_brings (q fuel : Nat) (hh : e.heard = none) : ∃ b, Brought e b (fireBeats q fuel e) ∧ e.cyc.beat ≤ b
    ∧ (b = e.cyc.beat ∨ (b < e.cyc.beats ∧ b * e.cyc.beatLength ≤ q))
    ∧ ((e.cyc.beats ≤ b + 1 ∨ q < (b + 1) * e.cyc.beatLength) ∨ b = e.cyc.beat + fuel) := by
  induction fuel generalizing e with
  | zero =>
    refine ⟨e.cyc.beat, ⟨rfl, ?_, ?_⟩, le_refl _, .inl rfl, .inr rfl⟩
    · rw [Nat.sub_self]
      exact .refl _
    · rw [Nat.sub_self]
      exact .refl _
  | succ fuel ih =>
    rw [fireBeats_succ]
    split
    next h =>
      rw [beatBoundary_unheard (by exact hh)]
      obtain ⟨b, ⟨honly, hfol, hevq⟩, hge, hat, hlast⟩ := ih (e := { e with
        cyc := { e.cyc with beat := e.cyc.beat + 1 }
        evq := queueReport (.beat (e.cyc.beat + 1)) e.cyc.k e.cyc.p e.evq
        cues := { e.cues with list := countList .beat 0 e.cues.list }, fol := e.fol.counted }) hh
      have hge : e.cyc.beat + 1 ≤ b := hge
      have hstep : b - e.cyc.beat = 1 + (b - (e.cyc.beat + 1)) := by omega
      refine ⟨b, ⟨honly, ?_, ?_⟩, by omega, .inr ?_, hlast.imp_right fun h => h.trans (by dsimp only; omega)⟩
      · rw [hstep]
        exact e.fol.counts_counted.trans hfol
      · rw [hstep]
        exact (queueReport_grows _ _ _ _).trans hevq
      · obtain hb | hb := hat
        · rw [hb]
          exact h
        · exact hb
    next h =>
      refine ⟨e.cyc.beat, ⟨rfl, ?_, ?_⟩, le_refl _, .inl rfl, .inl ?_⟩
      · rw [Nat.sub_self]
        exact .refl _
      · rw [Nat.sub_self]
        exact .refl _
      · by_contra hn
        rw [not_or] at hn
        exact h ⟨by omega, by omega⟩

theorem bringBeats_brings (q : Nat) (hh : e.heard = none) : ∃ b, Brought e b (bringBeats q e) ∧ Reaches e.cyc q b := by
  obtain ⟨b, hb, hge, hat, hlast⟩ := fireBeats_brings q e.cyc.beats hh
  refine ⟨b, hb, hge, hat, hlast.elim id fun h => ?_⟩
  obtain h' | ⟨h', -⟩ := hat
  · exact .inl (by omega)
  · exact .inl (by omega)

end

end Sys2Proof.Machine

end

section
/-! The cycle clock of a frame while a splice stands, or is asked for (R13 to R15, R19 to R22, R34, R35). -/

set_option Elab.async false

namespace Sys2Proof.Machine

/-! ## The parts of the advance -/

section
variable {e : Engine}

theorem decideSplice_made (h : e.fol.decisionMade = true) : decideSplice e = e := by
  unfold decideSplice
  exact if_pos h

theorem requestSplice_taken {j : Int} (hs : e.cyc.state = .running) (hi : e.cyc.splice = .idle)
    (hd : e.cyc.spliceDone = false) (hc : e.cyc.captureThisPass = false) (hb : slotBusy e = false) :
    (requestSplice j e).cyc.splice = .fetching { j := j, x := e.mix.cross, voices := playingVoices e, count := 0 } := by
  have hfold : ∀ (vs : List LayerIx) (E : Engine), (vs.foldl (fun e v => modVoice v (fun x =>
      { x with spl := { base := backBy (layerLen e v) ((layerPos e v).getD 0) j, frames := [] } }) e) E).cyc = E.cyc := fun vs => by
    induction vs with
    | nil => exact fun E => rfl
    | cons v rest ih =>
      intro E
      rw [List.foldl_cons, ih]
      rfl
  unfold requestSplice
  rw [if_pos ⟨hs, hi, hd, hc, hb⟩]
  dsimp only
  rw [hfold]

theorem requestSplice_dropped {j : Int}
    (h : e.cyc.splice ≠ .idle ∨ e.cyc.spliceDone = true ∨ e.cyc.captureThisPass = true) : requestSplice j e = e := by
  unfold requestSplice
  refine if_neg fun ⟨_, hi, hd, hc, _⟩ => ?_
  rw [hd, hc] at h
  exact h.elim (fun h => h hi) fun h => h.elim nofun nofun

/-- A decision made on a frame: a distance of 0 asks for nothing (R34). -/
theorem decideSplice_asks (h : e.fol.decisionMade = false) : decideSplice e =
    if spliceWanted e.fol = 0 then { e with fol := { e.fol with decisionMade := true } }
    else requestSplice (spliceWanted e.fol) { e with fol := { e.fol with decisionMade := true } } := by
  unfold decideSplice
  rw [if_neg (by rw [h]; exact nofun)]

/-- The follower after a jump of J (R35). -/
def Follower.leapt (f : Follower) (beatLength : Nat) (j : Int) : Follower :=
  if f.state = .tracking then
    { f with err := f.err - j * 65536, delta := trimOf { f with err := f.err - j * 65536 } beatLength }
  else f

theorem followJump_eq (j : Int) (e : Engine) : followJump j e = { e with fol := e.fol.leapt e.cyc.beatLength j } := by
  unfold followJump Follower.leapt
  by_cases h : e.fol.state = .tracking
  · rw [if_pos h, if_pos h]
    unfold recomputeTrim trimWith
    exact if_pos h
  · rw [if_neg h, if_neg h]

/-- What follows a jump, the voices and their refills apart. -/
theorem landJump_only (r : SpliceRec) (e : Engine) : ∃ voices mem, landJump r e =
    { post (.splice r.j) (followJump r.j (bringBeats e.cyc.p e)) with voices := voices, mem := mem } := by
  unfold landJump
  generalize post (.splice r.j) (followJump r.j (bringBeats e.cyc.p e)) = E
  refine eachLayer_induct (I := fun t => ∃ voices mem, t = { E with voices := voices, mem := mem }) (fun l t ht => ?_)
    ⟨E.voices, E.mem, rfl⟩
  obtain ⟨voices, mem, rfl⟩ := ht
  obtain ⟨f, hf⟩ := jumpVoice_only r l { E with voices := voices, mem := mem }
  exact ⟨_, _, hf⟩

/-- The wrap of a cycle, from the engine that has abandoned the splice being fetched (R15, R21). -/
theorem wrapCycle_abandons (hh : e.heard = none) :
    let A := abandonSplice .cycleEnd { e with cyc := e.cyc.wrap (slotBusy e) }
    (wrapCycle e).cyc = A.cyc ∧ (wrapCycle e).voices = A.voices ∧ (wrapCycle e).heard = none
      ∧ ∀ x ∈ A.evq.list, x ∈ (wrapCycle e).evq.list := by
  intro A
  have hA : A.heard = none := by
    unfold A abandonSplice
    dsimp only
    split
    · rw [discardStreams_eq]
      exact hh
    · exact hh
  obtain ⟨B, hB⟩ : ∃ B, B = if e.cyc.pendingBeats.isSome = true then recomputeTrim (clearDecision A) else clearDecision A :=
    ⟨_, rfl⟩
  have hclear : clearDecision A = { A with fol := { A.fol with decisionMade := false } } := onFollower_unheard hA _
  have hsame : ∃ fol, B = { A with fol := fol } := by
    rw [hB, hclear]
    split
    · unfold recomputeTrim trimWith
      split
      · exact ⟨_, rfl⟩
      · exact ⟨_, rfl⟩
    · exact ⟨_, rfl⟩
  have hwrap : wrapCycle e = cycleBoundary 0 B := by
    rw [hB]
    rfl
  obtain ⟨fol, hB⟩ := hsame
  have hBh : B.heard = none := by rw [hB]; exact hA
  have hfollows : Follows B (cycleBoundary 0 B) := (Follows.refl B).cycleBoundary 0
  rw [hwrap]
  have hform := cycleBoundary_unheard hBh 0
  generalize cycleBoundary 0 B = W at hfollows hform
  refine ⟨?_, ?_, ?_, fun x hx => hfollows.told x (by rw [hB]; exact hx)⟩
  · rw [hform, hB]
  · rw [hform, hB]
  · rw [hform]
    exact hBh

end

/-! ## The cycle clock on one frame -/

section
variable {e e1 : Engine} {c q : Nat} (ho : e.cyc.owedBoundary = false) (hs : e.cyc.state = .running) (hc : e.cyc.len = some c)
  (he : e1 = { e with cyc := e.cyc.advance e.fol.delta }) (hq : e1.cyc.p = q)
include ho hs hc he hq

theorem cycleFrame_jumping (jump : Bool) : cycleFrame jump e =
    if c ≤ q then wrapCycle e1
    else
      let out := if jump = true then takeJump e1 else (e1, none)
      let e2 := bringBeats q out.1
      let e3 := if crossedMiddle e2.cyc.c e.cyc.p q = true then decideSplice e2 else e2
      match out.2 with
      | none => e3
      | some r => landJump r e3 := by
  have hlen : e1.cyc.c = c := by
    rw [he]
    show e.cyc.len.getD 0 = c
    rw [hc]
    rfl
  subst hq he
  unfold cycleFrame
  rw [if_neg (by rw [ho]; exact nofun), if_pos hs, ← hlen]
  rfl

/-- A frame of a follower that has made its decision, on which no jump is made because it would reach the end (R22). -/
theorem cycleFrame_refuses {r : SpliceRec} (hlt : q < c) (hh : e.heard = none) (hd : e.fol.decisionMade = true)
    (hr : e.cyc.splice = .fetching r) (hj : (c : Int) ≤ q - r.j) :
    cycleFrame true e = bringBeats q (abandonSplice .cycleEnd e1) := by
  have hr1 : e1.cyc.splice = .fetching r := by rw [he]; exact hr
  have hlen : e1.cyc.c = c := by
    rw [he]
    show e.cyc.len.getD 0 = c
    rw [hc]
    rfl
  have htake : takeJump e1 = (abandonSplice .cycleEnd e1, none) := by
    unfold takeJump
    rw [hr1]
    dsimp only
    rw [hlen, hq]
    exact if_pos hj
  have hA : (abandonSplice .cycleEnd e1).heard = none ∧ (abandonSplice .cycleEnd e1).fol = e.fol := by
    rw [abandonSplice_fetching hr1, he]
    exact ⟨hh, rfl⟩
  obtain ⟨b, hb, -⟩ := bringBeats_brings q hA.1
  have hmade : (bringBeats q (abandonSplice .cycleEnd e1)).fol.decisionMade = true := by
    rw [hb.fol.only]
    exact (congrArg Follower.decisionMade hA.2).trans hd
  rw [cycleFrame_jumping ho hs hc he hq true, if_neg (by omega)]
  dsimp only
  rw [if_pos rfl, htake]
  dsimp only
  rw [decideSplice_made hmade, ite_self]

/-- The frame of the jump (R22). -/
theorem cycleFrame_jumps {r : SpliceRec} (hlt : q < c) (hh : e.heard = none) (hd : e.fol.decisionMade = true)
    (hr : e.cyc.splice = .fetching r) (hj : ¬(c : Int) ≤ q - r.j) :
    cycleFrame true e = landJump r (bringBeats q { e1 with cyc := e1.cyc.jump r }) := by
  have hr1 : e1.cyc.splice = .fetching r := by rw [he]; exact hr
  have hlen : e1.cyc.c = c := by
    rw [he]
    show e.cyc.len.getD 0 = c
    rw [hc]
    rfl
  have htake : takeJump e1 = ({ e1 with cyc := e1.cyc.jump r }, some r) := by
    unfold takeJump
    rw [hr1]
    dsimp only
    rw [hlen, hq]
    exact if_neg hj
  have hA : ({ e1 with cyc := e1.cyc.jump r } : Engine).heard = none
      ∧ ({ e1 with cyc := e1.cyc.jump r } : Engine).fol = e.fol := by
    rw [he]
    exact ⟨hh, rfl⟩
  rw [cycleFrame_jumping ho hs hc he hq true, if_neg (by omega)]
  dsimp only
  rw [if_pos rfl, htake]
  dsimp only
  generalize ({ e1 with cyc := e1.cyc.jump r } : Engine) = A at hA
  obtain ⟨b, hb, -⟩ := bringBeats_brings q hA.1
  have hmade : (bringBeats q A).fol.decisionMade = true := by
    rw [hb.fol.only]
    exact (congrArg Follower.decisionMade hA.2).trans hd
  rw [decideSplice_made hmade, ite_self]

/-- A frame without a jump that carries the position to the middle of the cycle (R34). -/
theorem cycleFrame_decides (hlt : q < c) (hh : e.heard = none) (h1 : e.cyc.p < c / 2) (h2 : c / 2 ≤ q) :
    cycleFrame false e = decideSplice (bringBeats q e1) := by
  obtain ⟨b, hb, -⟩ := bringBeats_brings (e := e1) q (by rw [he]; exact hh)
  have hlen : (bringBeats q e1).cyc.c = c := by
    rw [hb.only, he]
    show e.cyc.len.getD 0 = c
    rw [hc]
    rfl
  rw [cycleFrame_jumping ho hs hc he hq false, if_neg (by omega)]
  dsimp only
  rw [if_neg nofun]
  dsimp only
  rw [hlen]
  exact if_pos (decide_eq_true ⟨h1, h2⟩)

end

end Sys2Proof.Machine

end

section
/-! The frames of SpliceSteps: the end of the cycle, the jump, and one that would reach it (R15, R20 to R22, R35). -/

set_option Elab.async false

namespace Sys2Proof.Machine

/-- The cycle of a frame before its boundaries: position, fraction, and the splice as the frame finds it. -/
theorem Begun.advances {s : State} {e : Engine} (h : Begun s e) {sum : Nat}
    (hsum : sum = (s.eng.cyc.frac + (65536 + s.eng.fol.delta)).toNat) : e.cyc.advance e.fol.delta =
      { s.eng.cyc with p := s.eng.cyc.p + sum / 65536, frac := sum % 65536, splice := e.cyc.splice } := by
  have hdelta : e.fol.delta = s.eng.fol.delta := by rw [h.fol]
  rw [hdelta, h.cyc, hsum]
  rfl

section
variable {s : State} (h : s.Still) (hrun : s.eng.cyc.state = .running) {c : Nat} (hc : s.eng.cyc.len = some c)
  (hfree : ∀ i : SlotIx, s.eng.slots[i].use = .free) {sum q : Nat}
  (hsum : sum = (s.eng.cyc.frac + (65536 + s.eng.fol.delta)).toNat) (hq : q = s.eng.cyc.p + sum / 65536)

/-- What the frame of a still part without a capture does after its cycle clock. -/
structure Ticked (s : State) (O e1 C : Engine) (q : Nat) (t : State) : Prop where
  begun : Begun s O
  clock : C = cycleFrame s.jumpDue O
  moved : e1 = { O with cyc := O.cyc.advance O.fol.delta }
  at_q : e1.cyc.p = q
  exec : exec .frame s = .next t
  finished : C.heard = none → C.cyc.owedTaps = s.eng.cyc.owedTaps → C.cyc.state = .running → Finished C t.eng

include h hrun hfree hsum hq in
theorem frame_ticked : ∃ O e1 C t, Ticked s O e1 C q t := by
  obtain ⟨O, adv, hB, hexec⟩ := frame_begun h hrun hfree
  have hadv := hB.advances hsum
  generalize hC : cycleFrame s.jumpDue O = C at hexec
  have hfin := frame_finished (e := C) adv
  generalize frameOnsets (tickGrant (tickSampling (frameAudio adv (countCues .frame 0 (noteGrid C))))) = T at hexec hfin
  refine ⟨O, { O with cyc := O.cyc.advance O.fol.delta }, C, s.giving T, hB, hC.symm, rfl, ?_, hexec, fun hh ho hs => ?_⟩
  · show (O.cyc.advance O.fol.delta).p = q
    rw [hadv, hq]
  · exact hfin hh (ho.trans h.owed.2) (by rw [hs]; exact nofun)

/-- The cycle as a frame that runs leaves it, with the grid it notes. -/
theorem Finished.cyc_noted {C t : Engine} {cyc : Cycle} (hf : Finished C t) (hC : C.cyc = cyc) (hs : cyc.state = .running)
    (hc : cyc.len = some c) : t.cyc = { cyc with onset := some { p := cyc.p, len := c, beats := cyc.beats } } := by
  have hnoted : cyc.noted = some { p := cyc.p, len := c, beats := cyc.beats } := by
    rw [Cycle.noted, if_pos hs, Cycle.c, hc]
    rfl
  rw [hf.cyc, hC, hnoted]

variable {r : SpliceRec} (hr : s.eng.cyc.splice = .fetching r)

include h hrun hc hfree hsum hq hr in
/-- The frame that carries the position over the end of the cycle (R15, R21). -/
theorem frame_ends_splice (hle : c ≤ q) : ∃ t, exec .frame s = .next t ∧ (∀ v ∈ r.voices, (t.eng.voices[v]).spl = Run.nil)
    ∧ (r.count < 2400 → s.eng.mix.clipping = none →
        s.tellsOf t (.spliceSkipped r.j .cycleEnd) 0 ((s.eng.cyc.k + 1) % 4294967296) (q - c))
    ∧ t.eng.cyc = { s.eng.cyc with
        p := q - c, frac := sum % 65536, k := (s.eng.cyc.k + 1) % 4294967296, m := (s.eng.cyc.m + 1) % 24,
        beats := s.eng.cyc.pendingBeats.getD s.eng.cyc.beats, pendingBeats := none, beat := 0, spliceDone := false,
        captureThisPass := false, splice := .idle,
        onset := some { p := q - c, len := c, beats := s.eng.cyc.pendingBeats.getD s.eng.cyc.beats } } := by
  obtain ⟨O, e1, C, t, hB, hC, he1, hq1, hexec, hfin⟩ := frame_ticked h hrun hfree hsum hq
  have hcyc := hB.cyc
  have hh1 : e1.heard = none := by rw [he1]; exact hB.heard
  have hwrap : C = wrapCycle e1 := by
    rw [hC, cycleFrame_jumping (c := c) (by rw [hcyc]; exact h.owed.1) (by rw [hcyc]; exact hrun) (by rw [hcyc]; exact hc) he1 hq1]
    exact if_pos hle
  have hbusy : slotBusy e1 = false := slotBusy_free (by rw [he1]; exact hB.slots)
  obtain ⟨hWc, hWv, hWh, hWq⟩ := wrapCycle_abandons hh1
  rw [← hwrap, hbusy] at hWc hWv hWq
  rw [← hwrap] at hWh
  have hlen : s.eng.cyc.c = c := by rw [Cycle.c, hc]; rfl
  have hcycle : e1.cyc.wrap false = { s.eng.cyc with
      p := q - c, frac := sum % 65536, k := (s.eng.cyc.k + 1) % 4294967296, m := (s.eng.cyc.m + 1) % 24,
      beats := s.eng.cyc.pendingBeats.getD s.eng.cyc.beats, pendingBeats := none, beat := 0, spliceDone := false,
      captureThisPass := false, splice := O.cyc.splice } := by
    rw [he1]
    dsimp only
    rw [hB.advances hsum, ← hq, ← hlen]
    rfl
  have hafter : C.cyc = { e1.cyc.wrap false with splice := .idle } ∧ (∀ v ∈ r.voices, (C.voices[v]).spl = Run.nil)
      ∧ (r.count < 2400 → s.eng.mix.clipping = none → ∀ x ∈ (queueReport (.spliceSkipped r.j .cycleEnd)
        ((s.eng.cyc.k + 1) % 4294967296) (q - c) s.eng.evq).list, x ∈ C.evq.list) := by
    obtain hsp | ⟨r', hr', hcount, -, hidle, hnil⟩ := hB.splice
    · have hsp1 : ({ e1 with cyc := e1.cyc.wrap false } : Engine).cyc.splice = .fetching { r with count := r.count + 1 } := by
        rw [hr] at hsp
        rw [hcycle]
        exact hsp
      rw [abandonSplice_fetching hsp1] at hWc hWv hWq
      refine ⟨hWc, fun v hv => ?_, fun _ hn x hx => hWq x ?_⟩
      · rw [hWv]
        show (voicesIn r.voices (fun _ => Voice.unstreamed) e1.voices)[v].spl = Run.nil
        rw [voicesIn_get, if_pos hv]
        rfl
      · have hevq : e1.evq = s.eng.evq := by
          rw [he1]
          exact hB.calm hn hsp
        show x ∈ (queueReport _ (e1.cyc.wrap false).k (e1.cyc.wrap false).p e1.evq).list
        rw [hcycle, hevq]
        exact hx
    · obtain rfl : r = r' := Splice.fetching.inj (hr.symm.trans hr')
      have hsp1 : ({ e1 with cyc := e1.cyc.wrap false } : Engine).cyc.splice = .idle := by
        rw [hcycle]
        exact hidle
      rw [(splice_idle hsp1).1] at hWc hWv hWq
      refine ⟨?_, fun v hv => ?_, fun hlt => absurd hlt (by omega)⟩
      · rw [hWc, hcycle, hidle]
      · rw [hWv, he1]
        exact hnil v hv
  obtain ⟨hafterc, hafterv, hafterq⟩ := hafter
  have hfin := hfin hWh (by rw [hafterc, hcycle]) (by rw [hafterc, hcycle]; exact hrun)
  rw [hcycle] at hafterc
  refine ⟨t, hexec, fun v hv => hfin.streams (by rw [hafterc]) v (hafterv v hv), fun hcount hn hm hroom => ?_,
    hfin.cyc_noted hafterc hrun hc⟩
  obtain ⟨x, hx, hx'⟩ := queueReport_tells (EventQueue.Grows.refl s.eng.evq) (.spliceSkipped r.j .cycleEnd)
    ((s.eng.cyc.k + 1) % 4294967296) (q - c) hm hroom
  exact ⟨x, hfin.follows.told x (hafterq hcount hn x hx), hx'⟩

theorem Reaches.congr {a b : Cycle} {top n : Nat} (h : Reaches a top n) (h1 : a.beat = b.beat) (h2 : a.beats = b.beats)
    (h3 : a.len = b.len) : Reaches b top n := by
  have hbl : a.beatLength = b.beatLength := by
    unfold Cycle.beatLength Cycle.c
    rw [h2, h3]
  obtain ⟨hge, hat, hlast⟩ := h
  rw [h1, h2, hbl] at *
  exact ⟨hge, hat, hlast⟩

theorem spliceJump_due {s : State} (hon : s.powered = true) (hd : s.jumpDue = true) : exec .spliceJump s = exec .frame s := by
  have hframe : exec .frame s = .next s.frame := congrArg Host.Outcome.next (if_pos hon)
  rw [hframe]
  refine (stateRow_on hon State.jumpFrame : exec .spliceJump s = _).trans ?_
  exact congrArg Host.Outcome.next (if_pos hd)

variable {b : Nat} (hdue : s.jumpDue = true) (hmade : s.eng.fol.decisionMade = true) (hlt : q < c)

include h hrun hc hfree hsum hq hr hdue hmade hlt in
/-- The frame of a jump that would reach the end of the cycle abandons the splice (R22). -/
theorem frame_refuses (hj : (c : Int) ≤ q - r.j) (hb : Reaches s.eng.cyc q b) :
    ∃ t, exec .spliceJump s = .next t ∧ (∀ v ∈ r.voices, (t.eng.voices[v]).spl = Run.nil)
      ∧ (s.eng.mix.clipping = none → s.tellsOf t (.spliceSkipped r.j .cycleEnd) (b - s.eng.cyc.beat) s.eng.cyc.k q)
      ∧ t.eng.cyc = { s.eng.cyc with
          p := q, frac := sum % 65536, beat := b, splice := .idle,
          onset := some { p := q, len := c, beats := s.eng.cyc.beats } }
      ∧ (t.eng.heard = none → t.eng.fol.err = s.eng.fol.err ∧ t.eng.fol.delta = s.eng.fol.delta) := by
  obtain ⟨O, e1, C, t, hB, hC, he1, hq1, hexec, hfin⟩ := frame_ticked h hrun hfree hsum hq
  have hcyc := hB.cyc
  have hcount : O.cyc.splice = .fetching { r with count := r.count + 1 } := by
    obtain hsp | ⟨-, -, -, hno, -⟩ := hB.splice
    · rw [hsp, hr]
      rfl
    · rw [hdue] at hno
      exact nomatch hno
  have hsame : O.fol.decisionMade = true := by
    rw [hB.fol]
    exact hmade
  have hrefuses := cycleFrame_refuses (by rw [hcyc]; exact h.owed.1) (by rw [hcyc]; exact hrun) (by rw [hcyc]; exact hc) he1 hq1
    hlt hB.heard hsame hcount hj
  rw [hC, hdue, hrefuses] at hfin
  have hadv := hB.advances hsum
  rw [← hq] at hadv
  have hcount1 : e1.cyc.splice = .fetching { r with count := r.count + 1 } := by rw [he1]; exact hcount
  have hA := abandonSplice_fetching hcount1 .cycleEnd
  have hcyc1 : e1.cyc = { s.eng.cyc with p := q, frac := sum % 65536, splice := O.cyc.splice } := by
    rw [he1]
    exact hadv
  generalize abandonSplice .cycleEnd e1 = A at hA hfin
  have hAcyc : A.cyc = { s.eng.cyc with p := q, frac := sum % 65536, splice := .idle } := by
    rw [hA]
    show ({ e1.cyc with splice := .idle } : Cycle) = _
    rw [hcyc1]
  have hAheard : A.heard = none := by
    rw [hA, he1]
    exact hB.heard
  obtain ⟨b', hbrought, hreach⟩ := bringBeats_brings (e := A) q hAheard
  generalize bringBeats q A = B at hbrought hfin
  have hbb : b' = b := (hreach.congr (by rw [hAcyc]) (by rw [hAcyc]) (by rw [hAcyc])).unique hb
  rw [hbb] at hbrought
  obtain ⟨honly, hfol, hevq⟩ := hbrought
  have hBcyc : B.cyc = { s.eng.cyc with p := q, frac := sum % 65536, beat := b, splice := .idle } := by
    rw [honly, hAcyc]
  have hfin := hfin (by rw [honly]; exact hAheard) (by rw [hBcyc]) (by rw [hBcyc]; exact hrun)
  refine ⟨t, (spliceJump_due h.powered hdue).trans hexec, fun v hv => hfin.streams (by rw [hBcyc]) v ?_, fun hn hm hroom => ?_,
    hfin.cyc_noted hBcyc hrun hc, fun hn => ?_⟩
  · rw [honly]
    dsimp only
    rw [hA]
    show (voicesIn r.voices (fun _ => Voice.unstreamed) e1.voices)[v].spl = Run.nil
    rw [voicesIn_get, if_pos hv]
    rfl
  · have hcalm : e1.evq = s.eng.evq := by
      rw [he1]
      refine hB.calm hn ?_
      rw [hcount, hr]
      rfl
    have hAq : A.evq = queueReport (.spliceSkipped r.j .cycleEnd) s.eng.cyc.k q s.eng.evq := by
      rw [hA, ← hcalm]
      show queueReport _ e1.cyc.k e1.cyc.p e1.evq = _
      rw [hcyc1]
    obtain ⟨x, hx, hx'⟩ := queueReport_tells (EventQueue.Grows.refl s.eng.evq) (.spliceSkipped r.j .cycleEnd) s.eng.cyc.k q hm
      (by omega)
    exact ⟨x, hfin.follows.told x (hevq.told x (by rw [hAq]; exact hx)), hx'⟩
  · have hAfol : A.fol = O.fol := by
      rw [hA, he1]
      rfl
    rw [hfin.fol hn, hfol.only, hAfol, hB.fol]
    exact ⟨rfl, rfl⟩

end

end Sys2Proof.Machine

end

section
/-! The frames of SpliceSteps: the jump (R14, R22, R35). -/

set_option Elab.async false

namespace Sys2Proof.Machine

theorem Follower.leapt_other {f : Follower} {n : Nat} {j : Int} (h : f.state ≠ .tracking) : f.leapt n j = f := if_neg h

theorem Follower.leapt_tracking {f : Follower} {n : Nat} {j : Int} (h : f.state = .tracking) : f.leapt n j = { f with
    err := f.err - j * 65536
    delta := max (-(f.deltaMax : Int)) (min f.deltaMax (-Int.tdiv (f.err - j * 65536) ((f.span * n : Nat) : Int))) } := by
  have hform : f.leapt n j = { f with
    err := f.err - j * 65536, delta := trimOf { f with err := f.err - j * 65536 } n } := if_pos h
  rw [hform, trimOf_eq]

section
variable {s : State} (h : s.Still) (hrun : s.eng.cyc.state = .running) {c : Nat} (hc : s.eng.cyc.len = some c)
  (hfree : ∀ i : SlotIx, s.eng.slots[i].use = .free) {sum q : Nat}
  (hsum : sum = (s.eng.cyc.frac + (65536 + s.eng.fol.delta)).toNat) (hq : q = s.eng.cyc.p + sum / 65536)
  {r : SpliceRec} (hr : s.eng.cyc.splice = .fetching r)
  (hdue : s.jumpDue = true) (hmade : s.eng.fol.decisionMade = true) (hlt : q < c)

/-- The engine a jump leaves, its voices and their refills apart: the beats of both positions, the follower and the report. -/
structure Leapt (O C : Engine) (r : SpliceRec) (frac p n : Nat) : Prop where
  cyc : C.cyc = { O.cyc with
    p := p, frac := frac, beat := O.cyc.beat + n, spliceDone := true, splice := .crossfading { r with count := 0 } }
  heard : C.heard = none
  evq : ∃ evq, O.evq.Grows n evq ∧ C.evq = queueReport (.splice r.j) O.cyc.k p evq
  fol : ∃ fol, O.fol.Counts n fol ∧ C.fol = fol.leapt O.cyc.beatLength r.j

include h hrun hc hfree hsum hq hr hdue hmade hlt

theorem frame_leaps {p b : Nat} (hp : (p : Int) = q - r.j) (hpc : p < c) (hb : Reaches s.eng.cyc (max q p) b) :
    ∃ O C t, Begun s O ∧ O.cyc.splice = countSplice s.eng.cyc.splice ∧ exec .spliceJump s = .next t
      ∧ Leapt O C r (sum % 65536) p (b - s.eng.cyc.beat) ∧ Finished C t.eng := by
  obtain ⟨O, e1, C, t, hB, hC, he1, hq1, hexec, hfin⟩ := frame_ticked h hrun hfree hsum hq
  have hcyc := hB.cyc
  have hcount : O.cyc.splice = .fetching { r with count := r.count + 1 } := by
    obtain hsp | ⟨-, -, -, hno, -⟩ := hB.splice
    · rw [hsp, hr]
      rfl
    · rw [hdue] at hno
      exact nomatch hno
  have hsame : O.fol.decisionMade = true := by
    rw [hB.fol]
    exact hmade
  have hjumps := cycleFrame_jumps (by rw [hcyc]; exact h.owed.1) (by rw [hcyc]; exact hrun) (by rw [hcyc]; exact hc) he1 hq1
    hlt hB.heard hsame hcount (by dsimp only; omega)
  rw [hC, hdue, hjumps] at hfin
  have hadv := hB.advances hsum
  rw [← hq] at hadv
  have hcyc1 : e1.cyc = { s.eng.cyc with p := q, frac := sum % 65536, splice := O.cyc.splice } := by
    rw [he1]
    exact hadv
  obtain ⟨A, hA⟩ : ∃ A : Engine, A = { e1 with cyc := e1.cyc.jump { r with count := r.count + 1 } } := ⟨_, rfl⟩
  rw [← hA] at hfin
  have hAcyc : A.cyc = { s.eng.cyc with
      p := p, frac := sum % 65536, spliceDone := true, splice := .crossfading { r with count := 0 } } := by
    have hto : ((q : Int) - r.j).toNat = p := by omega
    rw [hA]
    dsimp only
    rw [hcyc1, ← hto]
    rfl
  have hAheard : A.heard = none := by
    rw [hA, he1]
    exact hB.heard
  obtain ⟨b1, ⟨honly1, hfol1, hevq1⟩, hreach1⟩ := bringBeats_brings (e := A) q hAheard
  generalize bringBeats q A = B1 at honly1 hfol1 hevq1 hfin
  obtain ⟨voices, mem, hland⟩ := landJump_only { r with count := r.count + 1 } B1
  rw [hland] at hfin
  have hp1 : B1.cyc.p = p := by
    rw [honly1, hAcyc]
  rw [hp1] at hfin
  obtain ⟨b2, ⟨honly2, hfol2, hevq2⟩, hreach2⟩ := bringBeats_brings (e := B1) p (by rw [honly1]; exact hAheard)
  generalize bringBeats p B1 = B2 at honly2 hfol2 hevq2 hfin
  have hbeat1 : B1.cyc.beat = b1 := by rw [honly1]
  have hbb : b2 = b := by
    have hnext : Reaches { A.cyc with beat := b1 } p b2 := hreach2.congr (by rw [honly1]) (by rw [honly1]) (by rw [honly1])
    exact ((hreach1.then hnext).congr (by rw [hAcyc]) (by rw [hAcyc]) (by rw [hAcyc])).unique hb
  have hge1 := hreach1.ge
  have hge2 := hreach2.ge
  have hbeat : A.cyc.beat = s.eng.cyc.beat := by rw [hAcyc]
  have hOc : O.cyc.beat = s.eng.cyc.beat ∧ O.cyc.k = s.eng.cyc.k ∧ O.cyc.beatLength = s.eng.cyc.beatLength := by
    rw [hcyc]
    exact ⟨rfl, rfl, rfl⟩
  rw [hbeat1, hbb] at hge2
  have hn : b - s.eng.cyc.beat = (b1 - A.cyc.beat) + (b2 - B1.cyc.beat) := by
    rw [hbeat, hbeat1, hbb]
    omega
  have hB2cyc : B2.cyc = { s.eng.cyc with
      p := p, frac := sum % 65536, beat := b, spliceDone := true, splice := .crossfading { r with count := 0 } } := by
    rw [honly2, honly1, hAcyc, hbb]
  obtain ⟨D, hD⟩ : ∃ D : Engine, D = { post (.splice r.j) (followJump r.j B2) with voices := voices, mem := mem } := ⟨_, rfl⟩
  rw [followJump_eq] at hD
  have hfin' : D.heard = none → D.cyc.owedTaps = s.eng.cyc.owedTaps → D.cyc.state = .running → Finished D t.eng := by
    rw [hD, ← followJump_eq]
    exact hfin
  have hDheard : D.heard = none := by
    rw [hD]
    show B2.heard = none
    rw [honly2, honly1]
    exact hAheard
  have hDcyc : D.cyc = B2.cyc := by
    rw [hD]
    rfl
  refine ⟨O, D, t, hB, ?_, (spliceJump_due h.powered hdue).trans hexec, ⟨?_, hDheard, ⟨B2.evq, ?_, ?_⟩, ⟨B2.fol, ?_, ?_⟩⟩,
    hfin' hDheard (by rw [hDcyc, hB2cyc]) (by rw [hDcyc, hB2cyc]; exact hrun)⟩
  · rw [hcount, hr]
    rfl
  · have hsum' : O.cyc.beat + (b - s.eng.cyc.beat) = b := by
      rw [hOc.1]
      have := hb.ge
      omega
    rw [hDcyc, hB2cyc, hsum', hcyc]
  · have hAevq : A.evq = O.evq := by
      rw [hA, he1]
    rw [hn, ← hAevq]
    exact hevq1.trans hevq2
  · rw [hD, hOc.2.1]
    show queueReport (.splice r.j) B2.cyc.k B2.cyc.p B2.evq = _
    rw [hB2cyc]
  · have hAfol : A.fol = O.fol := by
      rw [hA, he1]
    rw [hn, ← hAfol]
    exact hfol1.trans hfol2
  · rw [hD, hOc.2.2]
    show B2.fol.leapt B2.cyc.beatLength r.j = _
    rw [hB2cyc]
    rfl

/-- The frame of the jump (R14, R22, R35). -/
theorem frame_jumps {p b : Nat} (hp : (p : Int) = q - r.j) (hpc : p < c) (hb : Reaches s.eng.cyc (max q p) b) :
    ∃ t, exec .spliceJump s = .next t
      ∧ t.eng.cyc = { s.eng.cyc with
          p := p, frac := sum % 65536, beat := b, spliceDone := true, splice := .crossfading { r with count := 0 },
          onset := some { p := p, len := c, beats := s.eng.cyc.beats } }
      ∧ (s.eng.mix.clipping = none → s.tellsOf t (.splice r.j) (b - s.eng.cyc.beat) s.eng.cyc.k p)
      ∧ (s.eng.fol.state = .tracking → t.eng.heard = none → t.eng.fol.err = s.eng.fol.err - r.j * 65536
          ∧ t.eng.fol.delta = max (-(s.eng.fol.deltaMax : Int)) (min s.eng.fol.deltaMax
              (-Int.tdiv (s.eng.fol.err - r.j * 65536) ((s.eng.fol.span * s.eng.cyc.beatLength : Nat) : Int))))
      ∧ (s.eng.fol.state ≠ .tracking → t.eng.heard = none →
          t.eng.fol.err = s.eng.fol.err ∧ t.eng.fol.delta = s.eng.fol.delta) := by
  obtain ⟨O, C, t, hB, hcount, hexec, ⟨hCcyc, hCheard, ⟨evq, hgrows, hevq⟩, fol, hcounts, hfol⟩, hfin⟩ :=
    frame_leaps h hrun hc hfree hsum hq hr hdue hmade hlt hp hpc hb
  have hOc := hB.cyc
  have hbeat : O.cyc.beat + (b - s.eng.cyc.beat) = b := by
    have hO : O.cyc.beat = s.eng.cyc.beat := by rw [hOc]
    rw [hO]
    have := hb.ge
    omega
  rw [hbeat, hOc] at hCcyc
  have hlen : O.cyc.beatLength = s.eng.cyc.beatLength := by rw [hOc]; rfl
  have hk : O.cyc.k = s.eng.cyc.k := by rw [hOc]
  rw [hlen] at hfol
  have hcf : fol.state = s.eng.fol.state ∧ fol.err = s.eng.fol.err ∧ fol.delta = s.eng.fol.delta
      ∧ fol.deltaMax = s.eng.fol.deltaMax ∧ fol.span = s.eng.fol.span := by
    rw [hcounts.only, hB.fol]
    exact ⟨rfl, rfl, rfl, rfl, rfl⟩
  obtain ⟨hstate, herr, hdelta, hmax, hspan⟩ := hcf
  refine ⟨t, hexec, hfin.cyc_noted hCcyc hrun hc, fun hn hm hroom => ?_, fun ht hn => ?_, fun ht hn => ?_⟩
  · have hOq : O.evq = s.eng.evq := hB.calm hn (by rw [hcount, hr]; rfl)
    rw [hOq] at hgrows
    obtain ⟨x, hx, hx'⟩ := queueReport_tells hgrows (.splice r.j) O.cyc.k p hm hroom
    rw [hk] at hx'
    exact ⟨x, hfin.follows.told x (hevq ▸ hx), hx'⟩
  · rw [hfin.fol hn, hfol, Follower.leapt_tracking (hstate.trans ht), herr, hmax, hspan]
    exact ⟨rfl, rfl⟩
  · rw [hfin.fol hn, hfol, Follower.leapt_other (by rw [hstate]; exact ht)]
    exact ⟨herr, hdelta⟩

end

end Sys2Proof.Machine

end

section
/-! The frames of SpliceSteps on which the mid-cycle decision is made (R19, R34). -/

set_option Elab.async false

namespace Sys2Proof.Machine

theorem RoundedTo.eq_roundDiv {n r : Int} (h : RoundedTo n 65536 r) : r = roundDiv n 65536 := by
  have h' : RoundedTo n 65536 (roundDiv n 65536) := roundDiv_rounded n 65536 (by decide)
  generalize roundDiv n 65536 = r' at h'
  unfold RoundedTo at h h'
  split at h
  · rw [if_pos (by assumption)] at h'
    omega
  · rw [if_neg (by assumption)] at h'
    omega

/-- Engine `e` is one of which the mid-cycle decision is asked on a frame of the part, with up to `n` beats on it. -/
structure Deciding (s : State) (c q frac n : Nat) (e : Engine) : Prop where
  cyc : ∃ b sp, e.cyc = { s.eng.cyc with p := q, frac := frac, beat := b, splice := sp }
  fol : ∃ armed arming f, s.eng.fol.Counts n f ∧ e.fol = { f with armed := armed, arming := arming }
  layers : e.layers = s.eng.layers
  cross : e.mix.cross = s.eng.mix.cross

theorem Follower.Counts.rearmed {f g : Follower} {n : Nat} {armed arming : Bool}
    (h : Follower.Counts { f with armed := armed, arming := arming } n g) :
    f.Counts n { g with armed := f.armed, arming := f.arming } := by
  obtain ⟨honly, hcount, hdue⟩ := h
  refine ⟨?_, hcount, hdue⟩
  dsimp only
  rw [honly]

section
variable {s : State} (h : s.Still) (hrun : s.eng.cyc.state = .running) {c : Nat} (hc : s.eng.cyc.len = some c)
  (hfree : ∀ i : SlotIx, s.eng.slots[i].use = .free) {sum q : Nat}
  (hsum : sum = (s.eng.cyc.frac + (65536 + s.eng.fol.delta)).toNat) (hq : q = s.eng.cyc.p + sum / 65536)
  (hlt : q < c) (h1 : s.eng.cyc.p < c / 2) (h2 : c / 2 ≤ q)

/-- What the mid-cycle decision of an engine leaves on the part. -/
structure DecidedBy (e : Engine) (t : State) : Prop where
  made : t.eng.fol.decisionMade = true
  err : t.eng.heard = none → t.eng.fol.err = e.fol.err
  splice : t.eng.cyc.splice = (decideSplice e).cyc.splice

theorem Finished.decided {e : Engine} {t : State} (h : Finished (decideSplice e) t.eng) : DecidedBy e t := by
  obtain ⟨voices, splice, hd, -⟩ := decideSplice_only e
  refine ⟨?_, fun hn => ?_, ?_⟩
  · rw [h.follows.decided, hd]
  · rw [h.fol hn, hd]
  · rw [h.cyc]

include h hrun hc hfree hsum hq hlt h1 h2 in
theorem frame_decision (hdue : s.jumpDue = false) : ∃ O e t, Begun s O ∧ exec .frame s = .next t
    ∧ Deciding s c q (sum % 65536) s.eng.cyc.beats e ∧ e.cyc.splice = O.cyc.splice
    ∧ (∀ i : SlotIx, e.slots[i].use = .free) ∧ DecidedBy e t := by
  obtain ⟨O, e1, C, t, hB, hC, he1, hq1, hexec, hfin⟩ := frame_ticked h hrun hfree hsum hq
  have hcyc := hB.cyc
  have hp : O.cyc.p = s.eng.cyc.p := by rw [hcyc]
  have hdecides := cycleFrame_decides (by rw [hcyc]; exact h.owed.1) (by rw [hcyc]; exact hrun) (by rw [hcyc]; exact hc) he1
    hq1 hlt hB.heard (by rw [hp]; exact h1) h2
  rw [hC, hdue, hdecides] at hfin
  have hadv := hB.advances hsum
  rw [← hq] at hadv
  have hcyc1 : e1.cyc = { s.eng.cyc with p := q, frac := sum % 65536, splice := O.cyc.splice } := by
    rw [he1]
    exact hadv
  have hheard1 : e1.heard = none := by rw [he1]; exact hB.heard
  obtain ⟨b, ⟨honly, hfol, -⟩, hreach⟩ := bringBeats_brings (e := e1) q hheard1
  generalize bringBeats q e1 = B at honly hfol hfin
  have hBcyc : B.cyc = { s.eng.cyc with p := q, frac := sum % 65536, beat := b, splice := O.cyc.splice } := by
    rw [honly, hcyc1]
  obtain ⟨voices, splice, hd, -⟩ := decideSplice_only B
  have hfin := hfin (by rw [hd, honly]; exact hheard1) (by rw [hd, hBcyc]) (by rw [hd, hBcyc]; exact hrun)
  have hn : b - e1.cyc.beat ≤ s.eng.cyc.beats := by
    have hbeats : e1.cyc.beats = s.eng.cyc.beats := by rw [hcyc1]
    have hat := hreach.at_top
    rw [hbeats] at hat
    clear hsum hq
    obtain hb | ⟨hb, -⟩ := hat
    · omega
    · omega
  have hfol1 : e1.fol = { s.eng.fol with armed := O.fol.armed, arming := O.fol.arming } := by
    rw [he1]
    exact hB.fol
  rw [hfol1] at hfol
  have hmore : s.eng.fol.Counts s.eng.cyc.beats { B.fol with armed := s.eng.fol.armed, arming := s.eng.fol.arming } := by
    obtain ⟨ho, hcount, hdue⟩ := hfol.rearmed
    exact ⟨ho, hcount.trans (Nat.add_le_add_left hn _), fun hd hlt => hdue hd (by omega)⟩
  refine ⟨O, B, t, hB, hexec, ⟨⟨b, _, hBcyc⟩, ⟨B.fol.armed, B.fol.arming, _, hmore, rfl⟩, ?_, ?_⟩, by rw [hBcyc], fun i => ?_, hfin.decided⟩
  · rw [honly, he1]
    exact hB.layers
  · rw [honly, he1]
    exact hB.cross
  · rw [honly, he1]
    exact hB.slots i

end

section
variable {s : State} {c q frac : Nat} {e : Engine} (hD : Deciding s c q frac s.eng.cyc.beats e)
include hD

/-- What the follower asks for when no beat of the frame takes it out of TRACKING (R32, R34). -/
theorem Deciding.wanted (ht : s.eng.fol.state = .tracking) (hcoast : s.eng.fol.coastDue = false)
    (hb : s.eng.fol.beatCount + s.eng.cyc.beats < s.eng.fol.coastBeats) : spliceWanted e.fol =
      if s.eng.fol.spliceThreshold * 65536 ≤ s.eng.fol.err.natAbs
      then max (-(s.eng.fol.jMax : Int)) (min s.eng.fol.jMax (roundDiv s.eng.fol.err 65536)) else 0 := by
  obtain ⟨armed, arming, f, hcounts, hf⟩ := hD.fol
  have hno := hcounts.due hcoast hb
  have hsame : f.state = .tracking ∧ f.spliceThreshold = s.eng.fol.spliceThreshold ∧ f.err = s.eng.fol.err
      ∧ f.jMax = s.eng.fol.jMax := by
    rw [hcounts.only]
    exact ⟨ht, rfl, rfl, rfl⟩
  obtain ⟨hstate, hthr, herr, hmax⟩ := hsame
  unfold spliceWanted
  rw [hf]
  dsimp only
  rw [hstate, hno, hthr, herr, hmax, clampInt_eq (by omega)]
  exact if_congr (by simp) rfl rfl

theorem Deciding.wants_none (ht : s.eng.fol.state ≠ .tracking) : spliceWanted e.fol = 0 := by
  obtain ⟨armed, arming, f, hcounts, hf⟩ := hD.fol
  have hstate : e.fol.state = s.eng.fol.state := by
    rw [hf]
    dsimp only
    rw [hcounts.only]
  unfold spliceWanted
  exact if_neg fun hn => ht (hstate ▸ hn.1)

theorem Deciding.made : e.fol.decisionMade = s.eng.fol.decisionMade ∧ e.fol.err = s.eng.fol.err := by
  obtain ⟨armed, arming, f, hcounts, hf⟩ := hD.fol
  rw [hf]
  dsimp only
  rw [hcounts.only]
  exact ⟨rfl, rfl⟩

theorem Deciding.takes (hrun : s.eng.cyc.state = .running) (hfree : ∀ i : SlotIx, e.slots[i].use = .free)
    (hi : e.cyc.splice = .idle) (hdone : s.eng.cyc.spliceDone = false)
    (hcap : s.eng.cyc.captureThisPass = false) (hmade : s.eng.fol.decisionMade = false) (hw : spliceWanted e.fol ≠ 0) :
    (decideSplice e).cyc.splice = .fetching
      { j := spliceWanted e.fol, x := s.eng.mix.cross
        voices := layerIxs.filter fun l => s.eng.layers[l].state == .playing, count := 0 } := by
  obtain ⟨b, sp, hcyc⟩ := hD.cyc
  have hform : (decideSplice e).cyc.splice = (requestSplice (spliceWanted e.fol)
      { e with fol := { e.fol with decisionMade := true } }).cyc.splice := by
    rw [decideSplice_asks (hD.made.1.trans hmade), if_neg hw]
  have htaken := requestSplice_taken (j := spliceWanted e.fol) (e := { e with fol := { e.fol with decisionMade := true } })
    (by dsimp only; rw [hcyc]; exact hrun) hi (by dsimp only; rw [hcyc]; exact hdone) (by dsimp only; rw [hcyc]; exact hcap)
    (slotBusy_free hfree)
  rw [hform, htaken, ← hD.cross, ← hD.layers]
  rfl

end

/-- A decision that asks for nothing, or whose request is dropped, keeps the splice (R19, R34). -/
theorem decideSplice_stands {e : Engine} (h : spliceWanted e.fol = 0 ∨ e.cyc.splice ≠ .idle ∨ e.cyc.spliceDone = true
    ∨ e.cyc.captureThisPass = true) : (decideSplice e).cyc.splice = e.cyc.splice := by
  cases hd : e.fol.decisionMade with
  | true => rw [decideSplice_made hd]
  | false =>
    rw [decideSplice_asks hd]
    by_cases hw : spliceWanted e.fol = 0
    · rw [if_pos hw]
    · have hdropped := requestSplice_dropped (j := spliceWanted e.fol)
        (e := { e with fol := { e.fol with decisionMade := true } }) (h.resolve_left hw)
      rw [if_neg hw, hdropped]

end Sys2Proof.Machine

end

section
/-! A slot that is busy as a frame ends is busy, or the other one is, as the next frame begins: what SpliceSteps says of a
decision made beside a capture (R19, R34). -/

set_option Elab.async false

namespace Sys2Proof.Machine

/-! ## The work of one slot -/

/-- Engine `t` comes from `a` by the work of slot `s`: the cycle, the other slot, the slot's use and layer and the layers'
multiples stand. -/
structure Local (s : SlotIx) (a t : Engine) : Prop where
  cyc : t.cyc = a.cyc
  other : ∀ i : SlotIx, i ≠ s → t.slots[i] = a.slots[i]
  place : t.slots[s].place = a.slots[s].place
  mult : ∀ l : LayerIx, t.layers[l].mult = a.layers[l].mult

section
variable {s : SlotIx} {a e t : Engine}

theorem Local.refl (s : SlotIx) (a : Engine) : Local s a a := ⟨rfl, fun _ _ => rfl, rfl, fun _ => rfl⟩

theorem Local.use (h : Local s a t) : t.slots[s].use = a.slots[s].use := congrArg Prod.fst h.place

theorem Local.slot (h : Local s a e) {f : Slot → Slot} (hf : ∀ sl, (f sl).place = sl.place) : Local s a (modSlot s f e) := by
  obtain ⟨hcyc, hother, hplace, hmult⟩ := h
  refine ⟨hcyc, fun i hi => ?_, ?_, hmult⟩
  · exact (upd_other e.slots s i f (Ne.symm hi)).trans (hother i hi)
  · exact (congrArg Slot.place (upd_self e.slots s f)).trans ((hf _).trans hplace)

theorem Local.layer (h : Local s a e) (l : LayerIx) {f : Layer → Layer} (hf : ∀ r, (f r).mult = r.mult) :
    Local s a (modLayer l f e) := by
  obtain ⟨hcyc, hother, hplace, hmult⟩ := h
  exact ⟨hcyc, hother, hplace, fun i => (upd_keeps e.layers l Layer.mult (hf _) i).trans (hmult i)⟩

theorem Local.closeGap (h : Local s a e) : Local s a (closeGap s e) := by
  unfold Machine.closeGap
  split
  · exact { h.slot (f := closeTail) fun sl => by unfold closeTail; split <;> rfl with }
  · exact h

theorem Local.stageNew (h : Local s a e) (l : LayerIx) (key pos : Nat) (x : Sample) :
    Local s a (stageNew s l key pos x e) := by
  unfold Machine.stageNew
  dsimp only
  split
  · exact h.slot fun sl => by split <;> rfl
  · exact h.closeGap.slot fun _ => rfl

theorem Local.stageWrite (h : Local s a e) (l : LayerIx) (w : SlotWrite) : Local s a (stageWrite s l w e) := by
  have hagain : ∀ key pos x, Local s a (stageAgain s l key pos x e) := fun key pos x => by
    unfold stageAgain
    split
    · exact h
    · split
      · exact h.slot fun _ => rfl
      · exact h.stageNew l key pos x
    · exact h.stageNew l key pos x
  unfold Machine.stageWrite
  split
  · split
    · exact hagain _ _ _
    · exact h.stageNew _ _ _ _
  · exact h

theorem Local.commitWrite (h : Local s a e) (w : SlotWrite) : Local s a (commitWrite s e w) := by
  unfold Machine.commitWrite
  extract_lets sl
  split
  · exact h
  next l _ =>
    split
    · exact h
    · have hpage : Local s a (basePage l w.pos e) := by
        unfold basePage
        extract_lets pages t
        have ht : Local s a t.2 := { h with }
        split
        · exact ht.layer l fun _ => rfl
        · exact h
      exact (hpage.stageWrite l w).slot fun _ => rfl
    · exact (h.stageWrite l w).slot fun _ => rfl
    · extract_lets e1
      have h1 : Local s a e1 := (h.stageWrite l w).slot fun _ => rfl
      split
      · exact h1
      · unfold growWritten
        split
        · exact h1.layer l fun _ => rfl
        · exact h1

theorem Local.commitSlot (h : Local s a e) : Local s a (commitSlot s e) :=
  (foldl_induct (I := Local s a) (fun w _ h => h.commitWrite w) e.slots[s].pendingWrites h).slot fun _ => rfl

/-- Engine `t` comes from `a` by the work of slot `s` and the release of one slot at most. -/
structure Releases (s : SlotIx) (a t : Engine) : Prop where
  cyc : t.cyc = a.cyc
  mult : ∀ l : LayerIx, t.layers[l].mult = a.layers[l].mult
  other : ∀ i : SlotIx, i ≠ s → t.slots[i] = a.slots[i] ∨ t.slots[i].use = .free
  kept : ∃ j : SlotIx, (∀ i : SlotIx, i ≠ s → i ≠ j → t.slots[i] = a.slots[i])
    ∧ (s ≠ j → t.slots[s].use = a.slots[s].use)

theorem completeFixed_releases (s : SlotIx) (e : Engine) : Releases s e (completeFixed s e) := by
  unfold completeFixed
  split
  next l _ =>
    have hnote : Local s e (noteTaken s l e) := by
      unfold noteTaken
      dsimp only
      split
      · exact { Local.refl s e with }
      · exact .refl s e
    have hcommit := hnote.commitSlot
    generalize commitSlot s (noteTaken s l e) = E at hcommit
    dsimp only
    have hstate : Local s (releaseSlot l E) (setLayerState l .playing .captureEnd 0 (releaseSlot l E)) :=
      { (Local.refl s (releaseSlot l E)).layer l (f := fun r =>
          { r with state := .playing, lastChange := (releaseSlot l E).cyc.k }) fun _ => rfl with }
    have hgap := hstate.closeGap
    generalize Machine.closeGap s (setLayerState l .playing .captureEnd 0 (releaseSlot l E)) = F at hgap
    have hlast : Local s (releaseSlot l E) (grantHolds (playVoice l F)) := by
      have hplay : Local s (releaseSlot l E) (playVoice l F) := by
        rw [playVoice_eq]
        exact { hgap with }
      generalize playVoice l F = G at hplay
      have hholds := grantHolds_sameButHold (e := G)
      obtain ⟨layers, evq, hG⟩ := grantHolds_only G
      refine ⟨?_, fun i hi => ?_, ?_, fun k => ?_⟩
      · rw [hG]
        exact hplay.cyc
      · rw [hG]
        exact hplay.other i hi
      · rw [hG]
        exact hplay.place
      · have hk := hholds k
        unfold Layer.sameButHold at hk
        rw [← hplay.mult k, ← hk]
    have hslot := releaseSlot_slot_eq l E
    have hrest := releaseSlot_rest l E
    generalize releaseSlot l E = R at hlast hslot hrest
    have hRcyc : R.cyc = E.cyc := by rw [hrest]
    have hRmult : ∀ k : LayerIx, R.layers[k].mult = E.layers[k].mult := fun k => by
      rw [hrest]
      exact upd_keeps E.layers l Layer.mult rfl k
    refine ⟨hlast.cyc.trans (hRcyc.trans hcommit.cyc), fun k => (hlast.mult k).trans ((hRmult k).trans (hcommit.mult k)),
      fun i hi => ?_, (E.layers[l].slot).getD s, fun i hi hj => ?_, fun hj => ?_⟩
    · by_cases hn : E.layers[l].slot = some i
      · refine .inr ((congrArg Slot.use ((hlast.other i hi).trans ((hslot i).trans (if_pos hn)))).trans ?_)
        rfl
      · exact .inl ((hlast.other i hi).trans ((hslot i).trans ((if_neg hn).trans (hcommit.other i hi))))
    · refine (hlast.other i hi).trans ((hslot i).trans ((if_neg fun hn => hj ?_).trans (hcommit.other i hi)))
      exact (congrArg (Option.getD · s) hn).symm
    · refine hlast.use.trans ?_
      have hkept : R.slots[s] = E.slots[s] := by
        refine (hslot s).trans (if_neg fun hn => hj ?_)
        exact (congrArg (Option.getD · s) hn).symm
      rw [hkept]
      exact hcommit.use
  · exact ⟨rfl, fun _ => rfl, fun _ _ => .inl rfl, s, fun _ _ _ => rfl, fun h => absurd rfl h⟩

/-- A slot whose frame ends is busy after it when no capture of it completes; one whose capture completes leaves one slot busy. -/
theorem settleSlot_works (s : SlotIx) (e : Engine) : (fixedCompleteDue e s = false ∧ Local s e (settleSlot s e))
    ∨ (fixedCompleteDue e s = true ∧ e.slots[s].use = .fixed ∧ Releases s e (settleSlot s e)) := by
  unfold settleSlot
  cases hd : fixedCompleteDue e s with
  | false =>
    refine .inl ⟨rfl, ?_⟩
    rw [if_neg nofun]
    exact (Local.refl s e).commitSlot
  | true =>
    refine .inr ⟨rfl, ?_, ?_⟩
    · unfold fixedCompleteDue at hd
      dsimp only at hd
      split at hd
      · assumption
      · exact nomatch hd
    · rw [if_pos rfl]
      exact completeFixed_releases s e

theorem fixedCompleteDue_congr {i : SlotIx} (hs : t.slots[i] = a.slots[i]) (hc : t.cyc = a.cyc)
    (hm : ∀ l : LayerIx, t.layers[l].mult = a.layers[l].mult) : fixedCompleteDue t i = fixedCompleteDue a i := by
  have hlen : ∀ l, layerLen t l = layerLen a l := fun l => by
    unfold layerLen
    rw [hm l, hc]
  unfold fixedCompleteDue
  dsimp only
  rw [hs]
  simp only [hlen]

theorem settleSlots_busy {i : SlotIx} (hb : e.slots[i].use ≠ .free) (hd : fixedCompleteDue e i = false) :
    (eachSlot settleSlot e).cyc = e.cyc ∧ ∃ k : SlotIx, (eachSlot settleSlot e).slots[k].use ≠ .free := by
  have hall : eachSlot settleSlot e = settleSlot 1 (settleSlot 0 e) := rfl
  rw [hall]
  have h0 := settleSlot_works 0 e
  generalize settleSlot 0 e = E at h0
  have h1 := settleSlot_works 1 E
  generalize settleSlot 1 E = F at h1
  have hfixed : ∀ {u : SlotUse}, u = .fixed → u ≠ .free := fun h => by rw [h]; decide
  match i with
  | 0 =>
    obtain ⟨-, h0⟩ | ⟨h0, -⟩ := h0
    · have hE : E.slots[(0 : SlotIx)].use ≠ .free := by
        rw [h0.use]
        exact hb
      obtain ⟨-, h1⟩ | ⟨-, hf, h1⟩ := h1
      · exact ⟨h1.cyc.trans h0.cyc, 0, by rw [h1.other 0 (by decide)]; exact hE⟩
      · obtain ⟨j, hother, hkept⟩ := h1.kept
        refine ⟨h1.cyc.trans h0.cyc, ?_⟩
        by_cases hj : (1 : SlotIx) = j
        · exact ⟨0, by rw [hother 0 (by decide) (by rw [← hj]; decide)]; exact hE⟩
        · exact ⟨1, by rw [hkept hj]; exact hfixed hf⟩
    · rw [hd] at h0
      exact nomatch h0
  | 1 =>
    have hlast : ∀ {k : SlotIx}, E.cyc = e.cyc → fixedCompleteDue E 1 = false → E.slots[k].use ≠ .free →
        F.cyc = e.cyc ∧ ∃ k : SlotIx, F.slots[k].use ≠ .free := fun {k} hc hdue hk => by
      obtain ⟨-, h1⟩ | ⟨h1, -⟩ := h1
      · refine ⟨h1.cyc.trans hc, k, ?_⟩
        by_cases hk1 : k = 1
        · rw [hk1] at hk ⊢
          rw [h1.use]
          exact hk
        · rw [h1.other k hk1]
          exact hk
      · rw [hdue] at h1
        exact nomatch h1
    obtain ⟨-, h0⟩ | ⟨-, hf, h0⟩ := h0
    · have hsame : E.slots[(1 : SlotIx)] = e.slots[(1 : SlotIx)] := h0.other 1 (by decide)
      exact hlast h0.cyc ((fixedCompleteDue_congr hsame h0.cyc h0.mult).trans hd) (k := 1) (by rw [hsame]; exact hb)
    · obtain ⟨j, hother, hkept⟩ := h0.kept
      by_cases hj : (1 : SlotIx) = j
      · have hdue : fixedCompleteDue E 1 = false := by
          obtain hsame | hfree := h0.other 1 (by decide)
          · exact (fixedCompleteDue_congr hsame h0.cyc h0.mult).trans hd
          · unfold fixedCompleteDue
            dsimp only
            rw [hfree]
        exact hlast h0.cyc hdue (k := 0) (by rw [hkept (by rw [← hj]; decide)]; exact hfixed hf)
      · have hsame : E.slots[(1 : SlotIx)] = e.slots[(1 : SlotIx)] := hother 1 (by decide) hj
        exact hlast h0.cyc ((fixedCompleteDue_congr hsame h0.cyc h0.mult).trans hd) (k := 1) (by rw [hsame]; exact hb)

end

end Sys2Proof.Machine

end

section
/-! The frame of SpliceSteps on which a busy slot drops the request for a splice (R19, R34). -/

set_option Elab.async false

namespace Sys2Proof.Machine

theorem slotBusy_used {e : Engine} {k : SlotIx} (h : e.slots[k].use ≠ .free) : slotBusy e = true := by
  unfold slotBusy
  match k with
  | 0 => exact Bool.or_eq_true_iff.2 (.inl (bne_iff_ne.2 h))
  | 1 => exact Bool.or_eq_true_iff.2 (.inr (bne_iff_ne.2 h))

theorem settleRest_busy {e : Engine} {i : SlotIx} (hrec : ∀ l, recoveryDue e l = false) (hs : e.cyc.splice = .idle)
    (hp : e.ped.due = false) (hb : e.slots[i].use ≠ .free) (hd : fixedCompleteDue e i = false) :
    (settleRest e).cyc = e.cyc ∧ slotBusy (settleRest e) = true := by
  obtain ⟨E1, hE1⟩ : ∃ E1, E1 = eachLayer settleVoice e := ⟨_, rfl⟩
  have h1 : Primed e E1 := hE1 ▸ primes_voices hrec
  have hslots1 : E1.slots = e.slots := by rw [h1.only]
  have hdue1 : fixedCompleteDue E1 i = false :=
    (fixedCompleteDue_congr (by rw [hslots1]) (by rw [h1.only]) (by rw [h1.only]; exact fun _ => rfl)).trans hd
  have hcyc1 : E1.cyc = e.cyc := by rw [h1.only]
  obtain ⟨hcyc2, k, hk⟩ := settleSlots_busy (e := E1) (i := i) (by rw [hslots1]; exact hb) hdue1
  have hped2 : (eachSlot settleSlot E1).ped = E1.ped :=
    (eachSlot_induct (I := Timed E1) (fun s _ h => (Timed.settles E1).settleSlot s h) (.refl E1)).ped
  obtain ⟨E2, hE2⟩ : ∃ E2, E2 = eachSlot settleSlot E1 := ⟨_, rfl⟩
  rw [← hE2] at hcyc2 hk hped2
  obtain ⟨E3, hE3⟩ : ∃ E3, E3 = eachLayer settleFade E2 := ⟨_, rfl⟩
  have h3 : Faded E2 E3 := hE3 ▸ fades_voices
  have hform : settleRest e = settleSplice (clipWindowEnd (reportClip (samplingEvent E3.ped.pins E3))) := by
    rw [hE3, hE2, hE1]
    rfl
  have hped3 : E3.ped.due = false := by
    rw [h3.only]
    dsimp only
    rw [hped2, h1.only]
    exact hp
  obtain ⟨clipping, reported, window, evq, hclips⟩ := clips_only E3
  obtain ⟨E4, hE4⟩ : ∃ E4 : Engine, E4 = { E3 with
      mix := { E3.mix with clipping := clipping, clipReported := reported, window := window }, evq := evq } := ⟨_, rfl⟩
  have hcyc4 : E4.cyc = e.cyc := by
    rw [hE4, h3.only]
    exact hcyc2.trans hcyc1
  have hslots4 : E4.slots = E2.slots := by rw [hE4, h3.only]
  have hidle : E4.cyc.splice = .idle := by rw [hcyc4]; exact hs
  rw [hform, samplingEvent_not_due hped3, hclips, ← hE4, settleSplice_idle hidle]
  have hkeeps : (arbitrate E4).cyc = E4.cyc ∧ (arbitrate E4).slots = E4.slots := by
    unfold arbitrate
    split
    · exact ⟨rfl, rfl⟩
    · unfold grantNext
      rw [(zeroFed_voices hidle).only]
      exact ⟨rfl, rfl⟩
  refine ⟨hkeeps.1.trans hcyc4, slotBusy_used (k := k) ?_⟩
  rw [hkeeps.2, hslots4]
  exact hk

section
variable {s : State} (h : s.Still) (hrun : s.eng.cyc.state = .running) {c : Nat} (hc : s.eng.cyc.len = some c)
  {i : SlotIx} (hb : s.eng.slots[i].use ≠ .free) (hd : fixedCompleteDue s.eng i = false) {q : Nat}
  (hq : q = s.eng.cyc.p + (s.eng.cyc.frac + (65536 + s.eng.fol.delta)).toNat / 65536) (hlt : q < c)
  (h1 : s.eng.cyc.p < c / 2) (h2 : c / 2 ≤ q)
include h hrun hc hb hd hq hlt h1 h2

theorem frame_drops (hs : s.eng.cyc.splice = .idle) : ∃ t, exec .frame s = .next t ∧ t.eng.fol.decisionMade = true
    ∧ t.eng.cyc.splice = .idle ∧ t.eng.cyc.captureThisPass = true := by
  obtain ⟨X, htimed, hexec, hjump, heard, hX⟩ := frame_still h hrun
  have hun : s.eng.uncrossed = s.eng := if_neg (by rw [crossfadeEndDue_idle hs]; exact nofun)
  rw [hun] at htimed hX
  obtain ⟨hclocked, -, -⟩ := clocked_only s.eng.fol
  have hdue : fixedCompleteDue { s.eng with fol := s.eng.fol.clocked, heard := heard } i = false :=
    (fixedCompleteDue_congr rfl rfl fun _ => rfl).trans hd
  obtain ⟨hcyc, hbusy⟩ := settleRest_busy (e := { s.eng with fol := s.eng.fol.clocked, heard := heard }) (i := i)
    h.voices hs h.pedals hb hdue
  rw [← hX] at hcyc hbusy
  have hcyc : X.cyc = s.eng.cyc := hcyc
  have hno : readyToJump X = false := (splice_idle (by rw [hcyc]; exact hs)).2.2.2.2.1
  have hopen := openFrame_eq (e := X) (htimed.clk.symm ▸ h.waiting)
  have hfol : X.fol = s.eng.fol.clocked := htimed.fol
  rw [runFrame_eq, hno] at hexec
  generalize openFrame X = O at hexec hopen
  have hOcyc : O.cyc = { s.eng.cyc with captureThisPass := true } := by
    rw [hopen]
    dsimp only
    rw [hbusy, Bool.or_true, hcyc, hs]
    show ({ s.eng.cyc with splice := .idle, captureThisPass := true } : Cycle) = _
    rw [← hs]
  have hOdelta : O.fol.delta = s.eng.fol.delta := by
    rw [hopen]
    dsimp only
    unfold Follower.openFrame
    rw [hfol, hclocked]
  have hOheard : O.heard = none := by rw [hopen]
  obtain ⟨e1, he1⟩ : ∃ e1 : Engine, e1 = { O with cyc := O.cyc.advance O.fol.delta } := ⟨_, rfl⟩
  have hq1 : e1.cyc.p = q := by
    rw [he1, hq, hOdelta, hOcyc]
    rfl
  have hdecides := cycleFrame_decides (by rw [hOcyc]; exact h.owed.1) (by rw [hOcyc]; exact hrun) (by rw [hOcyc]; exact hc) he1
    hq1 hlt hOheard (by rw [hOcyc]; exact h1) h2
  obtain ⟨b, ⟨honly, -, -⟩, -⟩ := bringBeats_brings (e := e1) q (by rw [he1]; exact hOheard)
  rw [hdecides] at hexec
  generalize bringBeats q e1 = B at hexec honly
  have hB : B.cyc.splice = .idle ∧ B.cyc.captureThisPass = true ∧ B.cyc.state = .running ∧ B.cyc.owedTaps = 0 := by
    rw [honly, he1]
    dsimp only
    rw [hOcyc]
    exact ⟨hs, rfl, hrun, h.owed.2⟩
  obtain ⟨hsplice, hcapture, hstate, howed⟩ := hB
  have hstands := decideSplice_stands (e := B) (.inr (.inr (.inr hcapture)))
  obtain ⟨voices, splice, hform, -⟩ := decideSplice_only B
  have hfin := frame_finished (e := decideSplice B) (integerAdvance X) (by rw [hform, honly, he1]; exact hOheard)
    (by rw [hform]; exact howed) (by rw [hform]; dsimp only; rw [hstate]; exact nofun)
  generalize decideSplice B = D at hexec hfin hform hstands
  generalize frameOnsets (tickGrant (tickSampling (frameAudio (integerAdvance X) (countCues .frame 0 (noteGrid D))))) = T
    at hexec hfin
  refine ⟨s.giving T, hexec, ?_, ?_, ?_⟩
  · show T.fol.decisionMade = true
    rw [hfin.follows.decided, hform]
  · show T.cyc.splice = .idle
    rw [hfin.cyc]
    exact hstands.trans hsplice
  · show T.cyc.captureThisPass = true
    rw [hfin.cyc, hform]
    exact hcapture

end

end Sys2Proof.Machine

end

section
/-! SpliceSteps: the parts apart from its FRAMEs, and the obligation (R14, R15, R19 to R23, R34, R35, R132, R134, R135). -/

set_option Elab.async false

namespace Sys2Proof.Machine

section
variable {s : State} {r : SpliceRec}

theorem spliceWaitLimit_short (hon : s.powered = true) (hsp : s.eng.cyc.splice = .fetching r) (hcount : 2400 ≤ r.count)
    (hshort : ∃ v ∈ r.voices, s.eng.voices[v].spl.frames.length < r.x ∨ s.eng.voices[v].main.frames.length < r.x) :
    exec .spliceWaitLimit s = .next (s.giving (abandonSplice .waitLimit s.eng)) := by
  obtain ⟨v, hv, hfew⟩ := hshort
  have hdue : waitLimitDue s.eng = true := by
    unfold waitLimitDue
    rw [hsp]
    dsimp only
    rw [jumpConditions_short hv hfew, decide_eq_true hcount]
    rfl
  refine (stateRow_on hon (State.onEng (whenDue waitLimitDue (abandonSplice .waitLimit))) :
    exec .spliceWaitLimit s = _).trans ?_
  have hwhen : whenDue waitLimitDue (abandonSplice .waitLimit) s.eng = abandonSplice .waitLimit s.eng := if_pos hdue
  exact congrArg (fun e => Host.Outcome.next (s.giving e)) hwhen

theorem crossfadeEnd_reached (hon : s.powered = true) (hsp : s.eng.cyc.splice = .crossfading r) (hcount : r.x ≤ r.count) :
    exec .crossfadeEnd s = .next (s.giving { s.eng with
      cyc := { s.eng.cyc with splice := .idle }
      voices := voicesIn r.voices (fun _ => Voice.unspliced) s.eng.voices }) := by
  have hdue : crossfadeEndDue s.eng = true := by
    unfold crossfadeEndDue
    rw [hsp]
    exact decide_eq_true hcount
  have hleaves : (fun (i : LayerIx) (v : Voice) => v.leaves (layerLen s.eng i) r) = fun _ => Voice.unspliced :=
    funext fun i => funext fun v => if_neg (by omega)
  refine (stateRow_on hon (State.onEng (whenDue crossfadeEndDue endCrossfade)) : exec .crossfadeEnd s = _).trans ?_
  have hwhen : whenDue crossfadeEndDue endCrossfade s.eng = endCrossfade s.eng := if_pos hdue
  rw [endCrossfade_eq hsp, hleaves] at hwhen
  exact congrArg (fun e => Host.Outcome.next (s.giving e)) hwhen

theorem spliceJump_waits (hon : s.powered = true) (hd : s.jumpDue = false) : exec .spliceJump s = .next s := by
  refine (stateRow_on hon State.jumpFrame : exec .spliceJump s = _).trans ?_
  exact congrArg Host.Outcome.next (if_neg (by rw [hd]; exact nofun))

end

/-- RECORD of a fixed capture on a part with pages enough (R46). -/
theorem record_starts {s : State} {c : Cue} {before after : List Cue} {n : Nat} {lane : LaneIx} {l : LayerIx} {sl : SlotIx}
    {len : Nat} (h : s.Turn c before after) (ha : c.action = .record n lane) (ht : c.target = .layer l)
    (hlock : s.eng.lockedLane lane) (harmed : s.eng.layers[l].state = .armed) (hhold : s.eng.layers[l].hold = .none)
    (hfree : s.eng.firstFree sl) (hrun : s.eng.cyc.state = .running) (hlen : s.eng.cyc.len = some len)
    (henough : (n * len + 16383) / 16384 ≤ s.eng.mem.free.length) :
    exec .record s = .next (s.cueDone c (startFixed sl l n lane (s.eng.mem.free.take ((n * len + 16383) / 16384)) c.number
      { s.dequeued before after with mem := { s.eng.mem with free := s.eng.mem.free.drop ((n * len + 16383) / 16384) } })) := by
  have hlocked : ∀ k, c.action.lane? = some k → s.eng.lockedLane k := fun k hl => by
    obtain rfl := Option.some.inj ((by rw [ha]; rfl : c.action.lane? = some lane).symm.trans hl)
    exact hlock
  have hact : actOn c (s.dequeued before after) = Machine.recordCue n lane c.number l (s.dequeued before after) := by
    simp only [actOn, ha, ht]
  have hcue := hact.trans (recordCue_fixed harmed hrun hhold hfree)
  have hc' : (s.dequeued before after).cyc.c = len := congrArg (Option.getD · 0) hlen
  have hwalk := reclaimWalk_enough (own := none) (list := (s.dequeued before after).mem.age) (extra := 0) (e := s.dequeued before after)
    (need := (n * len + 16383) / 16384) henough
  have hgives := allocChain_gives (need := (n * len + 16383) / 16384) (e := s.dequeued before after)
  rw [hwalk] at hgives
  rw [pagesFor_eq, hc', hgives henough] at hcue
  exact cueRow_done h (by rw [ha]) hlocked hcue

/-- A fixed capture that starts on a part whose splice is being fetched: one asked for on the same frame goes in silence (R21). -/
theorem startFixed_drops {e : Engine} {l : LayerIx} {lane : LaneIx} {n number len : Nat} {sl : SlotIx} {r : SpliceRec}
    (pages : List Nat) (mem : LoopMem) (hsp : e.cyc.splice = .fetching r) (hlen : e.cyc.len = some len) :
    let e1 := ({ e with
      layers := upd e.layers l fun r =>
        { r with mult := some n, cur := some pages, slot := some sl, state := .capturing, lastChange := e.cyc.k }
      slots := upd e.slots sl (Slot.taken .fixed l lane (some ((e.cyc.m % n) * len + e.cyc.p)))
      voices := voicesIn r.voices (fun _ => Voice.unstreamed) e.voices
      cyc := { e.cyc with captureThisPass := true, splice := .idle }
      mem := mem } : Engine).reports (.layerState l .capturing .cue number)
    startFixed sl l n lane pages number { e with mem := mem }
      = if r.count = 0 then e1 else e1.reports (.spliceSkipped r.j .capture) := by
  intro e1
  have hc : e.cyc.c = len := congrArg (Option.getD · 0) hlen
  have hstart := startFixed_fetching (e := { e with mem := mem }) (l := l) (lane := lane) (n := n) (number := number) (sl := sl)
    (r := r) pages hsp
  dsimp only at hstart
  rw [hc] at hstart
  by_cases h0 : r.count = 0
  · rw [if_pos h0] at hstart ⊢
    exact hstart
  · rw [if_neg h0] at hstart ⊢
    exact hstart

theorem jumpDue_unfetched {s : State} (h : s.Still) (hrun : s.eng.cyc.state = .running)
    (hfree : ∀ i : SlotIx, s.eng.slots[i].use = .free) (hno : ∀ r, s.eng.cyc.splice ≠ .fetching r) : s.jumpDue = false := by
  obtain ⟨O, adv, hB, -⟩ := frame_begun h hrun hfree
  rw [← Bool.not_eq_true]
  intro hd
  obtain ⟨r, hr⟩ := hB.due hd
  exact hno r hr

/-- The splice of a frame below the wait limit has counted the frame (R20, R23). -/
theorem Begun.counted {s : State} {e : Engine} (h : Begun s e) (hlim : ∀ r, s.eng.cyc.splice = .fetching r → r.count < 2400) :
    e.cyc.splice = countSplice s.eng.cyc.splice.settled := by
  obtain hs | ⟨r, hr, hcount, -⟩ := h.splice
  · exact hs
  · have := hlim r hr
    omega

/-- The beat index of a frame in the words of the obligation. -/
theorem Reaches.of_words {cy : Cycle} {c top b : Nat} (hc : cy.len = some c)
    (h : cy.beat ≤ b ∧ (b = cy.beat ∨ (b < cy.beats ∧ b * (c / cy.beats) ≤ top))
      ∧ (cy.beats ≤ b + 1 ∨ top < (b + 1) * (c / cy.beats))) : Reaches cy top b := by
  have hbl : cy.beatLength = c / cy.beats := by
    unfold Cycle.beatLength Cycle.c
    rw [hc]
    rfl
  rw [← hbl] at h
  exact ⟨h.1, h.2.1, h.2.2⟩

end Sys2Proof.Machine

namespace Sys2Proof.Settled
open Sys2Proof.Machine

/-- Settles O42: the events of a splice, what abandons it, and the frames on which it ends, jumps, or is asked for; the cases
are those of the cycle clock. -/
theorem spliceSteps : Obligations.SpliceSteps := by
  refine ⟨fun s r hon => ?_, fun e r reason hsp => ?_, ?_, fun s c h hrun hc hfree => ?_,
    fun s c i h hrun hc hb hd hs _ hlt h1 h2 => frame_drops h hrun hc hb hd rfl hlt h1 h2 hs, fun e r v => ?_⟩
  · refine ⟨spliceWaitLimit_short hon, fun hsp hcount => ⟨_, fun v => voicesIn_get _ _ _ v, crossfadeEnd_reached hon hsp hcount⟩,
      spliceJump_waits hon, spliceJump_due hon⟩
  · exact ⟨_, fun v => voicesIn_get _ _ _ v, abandonSplice_fetching hsp reason⟩
  · intro s c before after n lane l sl len r h ha ht hlock harmed hhold hfree hrun hlen hsp e need henough layers slots
    have hrec := record_starts h ha ht hlock harmed hhold hfree hrun hlen henough
    have hstart := startFixed_drops (e := s.dequeued before after) (l := l) (lane := lane) (n := n) (number := c.number) (sl := sl)
      (r := r) (s.eng.mem.free.take ((n * len + 16383) / 16384))
      { s.eng.mem with free := s.eng.mem.free.drop ((n * len + 16383) / 16384) } hsp hlen
    refine ⟨voicesIn r.voices (fun _ => Voice.unstreamed) s.eng.voices, fun v => voicesIn_get _ _ _ v,
      fun h0 => hrec.trans ?_, fun h0 => hrec.trans ?_⟩
    · exact congrArg (fun t => Host.Outcome.next (s.cueDone c t)) (hstart.trans (if_pos h0))
    · exact congrArg (fun t => Host.Outcome.next (s.cueDone c t)) (hstart.trans (if_neg (by omega)))
  · intro cy fol sum q reached streamless reported
    refine ⟨fun r hr hle => frame_ends_splice h hrun hc hfree rfl rfl hr hle,
      fun r b hr hdue hmade hlt hj hb => frame_refuses h hrun hc hfree rfl rfl hr hdue hmade hlt hj (.of_words hc hb),
      fun r p b hr hdue hmade hlt hp hpc hb => ?_, fun rounded hi hdone hcap hmade ht hbc hlt h1 h2 hround => ?_,
      fun hmade ht hbc hdue hlt h1 h2 => ?_, fun hi hmade ht hlt h1 h2 => ?_⟩
    · have hbl : s.eng.cyc.beatLength = c / s.eng.cyc.beats := by
        unfold Cycle.beatLength Cycle.c
        rw [hc]
        rfl
      have hjump := frame_jumps h hrun hc hfree rfl rfl hr hdue hmade hlt hp hpc (.of_words hc hb)
      rw [hbl] at hjump
      exact hjump
    · have hi' : s.eng.cyc.splice = .idle := hi
      have hdue := jumpDue_unfetched h hrun hfree (by rw [hi']; exact nofun)
      obtain ⟨O, e, t, hB, hexec, hD, hsp, hfree', hby⟩ := frame_decision h hrun hc hfree rfl rfl hlt h1 h2 hdue
      have hidle : e.cyc.splice = .idle := by
        rw [hsp, hB.counted (by rw [hi']; exact nofun), hi']
        rfl
      have hwanted := hD.wanted ht h.coast hbc
      rw [← hround.eq_roundDiv] at hwanted
      intro j
      refine ⟨t, hexec, hby.made, fun hask hj => ?_, fun hno => ?_⟩
      · have hw : spliceWanted e.fol = j := hwanted.trans (if_pos hask)
        rw [hby.splice, ← hw]
        exact hD.takes hrun hfree' hidle hdone hcap hmade (by rw [hw]; exact hj)
      · rw [hby.splice, decideSplice_stands (.inl ?_), hidle]
        rw [hwanted]
        obtain hless | hzero := hno
        · exact if_neg (Nat.not_le.2 hless)
        · rw [show max (-(s.eng.fol.jMax : Int)) (min s.eng.fol.jMax rounded) = 0 from hzero, ite_self]
    · obtain ⟨O, e, t, hB, hexec, hD, hsp, hfree', hby⟩ := frame_decision h hrun hc hfree rfl rfl hlt h1 h2 hdue
      obtain ⟨b, sp, hcyc⟩ := hD.cyc
      refine ⟨t, hexec, hby.made, fun hn => (hby.err hn).trans hD.made.2, fun hi hor => ?_, fun r hr hcount => ?_,
        fun r hr hcount => ?_⟩
      · have hi' : s.eng.cyc.splice = .idle := hi
        have hkeeps : e.cyc.spliceDone = true ∨ e.cyc.captureThisPass = true := by
          rw [hcyc]
          exact hor
        rw [hby.splice, decideSplice_stands (.inr (.inr hkeeps)), hsp, hB.counted (by rw [hi']; exact nofun), hi']
        rfl
      · have hr' : s.eng.cyc.splice = .fetching r := hr
        have hcounted : e.cyc.splice = .fetching { r with count := r.count + 1 } := by
          rw [hsp, hB.counted fun r' hr'' => ?_, hr']
          · rfl
          · obtain rfl : r = r' := Splice.fetching.inj (hr'.symm.trans hr'')
            exact hcount
        rw [hby.splice, decideSplice_stands (.inr (.inl (by rw [hcounted]; exact nofun))), hcounted]
      · have hr' : s.eng.cyc.splice = .crossfading r := hr
        have hcounted : e.cyc.splice = .crossfading { r with count := r.count + 1 } := by
          rw [hsp, hB.counted (by rw [hr']; exact nofun), hr', Splice.settled, if_neg (by omega)]
          rfl
        rw [hby.splice, decideSplice_stands (.inr (.inl (by rw [hcounted]; exact nofun))), hcounted]
    · have hi' : s.eng.cyc.splice = .idle := hi
      have hdue := jumpDue_unfetched h hrun hfree (by rw [hi']; exact nofun)
      obtain ⟨O, e, t, hB, hexec, hD, hsp, -, hby⟩ := frame_decision h hrun hc hfree rfl rfl hlt h1 h2 hdue
      refine ⟨t, hexec, hby.made, ?_⟩
      rw [hby.splice, decideSplice_stands (.inl (hD.wants_none ht)), hsp, hB.counted (by rw [hi']; exact nofun), hi']
      rfl
  · intro len here old now crosses
    have hpos : ∀ n, e.layers[v].mult = some n → (layerPos e v).getD 0 = here := fun n hn => by
      unfold layerPos here Engine.position
      rw [hn]
      rfl
    have hself : ∀ f, (e.jumps v f).voices[v] = f e.voices[v] := fun f => upd_self e.voices v f
    obtain ⟨f, honly⟩ := jumpVoice_only r v e
    refine ⟨fun hrs hno => ?_, fun i d n hcross hn hlen hp hb hi hd hf hat => ?_, fun n hrs hn => ?_, fun n hrs hn hlen hrun => ?_,
      fun hrs => ?_, ?_, fun w hw => ?_⟩
    · exact congrArg (fun t : Engine => t.voices[v])
        (jumpVoice_reads hrs fun hv => hno.elim (fun h => h hv.1) fun h => by rw [hv.2] at h; exact nomatch h)
    · obtain ⟨flag, hflag⟩ := crossed_eq (r := r) hp hb hi hd hf hat
      have hnow : now = _ := (congrArg (fun t : Engine => t.voices[v])
        (jumpVoice_crosses (hpos n hn) hcross.1 hcross.2)).trans ((hself _).trans hflag)
      have hmy : now.flag = flag := congrArg Voice.flag hnow
      rw [hmy]
      exact hnow
    · exact (congrArg (fun t : Engine => t.voices[v]) (jumpVoice_starved (hpos n hn) hrs)).trans (hself _)
    · refine (congrArg (fun t : Engine => t.voices[v]) (jumpVoice_priming (hpos n hn) hrs hrun)).trans ((hself _).trans ?_)
      rw [wrapAt, if_neg (show layerLen e v ≠ 0 from Nat.ne_of_gt hlen)]
      rfl
    · exact congrArg (fun t : Engine => t.voices[v]) (jumpVoice_idle hrs)
    · rw [honly]
    · rw [honly]
      exact upd_other e.voices v w f (Ne.symm hw)

end Sys2Proof.Settled

end
